-- ==== Sys2Proof/Word.lean ====
section
/-!
DEFINITION. The word types of the DW-1: bytes, 32-bit instruction words, 64-bit registers, and the
512-bit and 4,096-bit registers of the tile (R112).
-/
namespace Sys2Proof

/-- One byte of a memory. -/
abbrev Byte := BitVec 8

/-- One instruction word (R115). -/
abbrev Word32 := BitVec 32

/-- A 64-bit register, control register or host register (R112, R677). -/
abbrev Word := BitVec 64

/-- A mask register or matrix descriptor, 512 bits (R112). -/
abbrev Line := BitVec 512

/-- A vector register, VLEN = 4,096 bits (R112). -/
abbrev Vec := BitVec 4096

end Sys2Proof
end

