-- ==== Sys2Proof/Syntax.lean ====
section
/-!
DEFINITION. The commands the block takes, one constructor per row of the opcode table. The operands of a tile
instruction are the tile that confirms it and the fields of its words (R116); those of an event are what the
outside world supplies with it.
-/
namespace Sys2Proof

/-- A tile, by tile_index (R43). -/
abbrev TileIx := Fin 10800
/-- A partition, 0 to 15 (R514). -/
abbrev PartIx := Fin 16
/-- A context, 0 to 63 (R519). -/
abbrev CtxIx := Fin 64
/-- A Brix link, 0 to 63 (R439). -/
abbrev LinkIx := Fin 64
/-- A group entry, 0 to 255 (R483). -/
abbrev GroupIx := Fin 256
/-- A block, BLOCK = block_y × 24 + block_x (R385). -/
abbrev BlockIx := Fin 720
/-- A command queue of a context (R687). -/
abbrev QueueIx := Fin 8
/-- The symbol errors of a line as it is read (R406): position in the code word and value added. Positions 0 to 3 are check
symbols, 4 to 35 data symbols, 36 to 38 the virtual symbols of the address (log 87). -/
abbrev LineErr := List (Fin 39 × BitVec 16)

/-- The fields of a base word of layout F3, MAJOR and MINOR apart (R116). -/
structure F3 where
  a : BitVec 5
  b : BitVec 5
  c : BitVec 5
  k : BitVec 3
  deriving DecidableEq, Repr

/-- The fields of layout FI, MAJOR apart (R116). -/
structure FI where
  a : BitVec 5
  b : BitVec 5
  imm : BitVec 16
  deriving DecidableEq, Repr

/-- The fields of layout FL, MAJOR apart (R116). -/
structure FL where
  a : BitVec 5
  imm : BitVec 21
  deriving DecidableEq, Repr

/-- The fields of layout FX: word 0 as F3, and word 1 (R116). -/
structure FX where
  a : BitVec 5
  b : BitVec 5
  c : BitVec 5
  k : BitVec 3
  w1 : BitVec 32
  deriving DecidableEq, Repr

/-- A base word of layout F3 with the tile that dispatches it, where the instruction takes no operand: its fields are reserved, but are
part of the word (R119, R156). -/
structure TileWord where
  tile : TileIx
  f : F3
  deriving DecidableEq, Repr

/-- A boundary of a tile's dispatch (R143), and the word that stands there where no row of the table is its own: one with an undefined
MAJOR or MINOR, word 1 in bits 63..32. -/
structure Boundary where
  tile : TileIx
  word : Option (BitVec 64)
  deriving DecidableEq, Repr

/-- The words of `vrscale` (R291), and the group of the run in which it stands. -/
structure ScaleWord where
  f : FX
  g : BitVec 13
  deriving DecidableEq, Repr

/-- The domain and transport of a PTP message (R69). -/
structure PtpPort where
  domain : BitVec 8
  transport : Fin 3
  deriving DecidableEq, Repr

/-- The arrival of a frame: the fraction of the tick, and HOLD_ROUNDS of the sender (R76, R80; log 43). -/
structure Arrival where
  frac : BitVec 16
  hold : BitVec 5
  deriving DecidableEq, Repr

/-- A message as it stands in a frame: its header slot and its data slots (R444). -/
abbrev WireMsg := BitVec 512 × List (BitVec 512)


/-- What a recovery step resets (R552). -/
inductive StepIx where
  | context (c : CtxIx) | tile (t : TileIx) | part (p : PartIx) | engine
  deriving DecidableEq, Repr

/-- A Badger (R566): of a tile's queue, 0 S to 3 X, or of a command queue. -/
inductive BadgerIx where
  | queue (t : TileIx) (q : Fin 4) | command (c : CtxIx) (q : QueueIx)
  deriving DecidableEq, Repr

/-- A physical array column, 0 to 32 (R44). -/
abbrev FailCol := Fin 33

/-- A domain whose pads are held (R628). -/
inductive PadIx where
  | tile (t : TileIx) | part (p : PartIx)
  deriving DecidableEq, Repr

/-- A register that a write names (R24, R149, R676): a host register by its BAR0 offset, or a tile control register. -/
inductive RegIx where
  | host (off : BitVec 28) | tile (t : TileIx) (addr : BitVec 12)
  deriving DecidableEq, Repr

/-- What a PCIe configuration write changes (R681): NumVFs and VF Enable (0: none enabled), Bus Master Enable of a function,
or its power state, D3hot or D0. -/
inductive CfgOp where
  | vfs (n : Fin 65) | master (fn : Fin 65) (on : Bool) | power (fn : Fin 65) (d3 : Bool)
  deriving DecidableEq, Repr

/-- A reference of the Owl (R68). -/
inductive RefIx where
  | ptp | pps | f10 | link (l : LinkIx)
  deriving DecidableEq, Repr

/-- The reading in °C of a logic quarter sensor, none when it gives none or its self-check fails (R699, R729). -/
abbrev LogicReading := Fin 48 × Option Int

/-- The reading of a DRAM layer sensor: block, layer, °C. -/
abbrev DramReading := Fin 720 × Fin 12 × Option Int

/-- The commands of the block: one constructor per row of the opcode table, in the table's order. -/
inductive Instr where
  /-- STANDBY_POWER_APPLIED (R61). Applying 12 V standby starts the always-on domain, with the hall-time counter and fraction at 0 and the Owl in UNSYNC. -/
  | standbyPowerApplied
  /-- STANDBY_POWER_LOST (R98). Loss of standby power loses the counter and the Owl state. -/
  | standbyPowerLost
  /-- WARM_UP_DONE (R85). 300 s after standby power is applied, TIME_STATE.WARM becomes 1. -/
  | warmUpDone
  /-- PTP_SYNC_MEASUREMENT (R71). A received PTP Sync yields a measurement that moves the PTP reference between absent, qualifying, qualified and held. -/
  | ptpSyncMeasurement (port : PtpPort) (sec : BitVec 48) (nanos : BitVec 30) (sub : BitVec 16)
  /-- PPS_EDGE (R71). A 1PPS edge gives a phase measurement, and it loads the value of a pending Set with AT_PPS. -/
  | ppsEdge (rising : Bool) (sub : BitVec 16)
  /-- REFERENCE_LOSS (R70). A reference with no measurement within its loss interval becomes Absent. -/
  | referenceLoss (r : RefIx)
  /-- ROUND_BOUNDARY (R19). At each round boundary the engine advances HOLD_ROUNDS, takes the F10 and link time measurements and applies round-aligned settings. -/
  | roundBoundary (f10 : Option (BitVec 23))
  /-- REFERENCE_SELECTION (R72). A change of the selected time reference takes effect at the next round boundary, and the offset is slewed out. -/
  | referenceSelection
  /-- AUTOMATIC_LOAD (R87). From UNSYNC, the counter is loaded with the time of a selected PTP or LINK reference at a round boundary, and the state becomes LOCKED. -/
  | automaticLoad
  /-- HOLD_LIMIT_REACHED (R87). When HOLD_ROUNDS reaches HOLD_LIMIT, the Owl moves from HOLDOVER to FREE. -/
  | holdLimitReached
  /-- TIME_SET (R88). TIME_CTL.SET without AT_PPS loads TIME_SET_NS in UNSYNC or FREE, or is refused. -/
  | timeSet
  /-- TIME_SET_AT_PPS (R89). TIME_CTL.SET with AT_PPS captures TIME_SET_NS and makes the Set pending until the next PPS edge. -/
  | timeSetAtPps
  /-- TIME_CANCEL (R89). TIME_CTL.CANCEL cancels a pending Set with AT_PPS. -/
  | timeCancel
  /-- STEP_OK (R90). TIME_CTL.STEP_OK authorises a pending step when no timetabled reservation is admitted, or is refused. -/
  | stepOk
  /-- TIME_STEP (R90). At the next round boundary of the old counter, the counter takes the reference time, STEPPED is set and STEP_PEND is cleared. -/
  | timeStep
  /-- DROOP_STRETCH (R94). Droop on the 48 V supply stretches the tile clock, and STRETCH_CYCLES grows as cycles are lost. -/
  | droopStretch (n : BitVec 8) (deep : Bool)
  /-- CLOCK_REALIGN (R94). At the first 4-tick boundary after a stretch ends, the tile clock realigns to hall time. -/
  | clockRealign
  /-- REGISTER_WRITE (R24). A write to a register that has no row of its own acts on each field by its access code and sets CFG_REJECT on reserved encodings. -/
  | registerWrite (r : RegIx) (w : BitVec 64) (src : Fin 4)
  /-- SQUASH (R130). A mispredicted branch resolves and removes every instruction beyond it from the queues, the store buffer and the scoreboard. -/
  | squash (t : TileIx) (nS nM nC nX : BitVec 6)
  /-- ADD (R118). sA = sB + sC. -/
  | add (t : TileIx) (f : F3)
  /-- SUB (R118). sA = sB - sC. -/
  | sub (t : TileIx) (f : F3)
  /-- AND (R118). Bitwise AND of sB and sC. -/
  | and (t : TileIx) (f : F3)
  /-- OR (R118). Bitwise OR of sB and sC. -/
  | or (t : TileIx) (f : F3)
  /-- XOR (R118). Bitwise XOR of sB and sC. -/
  | xor (t : TileIx) (f : F3)
  /-- SHL (R118). Shift sB left by sC[5:0]. -/
  | shl (t : TileIx) (f : F3)
  /-- SHR (R118). Logical shift of sB right by sC[5:0]. -/
  | shr (t : TileIx) (f : F3)
  /-- SAR (R118). Arithmetic shift of sB right by sC[5:0]. -/
  | sar (t : TileIx) (f : F3)
  /-- SLT (R118). sA = 1 if sB < sC as signed values, else 0. -/
  | slt (t : TileIx) (f : F3)
  /-- SLTU (R118). sA = 1 if sB < sC as unsigned values, else 0. -/
  | sltu (t : TileIx) (f : F3)
  /-- MIN (R118). Signed minimum of sB and sC. -/
  | min (t : TileIx) (f : F3)
  /-- MAX (R118). Signed maximum of sB and sC. -/
  | max (t : TileIx) (f : F3)
  /-- MINU (R118). Unsigned minimum of sB and sC. -/
  | minu (t : TileIx) (f : F3)
  /-- MAXU (R118). Unsigned maximum of sB and sC. -/
  | maxu (t : TileIx) (f : F3)
  /-- MUL (R118). Low 64 bits of sB × sC. -/
  | mul (t : TileIx) (f : F3)
  /-- MULH (R118). High 64 bits of the signed product of sB and sC. -/
  | mulh (t : TileIx) (f : F3)
  /-- MULHU (R118). High 64 bits of the unsigned product of sB and sC. -/
  | mulhu (t : TileIx) (f : F3)
  /-- DIV (R118). Signed quotient rounded toward zero, with the stated results for a zero divisor and for overflow. -/
  | div (t : TileIx) (f : F3)
  /-- DIVU (R118). Unsigned quotient. -/
  | divu (t : TileIx) (f : F3)
  /-- REM (R118). Signed remainder with the sign of sB. -/
  | rem (t : TileIx) (f : F3)
  /-- REMU (R118). Unsigned remainder. -/
  | remu (t : TileIx) (f : F3)
  /-- CLZ (R118). Count of the leading zeros of sB. -/
  | clz (t : TileIx) (f : F3)
  /-- CTZ (R118). Count of the trailing zeros of sB. -/
  | ctz (t : TileIx) (f : F3)
  /-- POPC (R118). Count of the set bits of sB. -/
  | popc (t : TileIx) (f : F3)
  /-- ADDI (R117). sA = sB + sign-extended IMM16. -/
  | addi (t : TileIx) (f : FI)
  /-- ANDI (R117). sA = sB AND zero-extended IMM16. -/
  | andi (t : TileIx) (f : FI)
  /-- ORI (R117). sA = sB OR zero-extended IMM16. -/
  | ori (t : TileIx) (f : FI)
  /-- XORI (R117). sA = sB XOR zero-extended IMM16. -/
  | xori (t : TileIx) (f : FI)
  /-- SHLI (R117). Shift left by an immediate amount. -/
  | shli (t : TileIx) (f : FI)
  /-- SHRI (R117). Logical shift right by an immediate amount. -/
  | shri (t : TileIx) (f : FI)
  /-- SARI (R117). Arithmetic shift right by an immediate amount. -/
  | sari (t : TileIx) (f : FI)
  /-- ROTRI (R117). Rotate right by an immediate amount. -/
  | rotri (t : TileIx) (f : FI)
  /-- SLTI (R117). Signed compare of sB with IMM16. -/
  | slti (t : TileIx) (f : FI)
  /-- SLTIU (R117). Unsigned compare of sB with the sign-extended IMM16. -/
  | sltiu (t : TileIx) (f : FI)
  /-- LI (R117). sA = sign-extended IMM21. -/
  | li (t : TileIx) (f : FL)
  /-- LSH (R117). sA = (sB << 16) OR zero-extended IMM16. -/
  | lsh (t : TileIx) (f : FI)
  /-- PCREL (R117). sA = PC + IMM21 × 4. -/
  | pcrel (t : TileIx) (f : FL)
  /-- LD8 (R117). Sign-extending 8-bit tile-store load. -/
  | ld8 (t : TileIx) (f : FI)
  /-- LD8U (R117). Zero-extending 8-bit tile-store load. -/
  | ld8u (t : TileIx) (f : FI)
  /-- LD16 (R117). Sign-extending 16-bit load. -/
  | ld16 (t : TileIx) (f : FI)
  /-- LD16U (R117). Zero-extending 16-bit load. -/
  | ld16u (t : TileIx) (f : FI)
  /-- LD32 (R117). Sign-extending 32-bit load. -/
  | ld32 (t : TileIx) (f : FI)
  /-- LD32U (R117). Zero-extending 32-bit load. -/
  | ld32u (t : TileIx) (f : FI)
  /-- LD64 (R117). 64-bit tile-store load. -/
  | ld64 (t : TileIx) (f : FI)
  /-- ST8 (R117). Stores the low 8 bits of sA at sB + IMM16. -/
  | st8 (t : TileIx) (f : FI)
  /-- ST16 (R117). Stores the low 16 bits of sA. -/
  | st16 (t : TileIx) (f : FI)
  /-- ST32 (R117). Stores the low 32 bits of sA. -/
  | st32 (t : TileIx) (f : FI)
  /-- ST64 (R117). Stores sA. -/
  | st64 (t : TileIx) (f : FI)
  /-- BEQ (R117). Branches if sA equals sB. -/
  | beq (t : TileIx) (f : FI)
  /-- BNE (R117). Branches if sA differs from sB. -/
  | bne (t : TileIx) (f : FI)
  /-- BLT (R117). Branches if sA < sB as signed values. -/
  | blt (t : TileIx) (f : FI)
  /-- BGE (R117). Branches if sA >= sB as signed values. -/
  | bge (t : TileIx) (f : FI)
  /-- BLTU (R117). Branches if sA < sB as unsigned values. -/
  | bltu (t : TileIx) (f : FI)
  /-- BGEU (R117). Branches if sA >= sB as unsigned values. -/
  | bgeu (t : TileIx) (f : FI)
  /-- JAL (R117). Jumps PC-relative and links PC + 4 into sA. -/
  | jal (t : TileIx) (f : FL)
  /-- JALR (R117). Jumps to sB + IMM16 and links PC + 4 into sA. -/
  | jalr (t : TileIx) (f : FI)
  /-- FENCE (R109). No later X request launches until every earlier X request of the tile has completed. -/
  | fence (x : TileWord)
  /-- TSYNC (R119). Completes when earlier instructions in the named queues have completed, and discards frozen queues in a handler when DISCARD is set. -/
  | tsync (t : TileIx) (f : F3)
  /-- IFENCE (R119). Discards fetched and decoded instructions and refetches from the next PC. -/
  | ifence (x : TileWord)
  /-- TRAP (R119). Raises cause TRAP with CODE; under RUN, CODE 0 ends the tile's part of the work. -/
  | trap (t : TileIx) (f : F3)
  /-- WAIT (R119). Enters Doze, or Den in handler mode with SLEEPCFG.STATE 1, and completes on wake or on refusal. -/
  | wait (x : TileWord)
  /-- DEN_COMMIT (R614). Latches the pads, moves the kept registers to retention, retains the sett banks and switches the tile off. -/
  | denCommit (t : TileIx)
  /-- ERET (R146). Unfreezes the queues, re-issues or discards the faulting instruction, restores user mode and resumes at EXC_PC. -/
  | eret (x : TileWord)
  /-- ASYNC_EVENT_ENTRY (R143). A pending asynchronous event (FENCED, TILE_MSG, SAMPLE) is taken at an instruction boundary by precedence. -/
  | asyncEventEntry (x : Boundary)
  /-- TWAIT (R121). Holds dispatch until hall time reaches the target tick, or raises TWAIT_RANGE. -/
  | twait (t : TileIx) (f : FI)
  /-- TWAIT_RELEASE (R122). A waiting twait releases in the first tile cycle that starts at or after the target tick. -/
  | twaitRelease (t : TileIx)
  /-- CSRR (R147). Reads a control register into sA and performs its read side effect. -/
  | csrr (t : TileIx) (f : FI)
  /-- CSRW (R147). Writes sB to a control register and returns the old value. -/
  | csrw (t : TileIx) (f : FI)
  /-- CSRS (R147). Writes the old value OR sB and returns the old value. -/
  | csrs (t : TileIx) (f : FI)
  /-- CSRC (R147). Writes the old value AND NOT sB and returns the old value. -/
  | csrc (t : TileIx) (f : FI)
  /-- DLD (R120). Loads a matrix descriptor from the tile store. -/
  | dld (t : TileIx) (f : F3)
  /-- DST (R120). Stores a matrix descriptor to the tile store. -/
  | dst (t : TileIx) (f : F3)
  /-- KLD (R120). Loads a mask register from the tile store. -/
  | kld (t : TileIx) (f : F3)
  /-- KST (R120). Stores a mask register to the tile store. -/
  | kst (t : TileIx) (f : F3)
  /-- HOLD (R134). Reads a line and requests a reservation on it at its home. -/
  | hold (t : TileIx) (f : F3)
  /-- COMMIT (R134). Writes sC if this tile's reservation is intact, reports a status and ends the reservation. -/
  | commit (t : TileIx) (f : F3)
  /-- AMOADD (R132). Atomic add that returns the old value. -/
  | amoadd (t : TileIx) (f : F3)
  /-- AMOAND (R132). Atomic AND that returns the old value. -/
  | amoand (t : TileIx) (f : F3)
  /-- AMOOR (R132). Atomic OR that returns the old value. -/
  | amoor (t : TileIx) (f : F3)
  /-- AMOXOR (R132). Atomic XOR that returns the old value. -/
  | amoxor (t : TileIx) (f : F3)
  /-- AMOMIN (R132). Atomic signed minimum. -/
  | amomin (t : TileIx) (f : F3)
  /-- AMOMAX (R132). Atomic signed maximum. -/
  | amomax (t : TileIx) (f : F3)
  /-- AMOMINU (R132). Atomic unsigned minimum. -/
  | amominu (t : TileIx) (f : F3)
  /-- AMOMAXU (R132). Atomic unsigned maximum. -/
  | amomaxu (t : TileIx) (f : F3)
  /-- AMOSWAP (R132). Atomic swap. -/
  | amoswap (t : TileIx) (f : F3)
  /-- AMOFADD64 (R132). Atomic FP64 add, which traps under STRICT. -/
  | amofadd64 (t : TileIx) (f : F3)
  /-- AMOFADD32 (R132). Atomic FP32 add, which traps under STRICT. -/
  | amofadd32 (t : TileIx) (f : F3)
  /-- ATOMIC_AT_HOME (R136). The home atomic unit performs an arriving atomic, hold or commit on its line, including the uncorrectable-error outcomes. -/
  | atomicAtHome (t : TileIx) (tag : BitVec 7) (err : LineErr)
  /-- HOLD_SERVED (R135). When a live reservation ends, the next hold waiting at the home is served. -/
  | holdServed (d : Option TileIx) (a : BitVec 45)
  /-- RESERVATION_LAPSE (R134). A reservation lapses 256 tile cycles after it started. -/
  | reservationLapse (t : TileIx)
  /-- HALT_DEFER_EXPIRY (R137). After 64 cycles of a deferred halt, the reservation is broken and the tile halts. -/
  | haltDeferExpiry (t : TileIx)
  /-- STAMP_LAUNCH (R127). A stamped X instruction launches at the start of its beat, in this round or late in the next, and binds to a launch entry. -/
  | stampLaunch (t : TileIx)
  /-- MMAC (R210). Accumulates A × B exactly into the LACCs, with optional snapshots and drain. -/
  | mmac (t : TileIx) (f : FX)
  /-- MDRAIN (R218). Settles the array and rounds each active LACC once to C_FMT. -/
  | mdrain (t : TileIx) (f : FX)
  /-- MCLEAR (R210). Sets every LACC to zero in state none and clears MOMENTS and MMOM_N. -/
  | mclear (t : TileIx) (f : FX)
  /-- MEXPORT (R224). Writes the packed records of the active outputs and the byte count. -/
  | mexport (t : TileIx) (f : FX)
  /-- MIMPORT (R225). Scans the records, then loads or exactly adds them into the LACCs. -/
  | mimport (t : TileIx) (f : FX)
  /-- MMOM (R226). Accumulates sums and sums of squares in cell pairs. -/
  | mmom (t : TileIx) (f : FX)
  /-- MDRMOM (R227). Drains means and variances from the moment pairs and clears them. -/
  | mdrmom (t : TileIx) (f : FX)
  /-- MGRP (R376). Grouped adapter operation, with one group pass per distinct adapter. -/
  | mgrp (t : TileIx) (f : FX)
  /-- VSETVL (R236). Sets VTYPE and VL and returns VL. -/
  | vsetvl (t : TileIx) (f : F3)
  /-- VMV (R238). Vector register move. -/
  | vmv (t : TileIx) (f : F3)
  /-- VBCAST (R238). Broadcasts a scalar to the vector elements. -/
  | vbcast (t : TileIx) (f : F3)
  /-- VEXTR (R238). Extracts one element into a scalar register. -/
  | vextr (t : TileIx) (f : F3)
  /-- VINS (R238). Inserts a scalar into one element. -/
  | vins (t : TileIx) (f : F3)
  /-- VIDX (R238). Writes each element's index. -/
  | vidx (t : TileIx) (f : F3)
  /-- VADD (R238). Element-wise add. -/
  | vadd (t : TileIx) (f : F3)
  /-- VSUB (R238). Element-wise subtract. -/
  | vsub (t : TileIx) (f : F3)
  /-- VMUL (R238). Element-wise multiply. -/
  | vmul (t : TileIx) (f : F3)
  /-- VFMA (R238). Element-wise fused multiply-add. -/
  | vfma (t : TileIx) (f : F3)
  /-- VFNMA (R238). Element-wise vA - vB × vC. -/
  | vfnma (t : TileIx) (f : F3)
  /-- VMIN (R238). Element-wise minimum. -/
  | vmin (t : TileIx) (f : F3)
  /-- VMAX (R238). Element-wise maximum. -/
  | vmax (t : TileIx) (f : F3)
  /-- VABS (R238). Element-wise absolute value. -/
  | vabs (t : TileIx) (f : F3)
  /-- VNEG (R238). Element-wise negation. -/
  | vneg (t : TileIx) (f : F3)
  /-- VRECIP (R238). Element-wise reciprocal. -/
  | vrecip (t : TileIx) (f : F3)
  /-- VRSQRT (R238). Element-wise reciprocal square root. -/
  | vrsqrt (t : TileIx) (f : F3)
  /-- VEXP (R248). Element-wise exponential. -/
  | vexp (t : TileIx) (f : F3)
  /-- VLOG (R248). Element-wise natural logarithm. -/
  | vlog (t : TileIx) (f : F3)
  /-- VSIN (R248). Element-wise sine. -/
  | vsin (t : TileIx) (f : F3)
  /-- VCOS (R248). Element-wise cosine. -/
  | vcos (t : TileIx) (f : F3)
  /-- VTANH (R248). Element-wise hyperbolic tangent. -/
  | vtanh (t : TileIx) (f : F3)
  /-- VCEQ (R238). Compares for equality into a mask. -/
  | vceq (t : TileIx) (f : F3)
  /-- VCNE (R238). Compares for inequality into a mask. -/
  | vcne (t : TileIx) (f : F3)
  /-- VCLT (R238). Compares less-than into a mask. -/
  | vclt (t : TileIx) (f : F3)
  /-- VCLE (R238). Compares less-or-equal into a mask. -/
  | vcle (t : TileIx) (f : F3)
  /-- VCGT (R238). Compares greater-than into a mask. -/
  | vcgt (t : TileIx) (f : F3)
  /-- VCGE (R238). Compares greater-or-equal into a mask. -/
  | vcge (t : TileIx) (f : F3)
  /-- VSEL (R238). Selects vB or vC per element by the mask. -/
  | vsel (t : TileIx) (f : F3)
  /-- KAND (R238). Mask AND. -/
  | kand (t : TileIx) (f : F3)
  /-- KOR (R238). Mask OR. -/
  | kor (t : TileIx) (f : F3)
  /-- KXOR (R238). Mask XOR. -/
  | kxor (t : TileIx) (f : F3)
  /-- KNOT (R238). Mask NOT. -/
  | knot (t : TileIx) (f : F3)
  /-- KPOP (R238). Counts the set elements of a mask. -/
  | kpop (t : TileIx) (f : F3)
  /-- KFIRST (R238). Returns the lowest set element of a mask. -/
  | kfirst (t : TileIx) (f : F3)
  /-- VSHL (R238). Element-wise shift left. -/
  | vshl (t : TileIx) (f : F3)
  /-- VSHR (R238). Element-wise logical shift right. -/
  | vshr (t : TileIx) (f : F3)
  /-- VSAR (R238). Element-wise arithmetic shift right. -/
  | vsar (t : TileIx) (f : F3)
  /-- VAND (R238). Element-wise bitwise AND. -/
  | vand (t : TileIx) (f : F3)
  /-- VOR (R238). Element-wise bitwise OR. -/
  | vor (t : TileIx) (f : F3)
  /-- VXOR (R238). Element-wise bitwise XOR. -/
  | vxor (t : TileIx) (f : F3)
  /-- CVT (R240). Converts one part of a register between formats. -/
  | cvt (t : TileIx) (f : F3) (p : BitVec 3)
  /-- VWMUL (R245). Widening multiply of the low source elements. -/
  | vwmul (t : TileIx) (f : F3)
  /-- VWMULH (R245). Widening multiply of the high source elements. -/
  | vwmulh (t : TileIx) (f : F3)
  /-- VWFMA (R245). Widening FMA of the low source elements. -/
  | vwfma (t : TileIx) (f : F3)
  /-- VWFMAH (R245). Widening FMA of the high source elements. -/
  | vwfmah (t : TileIx) (f : F3)
  /-- VDOT (R245). Group dot product added into each destination element. -/
  | vdot (t : TileIx) (f : F3)
  /-- VREDDOT (R246). Adds exact products into a root. -/
  | vreddot (t : TileIx) (f : F3)
  /-- VREDSUM (R250). Exact sum reduction into a root. -/
  | vredsum (t : TileIx) (f : F3)
  /-- VREDMAX (R250). Max reduction into a root. -/
  | vredmax (t : TileIx) (f : F3)
  /-- VREDMIN (R250). Min reduction into a root. -/
  | vredmin (t : TileIx) (f : F3)
  /-- VREDAMAX (R250). Absolute-max reduction into a root. -/
  | vredamax (t : TileIx) (f : F3)
  /-- VRCLR (R251). Sets a root to the initial value of a kind. -/
  | vrclr (t : TileIx) (f : F3)
  /-- VRDRAIN (R253). Rounds a root once into a scalar register. -/
  | vrdrain (t : TileIx) (f : F3)
  /-- VRDRAINV (R253). Rounds a root once into element 0 of a vector register. -/
  | vrdrainv (t : TileIx) (f : F3)
  /-- VREXPORT (R254). Writes a root as a packed record. -/
  | vrexport (t : TileIx) (f : F3)
  /-- VRIMPORT (R254). Loads a packed record into a root, or adds it exactly. -/
  | vrimport (t : TileIx) (f : F3)
  /-- VLD (R238). Unit-stride vector load. -/
  | vld (t : TileIx) (f : F3)
  /-- VLDS (R238). Strided vector load. -/
  | vlds (t : TileIx) (f : F3)
  /-- VST (R238). Unit-stride vector store. -/
  | vst (t : TileIx) (f : F3)
  /-- VSTS (R238). Strided vector store. -/
  | vsts (t : TileIx) (f : F3)
  /-- VGATHER (R238). Indexed tile-store gather. -/
  | vgather (t : TileIx) (f : F3)
  /-- VSCATTER (R238). Indexed tile-store scatter in ascending element order. -/
  | vscatter (t : TileIx) (f : F3)
  /-- VRAND (R259). Writes chain-stream generator words. -/
  | vrand (t : TileIx) (f : F3)
  /-- VPHILOX (R259). Stateless Philox of each 128-bit group under key sC. -/
  | vphilox (t : TileIx) (f : F3)
  /-- VCHAIN (R243). Configured chain that passes each element through the stages and an optional reduction. -/
  | vchain (t : TileIx) (f : FX) (minor : BitVec 5)
  /-- MV_STREAM (R273). A gather engine runs one gather or scatter address stream. -/
  | mvStream (t : TileIx) (f : FX)
  /-- STREAM_COMPLETION (R274). When all elements are done, the engine writes the status word and completes the stream's tag. -/
  | streamCompletion (t : TileIx) (tag : BitVec 7)
  /-- TPROG (R293). Starts a KIND 0 tile program run after the checks. -/
  | tprog (t : TileIx) (f : FX)
  /-- TILE_PROGRAM_RUN (R296). A program or epilogue run reads the frame, runs the preamble and the groups, writes back and releases the array. -/
  | tileProgramRun (t : TileIx)
  /-- VACC (R289). Reads the LACC values of a row, rounded once, into a register. -/
  | vacc (t : TileIx) (f : FX) (g : BitVec 7)
  /-- VACCRED (R290). Passes exact LACC values into a root. -/
  | vaccred (t : TileIx) (f : FX) (g : BitVec 7)
  /-- VRSCALE (R291). Derives a quantisation scale from a root. -/
  | vrscale (t : TileIx) (x : ScaleWord)
  /-- VACCREL (R292). Releases the held array in the last group. -/
  | vaccrel (t : TileIx) (f : FX) (g : BitVec 7)
  /-- SINIT (R321). Checks and admits system slots. -/
  | sinit (t : TileIx) (f : F3)
  /-- SDELTA (R324). Checks and applies a delta list. -/
  | sdelta (t : TileIx) (f : F3)
  /-- SSOLVE (R327). Solves A x = b for the selected slots by exact-residual refinement. -/
  | ssolve (t : TileIx) (f : F3)
  /-- SSOLVET (R345). Solves the adjoint Aᵀλ = g for the selected slots. -/
  | ssolvet (t : TileIx) (f : F3)
  /-- SRESID (R320). Writes b - A x and RES_MAX for each selected slot. -/
  | sresid (t : TileIx) (f : F3)
  /-- SRESIDT (R345). Writes g - Aᵀλ and RES_MAX for each selected slot. -/
  | sresidt (t : TileIx) (f : F3)
  /-- SFREE (R320). Clears the ready bits of the selected slots. -/
  | sfree (t : TileIx) (f : F3)
  /-- SOLVER_FENCE_STOP (R344). A fenced running solver instruction stops at the end of its current iteration, with the slot STOPPED. -/
  | solverFenceStop (t : TileIx) (f : F3) (kind : Fin 3) (slot : Fin 64) (iters : BitVec 16)
  /-- SOLV_BASE_WRITE (R349). A write to SOLV_BASE waits for the M queue and clears SOLV_READY. -/
  | solvBaseWrite (t : TileIx) (w : BitVec 64) (src : Fin 4)
  /-- SOLV_REGION_WRITE (R350). A write to SOLV_REGION waits for the M queue and clears SOLV_READY. -/
  | solvRegionWrite (t : TileIx) (w : BitVec 64) (src : Fin 4)
  /-- ALTERNATE_START (R379). While a head waits on a peer event, the engine starts an eligible alternate queue's head command. -/
  | alternateStart (c : CtxIx) (q : QueueIx) (refused poisoned : List Nat)
  /-- PEER_EVENT_RESUME (R379). The waiting queue resumes at the first command boundary after its peer event. -/
  | peerEventResume (c : CtxIx) (q : QueueIx)
  /-- MV_DMA (R389). Copies LEN lines between global addresses in chunks after the launch checks. -/
  | mvDma (t : TileIx) (f : FX)
  /-- CHUNK_LAUNCH (R392). A further DMA chunk launches when a tag and the chunk limit allow. -/
  | chunkLaunch (t : TileIx) (tag : BitVec 7)
  /-- TAG_COMPLETION (R396). A request completion arrives, is matched by TAG and GEN, and frees its tag, or is discarded as late. -/
  | tagCompletion (t : TileIx) (tag : BitVec 7) (gen : BitVec 16) (ans : Fin 3)
  /-- ERROR_RECORD_POST (R397). An error record or note is posted in launch order once earlier requests are done and the ring has room. -/
  | errorRecordPost (t : TileIx)
  /-- MEMORY_REQUEST (R393). The owning controller serves a read, write, partial write or atomic on a line in its window or class. -/
  | memoryRequest (t : TileIx) (tag : BitVec 7) (n : BitVec 21) (err : LineErr)
  /-- REFRESH_BEAT (R402). In a refresh beat each bank refreshes its next row, and on-die counts are read. -/
  | refreshBeat (b : BlockIx) (ondie : BitVec 24)
  /-- ZERO_FILL (R404). A controller zero-fills its block or layers and serves no request until done. -/
  | zeroFill (b : BlockIx) (layers : BitVec 12)
  /-- SCRUB_READ (R410). The scrubber reads the next line in class B. -/
  | scrubRead (b : BlockIx) (err : LineErr)
  /-- SCRUB_NOW (R424). MEM_SCRUB_CFG.NOW starts a scrub pass at once. -/
  | scrubNow (b : BlockIx)
  /-- ROW_REPLACE (R411). At the next refresh beat a row is copied to its spare and remapped. -/
  | rowReplace (b : BlockIx) (row : BitVec 35)
  /-- BOND_SWAP (R412). At the next refresh beat a failed bond is steered onto a spare bond. -/
  | bondSwap (b : BlockIx) (ch : BitVec 4)
  /-- MV_ERRQ_CFG_WRITE (R419). An accepted write moves the error ring at a record boundary and resets HEAD and TAIL. -/
  | mvErrqCfgWrite (t : TileIx) (w : BitVec 64) (src : Fin 4)
  /-- MV_SEND (R454). Sends LEN lines to the far engine over a link as messages. -/
  | mvSend (t : TileIx) (f : FX)
  /-- MV_RECV (R458). Waits until a flow's end count grows by COUNT. -/
  | mvRecv (t : TileIx) (f : FX)
  /-- RECV_COMPLETION (R458). The mv.recv completes when the end count is reached and posts the worst end. -/
  | recvCompletion (t : TileIx) (tag : BitVec 7)
  /-- FRAME_SEND (R442). Each beat a link direction sends one frame with its header, slots and time fields; retry beats carry retries first. -/
  | frameSend (l : LinkIx)
  /-- FRAME_RECEIVE (R445). A frame is accepted or discarded, its acknowledgements and time fields are processed and its messages are checked. -/
  | frameReceive (l : LinkIx) (ok : Bool) (at_ : Arrival) (h : BitVec 512) (ms : List WireMsg) (corr : List (Fin 9 × Nat))
  /-- FRAME_FAILED (R448). A frame not acknowledged by beat b + RD is failed and its messages are rescheduled or abandoned. -/
  | frameFailed (l : LinkIx) (b : BitVec 56)
  /-- MESSAGE_RELEASE (R461). The receiver releases held messages to their destinations in SEQ or send order. -/
  | messageRelease (l : LinkIx) (fl : BitVec 12)
  /-- TRANSFER_HORIZON_EXPIRY (R462). A transfer not done by D plus the horizon ends LATE, and held messages are discarded. -/
  | transferHorizonExpiry (x : Option (TileIx × BitVec 7)) (l : LinkIx) (fl : BitVec 12)
  /-- LANE_FAILURE (R466). A lane that loses lock or reaches LANE_LIMIT is judged failed and a swap is requested. -/
  | laneFailure (l : LinkIx) (lost : BitVec 9)
  /-- LANE_SWAP (R466). At SWAP_AT both ends remap the logical lanes around the new OFF_LANE. -/
  | laneSwap (l : LinkIx)
  /-- LINK_SYNC_ENTRY (R465). A training link whose lanes align and whose frames are accepted enters SYNC. -/
  | linkSyncEntry (l : LinkIx)
  /-- LINK_SERVICE_ENTRY (R465). After a whole round of accepted frames the link enters SERVICE at the round boundary. -/
  | linkServiceEntry (l : LinkIx)
  /-- LINK_DOWN (R468). A link leaves SERVICE for DOWN, and its unfinished sends complete LINK_DOWN. -/
  | linkDown (l : LinkIx)
  /-- LINK_ENABLE (R465). LINK_CFG.EN written 1 on a DOWN link starts training. -/
  | linkEnable (l : LinkIx)
  /-- LINK_DISABLE (R469). LINK_CFG.EN written 0 takes the link to DOWN at the next beat boundary. -/
  | linkDisable (l : LinkIx)
  /-- LINK_RETRAIN (R469). LINK_CFG.RETRAIN takes the link to DOWN and retrains it. -/
  | linkRetrain (l : LinkIx)
  /-- LINK_CLEAR_COUNTERS (R475). LINK_CFG.CLR_CNT clears LINK_ERR_CNT and the lane counts. -/
  | linkClearCounters (l : LinkIx)
  /-- COLL (R488). A COLL command checks its descriptor, zero-fills the report area and opens an instance. -/
  | coll (c : CtxIx) (q : QueueIx)
  /-- COLL_COMPLETION (R490). Once every report reads DONE, and earlier instances of the group have completed, the instance's completion is posted in CSEQ order. -/
  | collCompletion (c : CtxIx) (q : QueueIx)
  /-- GRP_CTRL_WRITE (R483). A write of VALID to a group entry is accepted or refused by the membership checks. -/
  | grpCtrlWrite (g : GroupIx) (w : BitVec 64) (src : Fin 4)
  /-- GROUP_CHANGE_SUBMIT (R498). GRP_CHG.GO submits a staged membership change, or it is refused. -/
  | groupChangeSubmit (g : GroupIx) (src : Fin 4)
  /-- MEMBERSHIP_CHANGE (R499). At round ER the staged membership is installed, EPOCH rises, instances that lose a member are cut and tagged flows are closed. -/
  | membershipChange (g : GroupIx)
  /-- CREATE (R515). PART_CTL CREATE defines a partition and starts its reset, or is refused. -/
  | create (p : PartIx) (src : Fin 4)
  /-- DESTROY (R516). PART_CTL DESTROY resets the tiles and returns the partition to NONE, or is refused. -/
  | destroy (p : PartIx) (src : Fin 4)
  /-- CTX_CFG_WRITE (R520). A write to CTX_CFG validates, invalidates or reassigns a context under its rules. -/
  | ctxCfgWrite (c : CtxIx) (w : BitVec 64) (src : Fin 4)
  /-- TIMETABLE_SUBMIT (R533). ADM_CTL submit checks, charges and accepts or refuses a timetable image. -/
  | timetableSubmit (p : PartIx)
  /-- TIMETABLE_WITHDRAW (R535). ADM_CTL withdraw schedules the removal of a live timetable. -/
  | timetableWithdraw (p : PartIx) (id : BitVec 8)
  /-- TIMETABLE_INSTALL (R534). At START_ROUND the accepted entries are installed in the tiles and link controllers. -/
  | timetableInstall (p : PartIx) (id : BitVec 8)
  /-- WITHDRAWAL_EFFECT (R535). At the next round boundary the withdrawn timetable's entries and charge are removed. -/
  | withdrawalEffect (p : PartIx) (id : BitVec 8)
  /-- ADMISSION_SETTLEMENT (R537). At a round boundary new shares and quotas apply, and excess timetables are suspended by admission order. -/
  | admissionSettlement
  /-- CONTEXT_FENCE (R555). A fence raises GEN, stops the context's commands and launches, breaks reservations, closes flows and latches the capture. -/
  | contextFence (c : CtxIx) (fw : Bool) (src : Fin 4)
  /-- DRAIN_BOUND (R558). At the drain bound, outstanding requests of the fenced context are answered with FENCED. -/
  | drainBound (c : CtxIx)
  /-- QUIESCE_LIMIT (R559). A tile not quiesced at the quiesce limit is reset within the current step. -/
  | quiesceLimit (t : TileIx)
  /-- CONTEXT_RESET (R573). Fences, captures, withdraws timetables, resets the tiles, discards commands and releases granules of one context. -/
  | contextReset (c : CtxIx) (fin : Bool) (src : Fin 4)
  /-- TRESET (R571). RECOV_CTL.TRESET resets the named tile. -/
  | treset (p : PartIx) (t : BitVec 14) (src : Fin 4)
  /-- TILE_RESET (R572). Answers the tile's tags, resets its control space and queues, zero-fills the store and reloads firmware. -/
  | tileReset (t : TileIx)
  /-- PARTITION_RESET_CMD (R571). RECOV_CTL.RESET starts a partition reset. -/
  | partitionResetCmd (p : PartIx) (src : Fin 4)
  /-- PARTITION_RESET (R575). Fences, captures, withdraws, resets the tiles, brings in spares and starts up the partition. -/
  | partitionReset (p : PartIx) (found : List (TileIx × Option FailCol))
  /-- CAPTURE_WRITE (R563). After the drain bound the engine writes the latched capture into host memory, or sets FAIL. -/
  | captureWrite
  /-- ESCALATION (R553). A step that misses its bound is abandoned and a wider step starts. -/
  | escalation (u : StepIx)
  /-- ENGINE_RESET (R579). ENGINE_RESET with KEY 0x5A3C fences everything, captures, resets all but the always-on domain and repeats bring-up. -/
  | engineReset (w : BitVec 64) (fin : Bool) (src : Fin 4)
  /-- POWER_CYCLE_REQUEST (R580). ENGINE_RESET.CYCLE asks the tray to cycle 48 V by driving CYCLE_REQ# low. -/
  | powerCycleRequest
  /-- BADGER_FIRE (R567). A Badger that has watched its limit without progress fires, loads BADGER_STATUS, interrupts and acts. -/
  | badgerFire (u : BadgerIx)
  /-- PCIE_LINK_DOWN (R584). The PCIe link goes down, HOST_LOST is set and host requests are refused. -/
  | pcieLinkDown
  /-- PCIE_HOT_RESET (R584). A received hot reset sets HOST_LOST. -/
  | pcieHotReset
  /-- PF_FLR (R584). A Function Level Reset of the PF sets HOST_LOST and starts an engine reset. -/
  | pfFlr
  /-- VF_FLR (R552). A Function Level Reset of VF c + 1 starts a reset of context c. -/
  | vfFlr (c : CtxIx)
  /-- PERST (R702). PERST# deassertion gates stage 2 of bring-up. -/
  | perst (asserted : Bool)
  /-- PROV (R596). A PROV command checks its descriptor, hashes the extents using the cache and writes a provenance record. -/
  | prov (c : CtxIx) (q : QueueIx)
  /-- PROV_CACHE_CLEAR (R601). PROV_CACHE.CLEAR invalidates every cache entry. -/
  | provCacheClear (p : PartIx)
  /-- PLEVEL_REQUEST (R604). A write of PWR_PLVL.TARGET is refused or schedules a P-level change. -/
  | plevelRequest (w : BitVec 64) (src : Fin 4)
  /-- PLEVEL_CHANGE (R605). At the scheduled round boundary the tile clock switches, every tile loads CLK_EPOCH and the voltage ramps. -/
  | plevelChange
  /-- DOZE_ENTRY (R608). After IDLE_CYCLES idle cycles the tile gates its clock. -/
  | dozeEntry (t : TileIx)
  /-- DOZE_WAKE (R609). A wake source resumes a dozing tile within 20 ticks and records the sleep. -/
  | dozeWake (t : TileIx) (source : Fin 16)
  /-- DEN_ALARM (R616). 4,096 ticks before beat DEN_WAKE_AT a tile in Den starts its wake. -/
  | denAlarm (t : TileIx)
  /-- DEN_WAKE (R617). A tile in Den powers up, restores its kept registers and completes its wait. -/
  | denWake (t : TileIx) (source : Fin 16)
  /-- WAKE_STEP_TIMEOUT (R618). A Den wake step missing twice its bound marks the tile for retirement and resets the partition. -/
  | wakeStepTimeout (t : TileIx)
  /-- HIB_ENTER (R620). HIB_CTL ENTER is refused or starts Hibernate prepare block by block. -/
  | hibEnter (p : PartIx)
  /-- HIB_BLOCK_STOP (R620). A preparing block stops after its tiles hold, its buffer flushes and its retained layers self-refresh. -/
  | hibBlockStop (p : PartIx)
  /-- HIB_ABORT (R621). A refusing block aborts the entry, and the stopped blocks restart in reverse order. -/
  | hibAbort (p : PartIx)
  /-- HIB_COMMIT (R622). At the beat boundary after the last block stops, pads latch and the partition powers off. -/
  | hibCommit (p : PartIx)
  /-- HIB_WAKE (R625). HIB_CTL WAKE starts the wake of a hibernating partition, or is refused. -/
  | hibWake (p : PartIx)
  /-- HIB_ALARM (R625). At beat HIB_WAKE_AT with ALARM_EN the partition starts its wake. -/
  | hibAlarm (p : PartIx)
  /-- HIB_WAKE_DONE (R626). Once the regulator, clock, memory and logic steps are ready, PHASE becomes 4. -/
  | hibWakeDone (p : PartIx) (beat : BitVec 56)
  /-- HIB_WAKE_FAIL (R627). A wake step missing twice its bound sets WAKE_FAIL and may start an engine reset. -/
  | hibWakeFail (p : PartIx)
  /-- PAD_RELEASE (R628). PAD_RELEASE.REL releases held pads and returns the tile or partition to service. -/
  | padRelease (u : PadIx)
  /-- FOX_LATCH (R646). At a periodic or armed explicit latch tick, counters are copied, or the latch is skipped. -/
  | foxLatch (p : PartIx)
  /-- DUMP_WRITTEN (R647). The latched dump is written into the ring, header last, and TAIL rises. -/
  | dumpWritten (p : PartIx)
  /-- FOX_LATCH_AT_WRITE (R658). A write to FOX_LATCH_AT arms an explicit latch. -/
  | foxLatchAtWrite (p : PartIx) (w : BitVec 64) (src : Fin 4)
  /-- FOX_DUMP_BASE_WRITE (R658). A write to FOX_DUMP_BASE places the ring, resets HEAD and TAIL and abandons a dump in progress. -/
  | foxDumpBaseWrite (p : PartIx) (w : BitVec 64) (src : Fin 4)
  /-- SAMPLE_TRIGGER (R654). When the sampled event count reaches PERIOD, SAMPLE becomes pending, or a trigger is lost. -/
  | sampleTrigger (t : TileIx)
  /-- FOX_SAMPLE_WRITE (R656). A write to FOX_SAMPLE appends a sample entry for the block's next dump. -/
  | foxSampleWrite (t : TileIx) (w : BitVec 64)
  /-- DEBUG_NOP (R661). DBG_ACCESS frame with OP NOP. -/
  | debugNop (f : BitVec 112)
  /-- DEBUG_PEEK (R662). Reads a target without a read side effect. -/
  | debugPeek (f : BitVec 112)
  /-- DEBUG_TAKE (R662). Reads a target, performing its read side effect. -/
  | debugTake (f : BitVec 112)
  /-- DEBUG_WRITE (R663). Writes a target under the access codes, with SRC 2. -/
  | debugWrite (f : BitVec 112)
  /-- EXTEST (R659). Boundary-scan EXTEST instruction. -/
  | extest
  /-- IDCODE (R659). Selects the device identification register, 0x1D40_114F. -/
  | idcode
  /-- SAMPLE_PRELOAD (R659). Boundary-scan SAMPLE/PRELOAD instruction. -/
  | samplePreload
  /-- BYPASS (R659). Selects the 1-bit bypass register, as every unlisted code does. -/
  | bypass (code : BitVec 8)
  /-- SCAN_PHYS (R669). Shifts physical scan chains when unlocked and held before bring-up, and zeros otherwise. -/
  | scanPhys
  /-- DEBUG_HALT (R665). DBG_CTL.HALT requests a halt at the next instruction boundary. -/
  | debugHalt (t : TileIx)
  /-- TILE_HALTED (R665). When no started M, C or X instruction executes, the tile becomes halted. -/
  | tileHalted (t : TileIx)
  /-- DEBUG_RESUME (R667). DBG_CTL.RESUME resumes a halted tile at DBG_PC. -/
  | debugResume (t : TileIx)
  /-- DEBUG_STEP (R668). DBG_CTL.STEP dispatches one instruction and halts again when it and its queue work complete. -/
  | debugStep (t : TileIx)
  /-- BREAKPOINT_MATCH (R668). A confirmed instruction at an enabled breakpoint address halts the tile before dispatch. -/
  | breakpointMatch (t : TileIx)
  /-- PARTITION_HALT (R669). At tick NS every tile of the partition receives a halt request. -/
  | partitionHalt (p : PartIx)
  /-- PARTITION_RESUME (R669). At tick NS every halted tile of the partition resumes. -/
  | partitionResume (p : PartIx)
  /-- TRACE_RECORD (R671). A traced event of the traced tile writes a record, or a drop is counted. -/
  | traceRecord (kind : Fin 6) (pc : BitVec 22) (code : BitVec 8)
  /-- TRACE_DATA1_READ (R673). A read of TRACE_DATA1 returns W1 of the oldest record and removes it. -/
  | traceData1Read
  /-- Q_DB_WRITE (R715). A doorbell write updates a queue's TAIL so that the engine fetches new commands. -/
  | qDbWrite (c : CtxIx) (q : QueueIx) (w : BitVec 64) (src : Fin 4)
  /-- COMMAND_FETCH (R687). The engine fetches the command at the head of a queue, or on failure posts HOST and clears EN. -/
  | commandFetch (c : CtxIx) (q : QueueIx) (ok : Bool) (w : BitVec 512)
  /-- CMD_NOP (R689). Host command that does nothing and completes. -/
  | cmdNop (c : CtxIx) (q : QueueIx)
  /-- RUN (R690). Places the context's image and entry on a rectangle of tiles and completes when every tile has ended. -/
  | run (c : CtxIx) (q : QueueIx)
  /-- CMD_DMA (R689). Host command that copies LEN bytes between partition and host addresses. -/
  | cmdDma (c : CtxIx) (q : QueueIx) (refused poisoned : List Nat)
  /-- MEM_ALLOC (R522). Allocates a run of free granules to the context, or fails with ALLOC_QUOTA or ALLOC_FULL. -/
  | memAlloc (c : CtxIx) (q : QueueIx)
  /-- MEM_FREE (R689). Releases owned granules, which are zeroed before reuse, or refuses with BAD_CMD. -/
  | memFree (c : CtxIx) (q : QueueIx)
  /-- COMPLETION_POST (R691). A completion entry is written when the completion ring has room, with an interrupt if asked. -/
  | completionPost (c : CtxIx) (q : QueueIx)
  /-- IRQ_MASK_WRITE (R709). Clearing a mask bit whose status bit is 1 sends its vector. -/
  | irqMaskWrite (w : BitVec 64) (src : Fin 4)
  /-- MAP_IMG_WRITE (R705). MAP_IMG.GO writes the 43,264-byte map image to the host address and sets DONE. -/
  | mapImgWrite (w : BitVec 64) (src : Fin 4)
  /-- PF_APERTURE_ACCESS (R685). A host access through BAR2 is mapped to partition memory or refused as a whole. -/
  | pfApertureAccess (off : BitVec 36) (n : BitVec 13) (wr : Bool) (data : Nat) (errs : List LineErr)
  /-- VF_APERTURE_ACCESS (R686). A host access through a VF aperture is served or refused, with a granule ownership check. -/
  | vfApertureAccess (c : CtxIx) (off : BitVec 32) (n : BitVec 13) (wr : Bool) (data : Nat) (errs : List LineErr)
  /-- HOST_REGISTER_ACCESS (R677). A host access to BAR0 that is not an aligned 8-byte access completes as Unsupported Request. -/
  | hostRegisterAccess (vf : Option CtxIx) (off : BitVec 28) (n : BitVec 13) (wr : Bool) (w : BitVec 64)
  /-- MGMT_REG_READ (R700). Management reads a host register without a read side effect. -/
  | mgmtRegRead (off : BitVec 28)
  /-- MGMT_REG_WRITE (R700). Management writes a host register with SRC 3. -/
  | mgmtRegWrite (off : BitVec 28) (w : BitVec 64)
  /-- PART_WAKE (R700). Management wakes a hibernating partition with SOURCE 8. -/
  | partWake (p : PartIx)
  /-- MGMT_ENGINE_RESET (R700). Management starts an engine reset with CAUSE 9. -/
  | mgmtEngineReset
  /-- MGMT_POWER_CYCLE (R700). Management requests a 48 V cycle. -/
  | mgmtPowerCycle
  /-- DEBUG_CHALLENGE (R700). Returns a 32-byte nonce. -/
  | debugChallenge
  /-- DEBUG_UNLOCK (R700). A valid signature over the nonce unlocks debug. -/
  | debugUnlock (sig : BitVec 768)
  /-- DEBUG_LOCK (R700). Locks debug. -/
  | debugLock
  /-- SVN_COMMIT (R700). Raises the fused SVN to that of the running firmware. -/
  | svnCommit
  /-- BRING_UP (R702). Runs the bring-up stages from ROM verification to READY. -/
  | bringUp (a b : Fin 3) (digest : Bool) (found : List (TileIx × Option FailCol))
  /-- TIME_STAGE_END (R703). Stage 7 ends once the Owl is not UNSYNC and no step is pending, or is LOCKED with WAIT_LOCK. -/
  | timeStageEnd
  /-- MAIN_EN_HIGH (R722). MAIN_EN high with the conditions met soft-starts the 48 V panel. -/
  | mainEnHigh (input cool : Bool)
  /-- MAIN_POWER_GOOD (R722). The panel reaches regulation, MAIN_PG is released and bring-up starts. -/
  | mainPowerGood
  /-- MAIN_EN_LOW (R722). MAIN_EN low switches the 48 V domain off and clears latched trips. -/
  | mainEnLow
  /-- MAIN_POWER_LOSS (R723). Loss of the 48 V domain stops everything in it and records RESET_LOG KIND 2. -/
  | mainPowerLoss
  /-- PANEL_FAULT (R724). An under-, overvoltage, overcurrent or regulator fault shuts the panel down. -/
  | panelFault (kind : Fin 4)
  /-- UNDERVOLTAGE_RESTART (R724). After the input stays at 40 V or above for 100 ms, the panel restarts. -/
  | undervoltageRestart (cool : Bool)
  /-- THERMAL_SAMPLE (R728). Every millisecond the sensors and COOL_OK are sampled and alerts are raised or cleared. -/
  | thermalSample (cool : Bool) (base : Int) (logic : List LogicReading) (dram : List DramReading)
  /-- PTP_ANNOUNCE (R62). A received PTP Announce message updates TIME_OFFSET.UTC_OFS and feeds best time transmitter selection and the logSyncInterval qualification. -/
  | ptpAnnounce (port : PtpPort) (utc : BitVec 8) (logSync : BitVec 8)
  /-- INBOUND_REQUEST (R556). A SPACE 0x1 read or write, or a timetabled street line, arrives at a destination tile's store and is served, or refused as another partition's, a fenced context's or a tile in Den. -/
  | inboundRequest (t : TileIx) (tag : BitVec 7) (n : BitVec 21)
  /-- PCIE_LINK_UP (R687). The PCIe link returns after being down, and command fetches, host requests and capture writes can proceed again. -/
  | pcieLinkUp
  /-- PCIE_CONFIG_WRITE (R681). A configuration write changes SR-IOV VF Enable, Bus Master Enable or the power state, which alters Requester IDs, interrupt vectors and the MVCAUSE 13 check. -/
  | pcieConfigWrite (op : CfgOp)
  /-- PCIE_COMPLETION_TIMEOUT (R683). A non-posted request to the host that gets no completion times out; a tile read completes REFUSED and a command fetch fails with HOST. -/
  | pcieCompletionTimeout (t : TileIx) (tag : BitVec 7)
  /-- PANEL_SOFT_START (R722). A MAIN_EN held high is acted on once SB_PG, COOL_OK, the input range, the 1 s off period or the trip restart limits come to hold, and the panel soft-starts. -/
  | panelSoftStart (input cool : Bool)
  /-- DEN_PREPARE_TIMEOUT (R612). A unit whose stop condition still fails 4,096 ticks after its Den prepare started refuses, and the stopped units restart. -/
  | denPrepareTimeout (t : TileIx)
  deriving DecidableEq, Repr

end Sys2Proof
end

