-- ==== Sys2Proof/Config.lean ====
section
/-!
DEFINITION. What one part or one installation fixes (Reset entries P of R26) and the free values: constants with
no body, so that nothing in Lean can evaluate them and a theorem about one holds whatever it is.
-/
namespace Sys2Proof.Config

/-- The fraction of a nanosecond that a host read of TIME_NOW_FRAC returns (R63): it "may hold any value". The
argument is the model's counter of free values. -/
opaque hostFrac : Nat → BitVec 16

/-- Whether what a tile does in the first tick of four at P0 falls in the second tile cycle that starts in that tick (R63). The
argument is the model's counter of free values. -/
opaque lateCycle : Nat → Bool

/-- Whether an inexact variance of `mdrmom` delivers the upper of its two neighbours (R227: it is "one of the two
C_FMT values that bracket it"). The arguments are the variance in units of 2^−4296 times the divisor, the divisor
and C_FMT. -/
opaque varianceUp : Int → Nat → Nat → Bool

/-- Whether the function stage delivers the upper of the two format values that bracket an inexact result in FP64 or
EXT80 (R248: "Faithful"). The arguments are the FUNC code, the format and the operand's encoding. -/
opaque funcUp : Nat → Nat → Nat → Bool

/-- The bits an element that holds an uncorrectable error is moved with inside a tile program (R301: it "reads as a
signalling NaN"; which one is not said). The argument is the format. -/
opaque poisonBits : Nat → Nat

/-- Which of the free request tags a launch is given (R109 names none). -/
opaque tagPick : Nat → Nat

/-- A word that the spec leaves open. -/
opaque freeWord : Nat → BitVec 64

/-- The part serial number (R50), which each part has its own of: sixteen ASCII characters, the first in the low byte. -/
opaque serial : BitVec 128

/-- How the Owl filters the offsets of one round into its measurement (R77 gives no filter). -/
opaque offsetFilter : List Int → Int

/-- The frequency correction the Owl applies (R93 reports it; no rule says how it is found). The argument is the model's
counter of free values. -/
opaque freqCorr : Nat → BitVec 24

/-- Whether a DEBUG_UNLOCK carries a valid signature (R700): by the nonce, the part serial number and the signature, for the
debug key whose hash is fused in the part. -/
opaque signatureOk : Nat → BitVec 128 → BitVec 768 → Bool

end Sys2Proof.Config
end

