-- ==== Sys2Proof/Machine/Bits.lean ====
section
/-!
DEFINITION. The sparse map that memories, register files and tables are held in, bit fields of a word,
byte order, and the width conversions of a register.
-/
namespace Sys2Proof.Machine

/-! ## Sparse maps in one canonical form -/

/-- A map from numbers to values, held as pairs with rising keys. A key that is not listed reads as the
map's default; no pair holds its key's default. -/
abbrev NMap (V : Type) := List (Nat × V)

/-- The value listed under a key, if one is listed. -/
def NMap.find {V : Type} : NMap V → Nat → Option V
  | [], _ => none
  | (j, v) :: m, k => if k = j then some v else NMap.find m k

/-- What a key reads as, the default of key `k` being `d k`. -/
def NMap.get {V : Type} (d : Nat → V) (m : NMap V) (k : Nat) : V := (m.find k).getD (d k)

/-- List a value under a key, in key order. -/
def NMap.put {V : Type} : NMap V → Nat → V → NMap V
  | [], k, v => [(k, v)]
  | (j, w) :: m, k, v =>
    if k = j then (k, v) :: m
    else if k < j then (k, v) :: (j, w) :: m
    else (j, w) :: NMap.put m k v

/-- Unlist a key. -/
def NMap.del {V : Type} : NMap V → Nat → NMap V
  | [], _ => []
  | (j, w) :: m, k => if k = j then NMap.del m k else (j, w) :: NMap.del m k

/-- Write a value: writing a key's default unlists the key, so equal maps are equal lists. -/
def NMap.set {V : Type} [DecidableEq V] (d : Nat → V) (m : NMap V) (k : Nat) (v : V) : NMap V :=
  if v = d k then m.del k else m.put k v

/-- Apply a function to the value under one key. -/
def NMap.upd {V : Type} [DecidableEq V] (d : Nat → V) (m : NMap V) (k : Nat) (f : V → V) : NMap V :=
  m.set d k (f (m.get d k))

/-- The canonical form: keys strictly rising, and no pair holding its key's default. -/
abbrev NMap.wf {V : Type} (d : Nat → V) (m : NMap V) : Prop :=
  m.Pairwise (fun p q => p.1 < q.1) ∧ ∀ p ∈ m, p.2 ≠ d p.1

/-- Keep only the pairs whose key satisfies a test. -/
def NMap.keep {V : Type} (p : Nat → Bool) (m : NMap V) : NMap V := m.filter (fun e => p e.1)

/-- Apply a function to every listed value. -/
def NMap.mapv {V : Type} [DecidableEq V] (d : Nat → V) (f : Nat → V → V) (m : NMap V) : NMap V :=
  m.foldr (fun (e : Nat × V) n => n.set d e.1 (f e.1 e.2)) []

/-- The map whose keys below `n` hold what a function gives. -/
def NMap.tabulate {V : Type} [DecidableEq V] (d : Nat → V) (n : Nat) (f : Nat → V) : NMap V :=
  ((List.range n).map (fun k => (k, f k))).filter (fun (e : Nat × V) => decide (e.2 ≠ d e.1))

/-! ## Byte memories -/

/-- What an unlisted byte of the tile store or of stacked memory reads as: both are zero-filled (R404, R572). -/
def byteZero : Nat → Byte := fun _ => 0

/-- The canonical form of a byte memory. -/
abbrev Memory.wf (m : NMap Byte) : Prop := NMap.wf byteZero m

/-- One byte of a memory. -/
def memByte (m : NMap Byte) (a : Nat) : Byte := m.get byteZero a

/-- `n` bytes from address `a` as a number, the lowest address least significant (R113: little-endian words). -/
def memRead (m : NMap Byte) (a : Nat) : Nat → Nat
  | 0 => 0
  | n + 1 => (memByte m a).toNat + 256 * memRead m (a + 1) n

/-- Store the low `n` bytes of `v` at address `a`, the least significant at the lowest address. -/
def memWrite (m : NMap Byte) (a : Nat) : Nat → Nat → NMap Byte
  | 0, _ => m
  | n + 1, v => memWrite (m.set byteZero a (BitVec.ofNat 8 v)) (a + 1) n (v / 256)

/-- Store a list of bytes from address `a` up. -/
def memWriteBytes (m : NMap Byte) (a : Nat) : List Byte → NMap Byte
  | [] => m
  | b :: bs => memWriteBytes (m.set byteZero a b) (a + 1) bs

/-- `n` bytes from address `a`, lowest address first. -/
def memReadBytes (m : NMap Byte) (a : Nat) : Nat → List Byte
  | 0 => []
  | n + 1 => memByte m a :: memReadBytes m (a + 1) n

/-- Fill `n` bytes with zero. -/
def memZero (m : NMap Byte) (a n : Nat) : NMap Byte := m.keep (fun k => k < a || a + n ≤ k)

/-! ## Bit fields -/

/-- Bits `lo` up to `lo + w - 1` of a number. -/
def bitsOf (x lo w : Nat) : Nat := x / 2 ^ lo % 2 ^ w

/-- A number with bits `lo` up to `lo + w - 1` replaced by those of `v`. -/
def setBits (x lo w v : Nat) : Nat :=
  x % 2 ^ lo + 2 ^ lo * (v % 2 ^ w) + 2 ^ (lo + w) * (x / 2 ^ (lo + w))

/-- One bit of a number. -/
def bitOf (x i : Nat) : Bool := x / 2 ^ i % 2 == 1

/-- 1 for true, 0 for false. -/
def b2n (b : Bool) : Nat := if b then 1 else 0

/-- A field of a 64-bit register, as a number. -/
def wordField (w : Word) (lo n : Nat) : Nat := bitsOf w.toNat lo n

/-- A 64-bit register with one field replaced. -/
def setWordField (w : Word) (lo n v : Nat) : Word := BitVec.ofNat 64 (setBits w.toNat lo n v)

/-- A `w`-bit number read as two's complement. -/
def signed (w x : Nat) : Int := if x % 2 ^ w < 2 ^ (w - 1) then (x % 2 ^ w : Nat) else (x % 2 ^ w : Nat) - (2 ^ w : Nat)

/-- The low `w` bits of an integer, two's complement. -/
def wrapTo (w : Nat) (x : Int) : Nat := (x % (2 ^ w : Nat)).toNat

/-- A 64-bit register from an integer, modulo 2^64. -/
def wordOfInt (x : Int) : Word := BitVec.ofInt 64 x

/-- Number of set bits among the low `n` bits. -/
def popCount (x : Nat) : Nat → Nat
  | 0 => 0
  | n + 1 => x % 2 + popCount (x / 2) n

/-- Number of bits of a number: 0 for 0, else one more than its highest set bit. -/
def bitLen (x : Nat) : Nat := if x = 0 then 0 else Nat.log2 x + 1

/-- Least set bit below `n`, or `n` where none is set. -/
def trailZeros (x : Nat) : Nat → Nat
  | 0 => 0
  | n + 1 => if x % 2 = 1 then 0 else 1 + trailZeros (x / 2) n

/-- Round up to a multiple of `m`. -/
def roundUp (x m : Nat) : Nat := (x + m - 1) / m * m

/-- Quotient rounded up. -/
def ceilDiv (x m : Nat) : Nat := (x + m - 1) / m

/-- A value that saturates at its field's maximum. -/
def satTo (w x : Nat) : Nat := min x (2 ^ w - 1)

/-- The numbers `0 … n-1` that satisfy a test. -/
def indicesWhere (n : Nat) (p : Nat → Bool) : List Nat := (List.range n).filter p

/-- Insert a number into a rising list without repeats. -/
def insertNat (k : Nat) : List Nat → List Nat
  | [] => [k]
  | j :: l => if k = j then j :: l else if k < j then k :: j :: l else j :: insertNat k l

end Sys2Proof.Machine
end

