-- ==== Sys2Proof/Machine/RegTable.lean ====
section
/-!
DEFINITION. The registers of the spec's register tables, field by field: place, access code (R24), the values a
field takes without being a reserved encoding (R25), and the Reset column (R26). One constant per field, named
REGISTER_FIELD; one list of registers per space or page (R149, R678). A reserved encoding that depends on other
state is judged where the register is written (Machine/RegWrite.lean).
-/
namespace Sys2Proof.Machine

/-- The access codes of R24, the code RSV apart: a bit that no field covers is RSV. -/
inductive Access where
  | ro | rw | w1c | w1s | wo
  deriving DecidableEq, Repr

/-- Which values a field accepts (R25). -/
inductive Chk where
  | any
  | range (lo hi : Nat)
  | zeroOr (lo hi : Nat)
  | mult (m : Nat)
  | among (l : List Nat)
  deriving DecidableEq, Repr

/-- A field of a register: the register's address in its space or page, the field's lowest bit and its width. -/
structure Fld where
  reg : Nat
  lo : Nat
  width : Nat
  deriving DecidableEq, Repr

/-- What an engine reset does to a field (R26): a number in the Reset column (`no`), an entry "—" (`always`: the field is in the
always-on domain), or an entry P (`part`: bring-up loads it from part data, which hold what the field held). -/
inductive Keep where
  | no | always | part
  deriving DecidableEq, Repr

/-- A field with its access code, its accepted values, and its kind of Reset entry. -/
structure FSpec where
  fld : Fld
  acc : Access
  chk : Chk := .any
  keeps : Keep := .no
  deriving DecidableEq, Repr

/-- A register: its address, its fields, and its value after reset. -/
structure RegSpec where
  addr : Nat
  fields : List FSpec
  reset : Nat := 0
  deriving DecidableEq, Repr

/-- The same field of the register `n` addresses on, for registers that repeat. -/
def Fld.at (f : Fld) (n : Nat) : Fld := { f with reg := f.reg + n }

/-- Does a field accept a value? (R25) -/
def Chk.accepts : Chk → Nat → Bool
  | .any, _ => true
  | .range lo hi, v => lo ≤ v && v ≤ hi
  | .zeroOr lo hi, v => v == 0 || lo ≤ v && v ≤ hi
  | .mult m, v => v % m == 0
  | .among l, v => l.contains v

/-! ## Fields -/

namespace F

def ENGINE_INFO_GRADE : Fld := ⟨0x0, 0, 8⟩
def ENGINE_INFO_STEPPING : Fld := ⟨0x0, 8, 8⟩
def ENGINE_INFO_GRID_COLS : Fld := ⟨0x0, 16, 8⟩
def ENGINE_INFO_GRID_ROWS : Fld := ⟨0x0, 24, 8⟩
def ENGINE_INFO_VLEN_WORDS : Fld := ⟨0x0, 32, 8⟩
def ENGINE_INFO_TILE_TAGS : Fld := ⟨0x0, 40, 8⟩
def ENGINE_INFO_ARRAY_DIM : Fld := ⟨0x0, 48, 8⟩
def DUM_INFO_GENERATION : Fld := ⟨0x8, 0, 32⟩
def DUM_INFO_VACANT_BLOCKS : Fld := ⟨0x8, 32, 10⟩
def DUM_INFO_DEGRADED : Fld := ⟨0x8, 42, 1⟩
def DUM_INFO_PENDING : Fld := ⟨0x8, 43, 1⟩
def DUM_DIGEST_DIGEST : Fld := ⟨0x10, 0, 64⟩
def MAP_SEL_LI : Fld := ⟨0x30, 0, 7⟩
def MAP_SEL_LJ : Fld := ⟨0x30, 8, 7⟩
def MAP_RESULT_PQX : Fld := ⟨0x38, 0, 3⟩
def MAP_RESULT_PQY : Fld := ⟨0x38, 3, 3⟩
def MAP_RESULT_PBLOCK : Fld := ⟨0x38, 6, 4⟩
def MAP_RESULT_PTILE : Fld := ⟨0x38, 10, 4⟩
def MAP_RESULT_OFF_COL : Fld := ⟨0x38, 14, 6⟩
def MAP_RESULT_LBLOCK : Fld := ⟨0x38, 20, 4⟩
def MAP_RESULT_STATE : Fld := ⟨0x38, 24, 2⟩
def MAP_RESULT_Z31 : Fld := ⟨0x38, 26, 6⟩
def SPARE_STATUS_QUARTER_SPARE : Fld := ⟨0x40, 0, 6⟩
def SPARE_STATUS_BLOCK_SPARE : Fld := ⟨0x40, 6, 10⟩
def SPARE_STATUS_ARRAY_SPARE : Fld := ⟨0x40, 16, 14⟩
def SPARE_STATUS_LINK_SPARE : Fld := ⟨0x40, 30, 7⟩
def TIME_NOW_NS_NS : Fld := ⟨0x100, 0, 64⟩
def TILE_TIME_NOW_NS_NS : Fld := ⟨0x400, 0, 64⟩
def TIME_NOW_FRAC_FRAC : Fld := ⟨0x108, 0, 16⟩
def TIME_NOW_FRAC_NS_LOW : Fld := ⟨0x108, 16, 32⟩
def TILE_TIME_NOW_FRAC_FRAC : Fld := ⟨0x401, 0, 16⟩
def TILE_TIME_NOW_FRAC_NS_LOW : Fld := ⟨0x401, 16, 32⟩
def TIME_REF_CFG_PTP_EN : Fld := ⟨0x120, 0, 1⟩
def TIME_REF_CFG_PPS_EN : Fld := ⟨0x120, 1, 1⟩
def TIME_REF_CFG_F10_EN : Fld := ⟨0x120, 2, 1⟩
def TIME_REF_CFG_LINK_EN : Fld := ⟨0x120, 3, 1⟩
def TIME_REF_CFG_PTP_PRIO : Fld := ⟨0x120, 8, 2⟩
def TIME_REF_CFG_PPS_PRIO : Fld := ⟨0x120, 10, 2⟩
def TIME_REF_CFG_LINK_PRIO : Fld := ⟨0x120, 12, 2⟩
def TIME_REF_CFG_PPS_EDGE : Fld := ⟨0x120, 14, 1⟩
def TIME_REF_CFG_HOLD_LIMIT : Fld := ⟨0x120, 16, 5⟩
def TIME_REF_CFG_PTP_DOMAIN : Fld := ⟨0x120, 24, 8⟩
def TIME_REF_CFG_PTP_TRANSPORT : Fld := ⟨0x120, 32, 2⟩
def TIME_REF_DELAY_PPS_DELAY : Fld := ⟨0x128, 0, 16⟩
def TIME_REF_DELAY_PTP_ASYM : Fld := ⟨0x128, 16, 16⟩
def LINK_TIME_CFG_ROLE : Fld := ⟨0x18, 0, 2⟩
def LINK_TIME_CFG_ASYM : Fld := ⟨0x18, 8, 16⟩
def LINK_TIME_CFG_UP_PRIO : Fld := ⟨0x18, 24, 4⟩
def LINK_TIME_STAT_OFFSET : Fld := ⟨0x20, 0, 32⟩
def LINK_TIME_STAT_DELAY : Fld := ⟨0x20, 32, 16⟩
def LINK_TIME_STAT_BAD : Fld := ⟨0x20, 48, 1⟩
def LINK_TIME_STAT_PEER_STATE : Fld := ⟨0x20, 49, 2⟩
def LINK_TIME_STAT_PEER_HOPS : Fld := ⟨0x20, 51, 4⟩
def LINK_TIME_STAT_PEER_DOWN : Fld := ⟨0x20, 55, 1⟩
def TIME_CTL_SET : Fld := ⟨0x130, 0, 1⟩
def TIME_CTL_AT_PPS : Fld := ⟨0x130, 1, 1⟩
def TIME_CTL_STEP_OK : Fld := ⟨0x130, 2, 1⟩
def TIME_CTL_CANCEL : Fld := ⟨0x130, 3, 1⟩
def TIME_SET_NS_VALUE : Fld := ⟨0x138, 0, 64⟩
def TIME_STATE_STATE : Fld := ⟨0x110, 0, 2⟩
def TIME_STATE_SOURCE : Fld := ⟨0x110, 2, 2⟩
def TIME_STATE_FREQ_10M : Fld := ⟨0x110, 4, 1⟩
def TIME_STATE_WARM : Fld := ⟨0x110, 5, 1⟩
def TIME_STATE_PTP_ST : Fld := ⟨0x110, 8, 2⟩
def TIME_STATE_PPS_ST : Fld := ⟨0x110, 10, 2⟩
def TIME_STATE_F10_ST : Fld := ⟨0x110, 12, 2⟩
def TIME_STATE_LINK_ST : Fld := ⟨0x110, 14, 2⟩
def TIME_STATE_LINK_SEL : Fld := ⟨0x110, 16, 6⟩
def TIME_STATE_HOPS : Fld := ⟨0x110, 24, 4⟩
def TIME_STATE_STEP_PEND : Fld := ⟨0x110, 28, 1⟩
def TIME_STATE_STEPPED : Fld := ⟨0x110, 29, 1⟩
def TIME_STATE_GUARD_HIT : Fld := ⟨0x110, 30, 1⟩
def TIME_STATE_DROOP_OVER : Fld := ⟨0x110, 31, 1⟩
def TIME_STATE_REFUSED : Fld := ⟨0x110, 32, 1⟩
def TIME_STATE_HOLD_ROUNDS : Fld := ⟨0x110, 33, 5⟩
def TIME_STATE_SET_PEND : Fld := ⟨0x110, 38, 1⟩
def TIME_OFFSET_OFFSET : Fld := ⟨0x118, 0, 32⟩
def TIME_OFFSET_FREQ : Fld := ⟨0x118, 32, 24⟩
def TIME_OFFSET_UTC_OFS : Fld := ⟨0x118, 56, 8⟩
def CYCLE_COUNT_CYCLES : Fld := ⟨0x408, 0, 64⟩
def STRETCH_CYCLES_LOST : Fld := ⟨0x409, 0, 64⟩
def TIME_SLEEP_GAP_GAP : Fld := ⟨0x40a, 0, 64⟩
def TIME_SLEEP_LAST_LAST : Fld := ⟨0x40b, 0, 40⟩
def TIME_SLEEP_LAST_KIND : Fld := ⟨0x40b, 40, 3⟩
def CLK_EPOCH_BEAT : Fld := ⟨0x40c, 0, 56⟩
def CLK_EPOCH_MULT : Fld := ⟨0x40c, 56, 3⟩
def CLK_EPOCH_CYC_CYC : Fld := ⟨0x40d, 0, 64⟩
def TILE_STATUS_MODE : Fld := ⟨0x410, 0, 1⟩
def TILE_STATUS_FROZEN : Fld := ⟨0x410, 1, 3⟩
def TILE_STATUS_OPSTATE : Fld := ⟨0x410, 4, 2⟩
def TILE_STATUS_CTX_ID : Fld := ⟨0x410, 6, 6⟩
def TILE_STATUS_HOLD_LIVE : Fld := ⟨0x410, 12, 1⟩
def TILE_STATUS_DOUBLE : Fld := ⟨0x410, 13, 1⟩
def TILE_STATUS_STAMP_LATE_SEEN : Fld := ⟨0x410, 14, 1⟩
def TILE_STATUS_PRED_OFF : Fld := ⟨0x410, 15, 1⟩
def TILE_STATUS_FENCE_PEND : Fld := ⟨0x410, 16, 1⟩
def TILE_ID_LI : Fld := ⟨0x411, 0, 7⟩
def TILE_ID_LJ : Fld := ⟨0x411, 8, 7⟩
def TILE_ID_INDEX : Fld := ⟨0x411, 15, 14⟩
def TILE_CFG_SPEC_EN : Fld := ⟨0x810, 0, 1⟩
def TILE_CFG_STAMP_LATE : Fld := ⟨0x810, 1, 1⟩
def TILE_CFG_TWAIT_MAX : Fld := ⟨0x810, 4, 12⟩
def EXC_CAUSE_CODE : Fld := ⟨0x800, 0, 8⟩
def EXC_CAUSE_QUEUE : Fld := ⟨0x800, 8, 3⟩
def EXC_CAUSE_ASYNC : Fld := ⟨0x800, 11, 1⟩
def EXC_CAUSE_SUB : Fld := ⟨0x800, 12, 4⟩
def EXC_CAUSE_DISCARD : Fld := ⟨0x800, 16, 1⟩
def EXC_PC_PC : Fld := ⟨0x801, 2, 62⟩
def EXC_QPC_QPC : Fld := ⟨0x802, 0, 64⟩
def EXC_INFO_INFO : Fld := ⟨0x803, 0, 64⟩
def EXC_VEC_VEC : Fld := ⟨0x804, 2, 62⟩
def EXC_SAVE0_SAVE : Fld := ⟨0x805, 0, 64⟩
def EXC_SAVE1_SAVE : Fld := ⟨0x806, 0, 64⟩
def TILE_CFG_REJECT_SET : Fld := ⟨0x3ff, 0, 1⟩
def TILE_CFG_REJECT_MULTI : Fld := ⟨0x3ff, 1, 1⟩
def TILE_CFG_REJECT_ADDR : Fld := ⟨0x3ff, 2, 12⟩
def TILE_CFG_REJECT_SRC : Fld := ⟨0x3ff, 14, 2⟩
def CFG_REJECT_SET : Fld := ⟨0x48, 0, 1⟩
def CFG_REJECT_MULTI : Fld := ⟨0x48, 1, 1⟩
def CFG_REJECT_ADDR : Fld := ⟨0x48, 2, 12⟩
def CFG_REJECT_SRC : Fld := ⟨0x48, 14, 2⟩
def MFLAGS_INVALID : Fld := ⟨0x0, 0, 1⟩
def MFLAGS_DIVZERO : Fld := ⟨0x0, 1, 1⟩
def MFLAGS_OVERFLOW : Fld := ⟨0x0, 2, 1⟩
def MFLAGS_UNDERFLOW : Fld := ⟨0x0, 3, 1⟩
def MFLAGS_INEXACT : Fld := ⟨0x0, 4, 1⟩
def VFLAGS_INVALID : Fld := ⟨0x1, 0, 1⟩
def VFLAGS_DIVZERO : Fld := ⟨0x1, 1, 1⟩
def VFLAGS_OVERFLOW : Fld := ⟨0x1, 2, 1⟩
def VFLAGS_UNDERFLOW : Fld := ⟨0x1, 3, 1⟩
def VFLAGS_INEXACT : Fld := ⟨0x1, 4, 1⟩
def SFLAGS_INVALID : Fld := ⟨0x2, 0, 1⟩
def SFLAGS_DIVZERO : Fld := ⟨0x2, 1, 1⟩
def SFLAGS_OVERFLOW : Fld := ⟨0x2, 2, 1⟩
def SFLAGS_UNDERFLOW : Fld := ⟨0x2, 3, 1⟩
def SFLAGS_INEXACT : Fld := ⟨0x2, 4, 1⟩
def SFLAGS_RANGE : Fld := ⟨0x2, 5, 1⟩
def MSTATUS_BUSY : Fld := ⟨0x4, 0, 1⟩
def MSTATUS_SETTLED : Fld := ⟨0x4, 1, 1⟩
def MSTATUS_SPECIAL : Fld := ⟨0x4, 2, 1⟩
def MSTATUS_POISON : Fld := ⟨0x4, 3, 1⟩
def MSTATUS_SHAPE : Fld := ⟨0x4, 4, 3⟩
def MSTATUS_MOMENTS : Fld := ⟨0x4, 7, 1⟩
def MOP_CYCLES_CYCLES : Fld := ⟨0x5, 0, 40⟩
def MOP_SPREAD_STALLS : Fld := ⟨0x6, 0, 32⟩
def MOP_SPREAD_STEPS : Fld := ⟨0x6, 32, 32⟩
def MMOM_N_N : Fld := ⟨0x7, 0, 48⟩
def CHAIN_CFGA_LFMT : Fld := ⟨0x30, 0, 4⟩
def CHAIN_CFGA_AFMT : Fld := ⟨0x30, 4, 4⟩
def CHAIN_CFGA_QFMT : Fld := ⟨0x30, 8, 4⟩
def CHAIN_CFGA_LMX : Fld := ⟨0x30, 12, 1⟩
def CHAIN_CFGA_QMX : Fld := ⟨0x30, 13, 1⟩
def CHAIN_CFGA_SCL : Fld := ⟨0x30, 14, 3⟩
def CHAIN_CFGA_FMA : Fld := ⟨0x30, 17, 3⟩
def CHAIN_CFGA_FUNC : Fld := ⟨0x30, 20, 4⟩
def CHAIN_CFGA_CMP : Fld := ⟨0x30, 24, 3⟩
def CHAIN_CFGA_SEL : Fld := ⟨0x30, 27, 2⟩
def CHAIN_CFGA_ARMODE : Fld := ⟨0x30, 29, 3⟩
def CHAIN_CFGA_QRMODE : Fld := ⟨0x30, 32, 3⟩
def CHAIN_CFGA_QSAT : Fld := ⟨0x30, 35, 1⟩
def CHAIN_CFGA_ASAT : Fld := ⟨0x30, 36, 1⟩
def CHAIN_CFGA_RED : Fld := ⟨0x30, 37, 3⟩
def CHAIN_CFGA_RTAP : Fld := ⟨0x30, 40, 1⟩
def CHAIN_CFGA_LFXP : Fld := ⟨0x30, 48, 8⟩
def CHAIN_CFGA_QFXP : Fld := ⟨0x30, 56, 8⟩
def CHAIN_CFGB_LSCALE : Fld := ⟨0x31, 0, 22⟩
def CHAIN_CFGB_QSCALE : Fld := ⟨0x31, 22, 22⟩
def CHAIN_CFGB_AFXP : Fld := ⟨0x31, 44, 8⟩
def VRES_ELEM : Fld := ⟨0x3, 0, 10⟩
def VRES_VALID : Fld := ⟨0x3, 10, 1⟩
def VRES_RESTART : Fld := ⟨0x3, 11, 1⟩
def VTYPE_VL : Fld := ⟨0x20, 0, 10⟩
def VTYPE_FMT : Fld := ⟨0x20, 10, 4⟩
def VTYPE_RMODE : Fld := ⟨0x20, 14, 3⟩
def VTYPE_SAT : Fld := ⟨0x20, 17, 1⟩
def VTYPE_MZ : Fld := ⟨0x20, 18, 1⟩
def VTYPE_TAN : Fld := ⟨0x20, 19, 1⟩
def VTYPE_FXP : Fld := ⟨0x20, 20, 8⟩
def VSTATUS_BUSY : Fld := ⟨0x21, 0, 1⟩
def VSTATUS_ROOT0_SETTLED : Fld := ⟨0x21, 1, 1⟩
def VSTATUS_ROOT1_SETTLED : Fld := ⟨0x21, 2, 1⟩
def VSTATUS_ROOT0_KIND : Fld := ⟨0x21, 3, 2⟩
def VSTATUS_ROOT1_KIND : Fld := ⟨0x21, 5, 2⟩
def VSTATUS_ROOT0_SPECIAL : Fld := ⟨0x21, 7, 1⟩
def VSTATUS_ROOT1_SPECIAL : Fld := ⟨0x21, 8, 1⟩
def VSTATUS_SOLVER_OWNED : Fld := ⟨0x21, 9, 1⟩
def VOP_CYCLES_CYCLES : Fld := ⟨0x22, 0, 40⟩
def VOP_STALLS_SPREAD : Fld := ⟨0x23, 0, 32⟩
def VOP_STALLS_BANK : Fld := ⟨0x23, 32, 32⟩
def VGEN_KEY_KEY : Fld := ⟨0x24, 0, 64⟩
def VGEN_STREAM_STREAM : Fld := ⟨0x25, 0, 32⟩
def VGEN_POS_C_POS : Fld := ⟨0x26, 0, 64⟩
def VGEN_POS_M_POS : Fld := ⟨0x27, 0, 64⟩
def GATH_CFG_SLOTS_G0 : Fld := ⟨0x28, 0, 7⟩
def GATH_CFG_SLOTS_G1 : Fld := ⟨0x28, 8, 7⟩
def GATH_STATUS_BUSY_G0 : Fld := ⟨0x29, 0, 1⟩
def GATH_STATUS_BUSY_G1 : Fld := ⟨0x29, 1, 1⟩
def GATH_STATUS_LEFT_G0 : Fld := ⟨0x29, 2, 21⟩
def GATH_STATUS_LEFT_G1 : Fld := ⟨0x29, 23, 21⟩
def TPROG_EPI_PROG : Fld := ⟨0x40, 0, 22⟩
def TPROG_EPI_EN : Fld := ⟨0x40, 22, 1⟩
def TPROG_EPI_FRAME : Fld := ⟨0x40, 24, 22⟩
def TPROG_WIN_BASE : Fld := ⟨0x41, 0, 22⟩
def TPROG_WIN_SIZE : Fld := ⟨0x41, 24, 22⟩
def TPROG_STATUS_RUN : Fld := ⟨0x42, 0, 1⟩
def TPROG_STATUS_HELD : Fld := ⟨0x42, 1, 1⟩
def TPROG_STATUS_EPI : Fld := ⟨0x42, 2, 1⟩
def TPROG_STATUS_ADDR_ERR : Fld := ⟨0x42, 3, 1⟩
def TPROG_STATUS_POISON : Fld := ⟨0x42, 4, 1⟩
def TPROG_STATUS_CHECKED_EPI : Fld := ⟨0x42, 5, 1⟩
def TPROG_STATUS_CHECKED_TP : Fld := ⟨0x42, 6, 1⟩
def TPROG_STATUS_CHECK_AT : Fld := ⟨0x42, 8, 22⟩
def TPROG_STATUS_ERR_AT : Fld := ⟨0x42, 30, 22⟩
def TPROG_RUNS_RUNS : Fld := ⟨0x43, 0, 32⟩
def TPROG_RUNS_LAST_HOLD : Fld := ⟨0x43, 32, 32⟩
def TPROG_CYCLES_CYCLES : Fld := ⟨0x44, 0, 40⟩
def SOLV_BASE_BASE : Fld := ⟨0x80, 0, 22⟩
def SOLV_REGION_BASE : Fld := ⟨0x81, 0, 22⟩
def SOLV_REGION_SIZE : Fld := ⟨0x81, 24, 22⟩
def SOLV_READY_READY : Fld := ⟨0x82, 0, 64⟩
def SOLV_RES_SLOT : Fld := ⟨0x83, 0, 6⟩
def SOLV_RES_VALID : Fld := ⟨0x83, 6, 1⟩
def SOLV_RES_OUTER : Fld := ⟨0x83, 7, 8⟩
def SOLV_STATUS_BUSY : Fld := ⟨0x84, 0, 1⟩
def SOLV_STATUS_SLOT : Fld := ⟨0x84, 1, 6⟩
def SOLV_STATUS_REFRESH : Fld := ⟨0x84, 7, 1⟩
def SOLV_STATUS_METHOD : Fld := ⟨0x84, 8, 3⟩
def SOLV_STATUS_DIR : Fld := ⟨0x84, 11, 1⟩
def SOLV_CYCLES_CYCLES : Fld := ⟨0x85, 0, 40⟩
def SOLV_RUNS_SOLVES : Fld := ⟨0x86, 0, 32⟩
def SOLV_RUNS_TRAPS : Fld := ⟨0x86, 32, 16⟩
def CTX_TRAIN_CFG_WAIT_MODE : Fld := ⟨0x20, 0, 1⟩
def CTX_TRAIN_CFG_ALT_QMASK : Fld := ⟨0x20, 8, 8⟩
def CTX_TRAIN_CFG_MIN_GAP : Fld := ⟨0x20, 16, 12⟩
def CTX_IDLE_0_PEER : Fld := ⟨0x28, 0, 32⟩
def CTX_IDLE_0_COLL : Fld := ⟨0x28, 32, 32⟩
def CTX_IDLE_1_COVERED : Fld := ⟨0x30, 0, 32⟩
def CTX_IDLE_1_LAG : Fld := ⟨0x30, 32, 32⟩
def MV_PEND0_PEND : Fld := ⟨0xc0, 0, 64⟩
def MV_PEND1_PEND : Fld := ⟨0xc1, 0, 64⟩
def MV_ERRQ_CFG_BASE : Fld := ⟨0xc2, 0, 22⟩
def MV_ERRQ_CFG_SIZE : Fld := ⟨0xc2, 24, 4⟩
def MV_ERRQ_PTR_TAIL : Fld := ⟨0xc3, 0, 13⟩
def MV_ERRQ_PTR_HEAD : Fld := ⟨0xc3, 16, 13⟩
def MV_ERRQ_PTR_FULL : Fld := ⟨0xc3, 32, 1⟩
def MV_ERRQ_PTR_LOST : Fld := ⟨0xc3, 34, 16⟩
def DMA_CFG_CHUNKS : Fld := ⟨0xc4, 0, 7⟩
def MEM_CLASS_CFG_FLOOR_N : Fld := ⟨0x0, 0, 6⟩
def MEM_CLASS_CFG_FLOOR_W : Fld := ⟨0x0, 8, 6⟩
def MEM_CLASS_CFG_FLOOR_B : Fld := ⟨0x0, 16, 6⟩
def MEM_CLASS_CFG_WM_HI : Fld := ⟨0x0, 24, 8⟩
def MEM_CLASS_CFG_WM_LO : Fld := ⟨0x0, 32, 8⟩
def MEM_SCRUB_CFG_PASS_HOURS : Fld := ⟨0x8, 0, 8⟩
def MEM_SCRUB_CFG_EN : Fld := ⟨0x8, 8, 1⟩
def MEM_SCRUB_CFG_WRITEBACK : Fld := ⟨0x8, 9, 1⟩
def MEM_SCRUB_CFG_NOW : Fld := ⟨0x8, 10, 1⟩
def MEM_STATUS_HOT : Fld := ⟨0x10, 0, 1⟩
def MEM_STATUS_FILLING : Fld := ⟨0x10, 1, 1⟩
def MEM_STATUS_DEGRADED : Fld := ⟨0x10, 2, 1⟩
def MEM_STATUS_RETIRE : Fld := ⟨0x10, 3, 1⟩
def MEM_STATUS_ROWS_LEFT : Fld := ⟨0x10, 4, 18⟩
def MEM_STATUS_BONDS_LEFT : Fld := ⟨0x10, 22, 9⟩
def MEM_ERR_CNT_CE : Fld := ⟨0x18, 0, 24⟩
def MEM_ERR_CNT_UE : Fld := ⟨0x18, 24, 16⟩
def MEM_ERR_CNT_ONDIE : Fld := ⟨0x18, 40, 24⟩
def MEM_ERR_LOG_ADDR : Fld := ⟨0x20, 0, 48⟩
def MEM_ERR_LOG_SRC : Fld := ⟨0x20, 48, 2⟩
def MEM_ERR_LOG_VALID : Fld := ⟨0x20, 50, 1⟩
def MEM_ERR_LOG_MULTI : Fld := ⟨0x20, 51, 1⟩
def MV_TT_STAT_BOUND : Fld := ⟨0xe0, 0, 32⟩
def MV_TT_STAT_UNBOUND : Fld := ⟨0xe0, 32, 16⟩
def MV_TT_STAT_UNBOUND_SEEN : Fld := ⟨0xe0, 48, 1⟩
def MV_LATE_NOTES : Fld := ⟨0xe1, 0, 16⟩
def MV_LATE_LATES : Fld := ⟨0xe1, 16, 16⟩
def MV_LATE_DOWNS : Fld := ⟨0xe1, 32, 16⟩
def MV_LATE_SEEN : Fld := ⟨0xe1, 48, 1⟩
def NET_CFG_HORIZON : Fld := ⟨0x300, 0, 16⟩
def LINK_CFG_EN : Fld := ⟨0x0, 0, 1⟩
def LINK_CFG_RETRAIN : Fld := ⟨0x0, 1, 1⟩
def LINK_CFG_CLR_CNT : Fld := ⟨0x0, 2, 1⟩
def LINK_CFG_HORIZON : Fld := ⟨0x0, 8, 16⟩
def LINK_CFG_LANE_LIMIT : Fld := ⟨0x0, 24, 12⟩
def LINK_STATUS_STATE : Fld := ⟨0x8, 0, 3⟩
def LINK_STATUS_OFF_LANE : Fld := ⟨0x8, 3, 4⟩
def LINK_STATUS_SPARE_USED : Fld := ⟨0x8, 7, 1⟩
def LINK_STATUS_FAILED2 : Fld := ⟨0x8, 8, 1⟩
def LINK_STATUS_RD : Fld := ⟨0x8, 9, 6⟩
def LINK_STATUS_LINK_BEATS : Fld := ⟨0x8, 15, 5⟩
def LINK_STATUS_SWAP_PEND : Fld := ⟨0x8, 20, 1⟩
def LINK_STATUS_CNT_SAT : Fld := ⟨0x8, 21, 1⟩
def LINK_ERR_CNT_UNCORR : Fld := ⟨0x10, 0, 16⟩
def LINK_ERR_CNT_RETRANS : Fld := ⟨0x10, 16, 16⟩
def LINK_ERR_CNT_REFUSED : Fld := ⟨0x10, 32, 16⟩
def LINK_ERR_CNT_DROPPED : Fld := ⟨0x10, 48, 16⟩
def LANE_CNT_CORR : Fld := ⟨0x40, 0, 32⟩
def LANE_CNT_LAST_ROUND : Fld := ⟨0x40, 32, 16⟩
def LANE_CNT_FAILED : Fld := ⟨0x40, 48, 1⟩
def LANE_CNT_LOCK : Fld := ⟨0x40, 49, 1⟩
def HALL_COORD_X : Fld := ⟨0x310, 0, 5⟩
def HALL_COORD_Y : Fld := ⟨0x310, 5, 5⟩
def HALL_COORD_Z : Fld := ⟨0x310, 10, 5⟩
def HALL_COORD_W : Fld := ⟨0x310, 15, 5⟩
def LINK_AXIS_AXIS : Fld := ⟨0x28, 0, 3⟩
def LINK_AXIS_DIR : Fld := ⟨0x28, 3, 1⟩
def GRP_CTRL_VALID : Fld := ⟨0x0, 0, 1⟩
def GRP_CTRL_PART : Fld := ⟨0x0, 1, 4⟩
def GRP_CTRL_AXES : Fld := ⟨0x0, 5, 4⟩
def GRP_HALL_X_LO : Fld := ⟨0x8, 0, 5⟩
def GRP_HALL_X_N : Fld := ⟨0x8, 5, 6⟩
def GRP_HALL_Y_LO : Fld := ⟨0x8, 11, 5⟩
def GRP_HALL_Y_N : Fld := ⟨0x8, 16, 6⟩
def GRP_HALL_Z_LO : Fld := ⟨0x8, 22, 5⟩
def GRP_HALL_Z_N : Fld := ⟨0x8, 27, 6⟩
def GRP_HALL_W_LO : Fld := ⟨0x8, 33, 5⟩
def GRP_HALL_W_N : Fld := ⟨0x8, 38, 6⟩
def GRP_STAGE_HALL_X_LO : Fld := ⟨0x328, 0, 5⟩
def GRP_STAGE_HALL_X_N : Fld := ⟨0x328, 5, 6⟩
def GRP_STAGE_HALL_Y_LO : Fld := ⟨0x328, 11, 5⟩
def GRP_STAGE_HALL_Y_N : Fld := ⟨0x328, 16, 6⟩
def GRP_STAGE_HALL_Z_LO : Fld := ⟨0x328, 22, 5⟩
def GRP_STAGE_HALL_Z_N : Fld := ⟨0x328, 27, 6⟩
def GRP_STAGE_HALL_W_LO : Fld := ⟨0x328, 33, 5⟩
def GRP_STAGE_HALL_W_N : Fld := ⟨0x328, 38, 6⟩
def GRP_WAFER_I_LO : Fld := ⟨0x10, 0, 7⟩
def GRP_WAFER_I_N : Fld := ⟨0x10, 7, 7⟩
def GRP_WAFER_I_ST : Fld := ⟨0x10, 14, 4⟩
def GRP_WAFER_J_LO : Fld := ⟨0x10, 18, 7⟩
def GRP_WAFER_J_N : Fld := ⟨0x10, 25, 7⟩
def GRP_WAFER_J_ST : Fld := ⟨0x10, 32, 4⟩
def GRP_STATUS_EPOCH : Fld := ⟨0x30, 0, 16⟩
def GRP_STATUS_NEXT_CSEQ : Fld := ⟨0x30, 16, 24⟩
def GRP_STATUS_PEND : Fld := ⟨0x30, 40, 1⟩
def GRP_STATUS_CHG_REFUSED : Fld := ⟨0x30, 41, 1⟩
def GRP_CHG_GROUP : Fld := ⟨0x318, 0, 8⟩
def GRP_CHG_GO : Fld := ⟨0x318, 8, 1⟩
def GRP_CHG_AT_ROUND : Fld := ⟨0x320, 0, 44⟩
def PART_RECT_X_LO : Fld := ⟨0x0, 0, 5⟩
def PART_RECT_X_N : Fld := ⟨0x0, 5, 5⟩
def PART_RECT_Y_LO : Fld := ⟨0x0, 10, 5⟩
def PART_RECT_Y_N : Fld := ⟨0x0, 15, 5⟩
def PART_CTL_CMD : Fld := ⟨0x8, 0, 2⟩
def PART_STATUS_STATE : Fld := ⟨0x10, 0, 2⟩
def PART_STATUS_REFUSE : Fld := ⟨0x10, 2, 4⟩
def PART_STATUS_REFUSED : Fld := ⟨0x10, 6, 1⟩
def PART_STATUS_SUSP : Fld := ⟨0x10, 7, 1⟩
def PART_STATUS_LIVE : Fld := ⟨0x10, 8, 9⟩
def PART_STATUS_PART_SEQ : Fld := ⟨0x10, 17, 32⟩
def PART_CFG_STRICT : Fld := ⟨0x18, 0, 1⟩
def ADM_ADDR_ADDR : Fld := ⟨0x20, 0, 64⟩
def ADM_CTL_OP : Fld := ⟨0x28, 0, 2⟩
def ADM_CTL_TT_ID : Fld := ⟨0x28, 2, 8⟩
def ADM_STATUS_BUSY : Fld := ⟨0x30, 0, 1⟩
def ADM_STATUS_RESULT : Fld := ⟨0x30, 1, 4⟩
def ADM_STATUS_TT_ID : Fld := ⟨0x30, 5, 8⟩
def ADM_STATUS_ENTRY : Fld := ⟨0x30, 13, 17⟩
def ADM_STATUS_SEQ : Fld := ⟨0x30, 30, 32⟩
def ADM_SHARE_SHARE_WAFER : Fld := ⟨0x308, 0, 5⟩
def ADM_SHARE_SHARE_MEM : Fld := ⟨0x308, 5, 5⟩
def ADM_SHARE_SHARE_LINK : Fld := ⟨0x308, 10, 5⟩
def LINK_OWNER_PARTS : Fld := ⟨0x30, 0, 16⟩
def CTX_CFG_VALID : Fld := ⟨0x0, 0, 1⟩
def CTX_CFG_PART : Fld := ⟨0x0, 1, 4⟩
def CTX_CFG_QUEUES : Fld := ⟨0x0, 5, 3⟩
def CTX_QUOTA_MEM : Fld := ⟨0x8, 0, 24⟩
def CTX_QUOTA_TT : Fld := ⟨0x8, 24, 24⟩
def CTX_USE_MEM_USED : Fld := ⟨0x10, 0, 24⟩
def CTX_USE_TT_USED : Fld := ⟨0x10, 24, 24⟩
def CTX_USE_OVER_MEM : Fld := ⟨0x10, 48, 1⟩
def CTX_USE_OVER_TT : Fld := ⟨0x10, 49, 1⟩
def CTX_FENCE_FENCE : Fld := ⟨0x18, 0, 1⟩
def CTX_FENCE_RESET : Fld := ⟨0x18, 1, 1⟩
def CTX_FENCE_FENCED : Fld := ⟨0x18, 2, 1⟩
def CTX_FENCE_QUIESCED : Fld := ⟨0x18, 3, 1⟩
def CTX_FENCE_RESETTING : Fld := ⟨0x18, 4, 1⟩
def CTX_FENCE_SUSPECT : Fld := ⟨0x18, 5, 1⟩
def CTX_FENCE_GUILTY : Fld := ⟨0x18, 6, 1⟩
def CTX_FENCE_CAUSE : Fld := ⟨0x18, 8, 4⟩
def CTX_FENCE_GEN : Fld := ⟨0x18, 12, 16⟩
def CAPT_CFG_EN : Fld := ⟨0x228, 0, 1⟩
def CAPT_CFG_ADDR : Fld := ⟨0x228, 22, 42⟩
def CAPT_STATUS_SEQ : Fld := ⟨0x230, 0, 32⟩
def CAPT_STATUS_NEXT : Fld := ⟨0x230, 32, 3⟩
def CAPT_STATUS_FAIL : Fld := ⟨0x230, 35, 1⟩
def BADGER_LIMIT_QUEUE_BEATS : Fld := ⟨0x38, 0, 16⟩
def BADGER_LIMIT_CMD_ROUNDS : Fld := ⟨0x38, 16, 16⟩
def BADGER_LIMIT_EN : Fld := ⟨0x38, 32, 1⟩
def BADGER_LIMIT_ACTION : Fld := ⟨0x38, 33, 1⟩
def BADGER_STATUS_HUNG : Fld := ⟨0x40, 0, 1⟩
def BADGER_STATUS_MULTI : Fld := ⟨0x40, 1, 1⟩
def BADGER_STATUS_KIND : Fld := ⟨0x40, 2, 1⟩
def BADGER_STATUS_QUEUE : Fld := ⟨0x40, 3, 3⟩
def BADGER_STATUS_CTX : Fld := ⟨0x40, 6, 6⟩
def BADGER_STATUS_TILE : Fld := ⟨0x40, 12, 14⟩
def RECOV_CTL_RESET : Fld := ⟨0x48, 0, 1⟩
def RECOV_CTL_SOLO_EN : Fld := ⟨0x48, 1, 1⟩
def RECOV_CTL_SOLO_CTX : Fld := ⟨0x48, 2, 6⟩
def RECOV_CTL_TRESET : Fld := ⟨0x48, 8, 1⟩
def RECOV_CTL_TILE : Fld := ⟨0x48, 9, 14⟩
def RECOV_STATUS_STEP : Fld := ⟨0x50, 0, 3⟩
def RECOV_STATUS_VACATED : Fld := ⟨0x50, 3, 1⟩
def RECOV_STATUS_ESCALATED : Fld := ⟨0x50, 4, 1⟩
def RECOV_STATUS_LAST_US : Fld := ⟨0x50, 5, 20⟩
def RECOV_STATUS_LATE_DISCARDS : Fld := ⟨0x50, 25, 16⟩
def RECOV_CFG_DRAIN_BEATS : Fld := ⟨0x208, 0, 11⟩
def RECOV_CFG_AUTO_ESC : Fld := ⟨0x208, 11, 1⟩
def RECOV_CFG_AUTO_CYCLE : Fld := ⟨0x208, 12, 1⟩
def ENGINE_RESET_KEY : Fld := ⟨0x210, 0, 16⟩
def ENGINE_RESET_CYCLE : Fld := ⟨0x210, 16, 1⟩
def RESET_LOG_KIND : Fld := ⟨0x218, 0, 3⟩
def RESET_LOG_HOST_LOST : Fld := ⟨0x218, 3, 1⟩
def RESET_LOG_CAUSE : Fld := ⟨0x218, 4, 4⟩
def RESET_TIME_NS : Fld := ⟨0x220, 0, 64⟩
def PROV_CACHE_EN : Fld := ⟨0x58, 0, 1⟩
def PROV_CACHE_CLEAR : Fld := ⟨0x58, 1, 1⟩
def PROV_CACHE_VALID : Fld := ⟨0x58, 8, 9⟩
def PROV_CACHE_HITS : Fld := ⟨0x58, 17, 31⟩
def SLEEPCFG_STATE : Fld := ⟨0x820, 0, 2⟩
def SLEEPCFG_SETT0 : Fld := ⟨0x820, 8, 1⟩
def SLEEPCFG_SETT : Fld := ⟨0x820, 9, 7⟩
def SLEEPCFG_ALARM_EN : Fld := ⟨0x820, 16, 1⟩
def DOZE_CFG_IDLE_CYCLES : Fld := ⟨0x821, 0, 16⟩
def WAKE_SOURCE_SOURCE : Fld := ⟨0x822, 0, 4⟩
def WAKE_SOURCE_STATE : Fld := ⟨0x822, 4, 2⟩
def WAKE_SOURCE_CAUSE : Fld := ⟨0x822, 6, 4⟩
def WAKE_SOURCE_UNIT : Fld := ⟨0x822, 10, 10⟩
def PART_WAKE_SOURCE_SOURCE : Fld := ⟨0x80, 0, 4⟩
def PART_WAKE_SOURCE_STATE : Fld := ⟨0x80, 4, 2⟩
def PART_WAKE_SOURCE_CAUSE : Fld := ⟨0x80, 6, 4⟩
def PART_WAKE_SOURCE_UNIT : Fld := ⟨0x80, 10, 10⟩
def DEN_WAKE_AT_BEAT : Fld := ⟨0x823, 0, 56⟩
def HIB_WAKE_AT_BEAT : Fld := ⟨0x78, 0, 56⟩
def PAD_RELEASE_REL : Fld := ⟨0x824, 0, 1⟩
def PAD_RELEASE_HELD : Fld := ⟨0x824, 1, 1⟩
def PART_PAD_RELEASE_REL : Fld := ⟨0x88, 0, 1⟩
def PART_PAD_RELEASE_HELD : Fld := ⟨0x88, 1, 1⟩
def PWR_PLVL_TARGET : Fld := ⟨0x200, 0, 2⟩
def PWR_PLVL_CURRENT : Fld := ⟨0x200, 2, 2⟩
def PWR_PLVL_PEND : Fld := ⟨0x200, 4, 1⟩
def PWR_PLVL_REFUSED : Fld := ⟨0x200, 5, 1⟩
def PWR_PLVL_REASON : Fld := ⟨0x200, 6, 3⟩
def PWR_PLVL_AT_ROUND : Fld := ⟨0x200, 9, 44⟩
def HIB_CTL_CMD : Fld := ⟨0x60, 0, 2⟩
def HIB_CFG_LAYERS : Fld := ⟨0x68, 0, 12⟩
def HIB_CFG_ALARM_EN : Fld := ⟨0x68, 12, 1⟩
def HIB_STATUS_PHASE : Fld := ⟨0x70, 0, 3⟩
def HIB_STATUS_REFUSE : Fld := ⟨0x70, 3, 4⟩
def HIB_STATUS_REFUSED : Fld := ⟨0x70, 7, 1⟩
def HIB_STATUS_ABORTED : Fld := ⟨0x70, 8, 1⟩
def HIB_STATUS_WAKE_FAIL : Fld := ⟨0x70, 9, 1⟩
def HIB_STATUS_RETAINED : Fld := ⟨0x70, 10, 12⟩
def HIB_STATUS_LAST_WAKE_US : Fld := ⟨0x70, 22, 20⟩
def SAMPLE_CFG_EN : Fld := ⟨0x470, 0, 1⟩
def SAMPLE_CFG_USER : Fld := ⟨0x470, 1, 1⟩
def SAMPLE_CFG_EVENT : Fld := ⟨0x470, 2, 6⟩
def SAMPLE_CFG_PERIOD : Fld := ⟨0x470, 8, 32⟩
def SAMPLE_STATUS_LEFT : Fld := ⟨0x471, 0, 32⟩
def SAMPLE_STATUS_SKID : Fld := ⟨0x471, 32, 3⟩
def SAMPLE_STATUS_LOST : Fld := ⟨0x471, 35, 16⟩
def SAMPLE_STATUS_LOST_SEEN : Fld := ⟨0x471, 51, 1⟩
def FOX_SAMPLE_PC : Fld := ⟨0x472, 0, 64⟩
def FOX_DUMP_BASE_OFFSET : Fld := ⟨0x90, 0, 45⟩
def FOX_DUMP_BASE_SLOTS : Fld := ⟨0x90, 48, 8⟩
def FOX_DUMP_PERIOD_BEATS : Fld := ⟨0x98, 0, 24⟩
def FOX_LATCH_AT_NS : Fld := ⟨0xa0, 0, 64⟩
def FOX_RING_PTR_TAIL : Fld := ⟨0xa8, 0, 32⟩
def FOX_RING_PTR_HEAD : Fld := ⟨0xa8, 32, 32⟩
def FOX_STATUS_BUSY : Fld := ⟨0xb0, 0, 1⟩
def FOX_STATUS_ARMED : Fld := ⟨0xb0, 1, 1⟩
def FOX_STATUS_SKIP_SEEN : Fld := ⟨0xb0, 2, 1⟩
def FOX_STATUS_SKIPPED : Fld := ⟨0xb0, 3, 32⟩
def DBG_CTL_HALT : Fld := ⟨0xc00, 0, 1⟩
def DBG_CTL_RESUME : Fld := ⟨0xc00, 1, 1⟩
def DBG_CTL_STEP : Fld := ⟨0xc00, 2, 1⟩
def DBG_CTL_STEP_MASK : Fld := ⟨0xc00, 3, 1⟩
def DBG_CTL_BRK_EN : Fld := ⟨0xc00, 4, 4⟩
def DBG_STATUS_HALTED : Fld := ⟨0xc01, 0, 1⟩
def DBG_STATUS_STOPPING : Fld := ⟨0xc01, 1, 1⟩
def DBG_STATUS_HALT_WHY : Fld := ⟨0xc01, 2, 3⟩
def DBG_STATUS_DEFERRED : Fld := ⟨0xc01, 5, 1⟩
def DBG_STATUS_WAITS : Fld := ⟨0xc01, 6, 16⟩
def DBG_PC_PC : Fld := ⟨0xc02, 0, 22⟩
def DBG_BRK_ADDR : Fld := ⟨0xc04, 0, 22⟩
def DBG_BRK_USER_ONLY : Fld := ⟨0xc04, 22, 1⟩
def DBG_PART_CTL_OP : Fld := ⟨0xb8, 0, 2⟩
def DBG_PART_CTL_ARMED : Fld := ⟨0xb8, 2, 1⟩
def DBG_PART_AT_NS : Fld := ⟨0xc0, 0, 64⟩
def TRACE_CFG_TILE : Fld := ⟨0x400, 0, 14⟩
def TRACE_CFG_EN : Fld := ⟨0x400, 14, 1⟩
def TRACE_CFG_EVT : Fld := ⟨0x400, 15, 2⟩
def TRACE_STATUS_COUNT : Fld := ⟨0x408, 0, 15⟩
def TRACE_STATUS_DROPPED : Fld := ⟨0x408, 15, 32⟩
def TRACE_STATUS_DROP_SEEN : Fld := ⟨0x408, 47, 1⟩
def TRACE_DATA0_W0 : Fld := ⟨0x410, 0, 64⟩
def TRACE_DATA1_W1 : Fld := ⟨0x418, 0, 64⟩
def DBG_CONFLICT_TRACE_PINS : Fld := ⟨0x420, 0, 1⟩
def DBG_CONFLICT_EVT_PIN : Fld := ⟨0x420, 1, 1⟩
def DBG_CONFLICT_TSTORE : Fld := ⟨0x420, 2, 1⟩
def DBG_CONFLICT_TRACE_BUF : Fld := ⟨0x420, 3, 1⟩
def DBG_CONFLICT_REJECT : Fld := ⟨0x420, 4, 1⟩
def DBG_CONFLICT_TAKE : Fld := ⟨0x420, 5, 1⟩
def FW_VERSION_BUILD : Fld := ⟨0x50, 0, 16⟩
def FW_VERSION_MINOR : Fld := ⟨0x50, 16, 8⟩
def FW_VERSION_MAJOR : Fld := ⟨0x50, 24, 8⟩
def FW_VERSION_SVN : Fld := ⟨0x50, 32, 8⟩
def FW_VERSION_COPY : Fld := ⟨0x50, 40, 1⟩
def BOOT_STATUS_STAGE : Fld := ⟨0x58, 0, 4⟩
def BOOT_STATUS_ERROR : Fld := ⟨0x58, 4, 4⟩
def BOOT_STATUS_DEBUG_OPEN : Fld := ⟨0x58, 8, 1⟩
def BOOT_CFG_WAIT_LOCK : Fld := ⟨0x60, 0, 1⟩
def MAP_IMG_GO : Fld := ⟨0x68, 0, 1⟩
def MAP_IMG_BUSY : Fld := ⟨0x68, 1, 1⟩
def MAP_IMG_DONE : Fld := ⟨0x68, 2, 1⟩
def MAP_IMG_ADDR : Fld := ⟨0x68, 6, 54⟩
def IRQ_STATUS_TIME : Fld := ⟨0x500, 0, 1⟩
def IRQ_STATUS_GUARD : Fld := ⟨0x500, 1, 1⟩
def IRQ_STATUS_CAPT : Fld := ⟨0x500, 2, 1⟩
def IRQ_STATUS_BOOT : Fld := ⟨0x500, 3, 1⟩
def IRQ_STATUS_MGMT : Fld := ⟨0x500, 4, 1⟩
def IRQ_STATUS_REJECT : Fld := ⟨0x500, 5, 1⟩
def IRQ_STATUS_PART : Fld := ⟨0x500, 16, 16⟩
def IRQ_MASK_TIME : Fld := ⟨0x508, 0, 1⟩
def IRQ_MASK_GUARD : Fld := ⟨0x508, 1, 1⟩
def IRQ_MASK_CAPT : Fld := ⟨0x508, 2, 1⟩
def IRQ_MASK_BOOT : Fld := ⟨0x508, 3, 1⟩
def IRQ_MASK_MGMT : Fld := ⟨0x508, 4, 1⟩
def IRQ_MASK_REJECT : Fld := ⟨0x508, 5, 1⟩
def IRQ_MASK_PART : Fld := ⟨0x508, 16, 16⟩
def APERTURE_PART : Fld := ⟨0x510, 0, 4⟩
def APERTURE_EN : Fld := ⟨0x510, 4, 1⟩
def APERTURE_BASE_GIB : Fld := ⟨0x510, 8, 15⟩
def CTX_APERTURE_EN : Fld := ⟨0x40, 4, 1⟩
def CTX_APERTURE_BASE_GIB : Fld := ⟨0x40, 8, 15⟩
def CTX_HWIN_BASE_MB : Fld := ⟨0x80, 0, 40⟩
def CTX_HWIN_SIZE_MB : Fld := ⟨0x80, 40, 20⟩
def CTX_HWIN_RD : Fld := ⟨0x80, 60, 1⟩
def CTX_HWIN_WR : Fld := ⟨0x80, 61, 1⟩
def CTX_IRQ_VEC : Fld := ⟨0x48, 0, 4⟩
def CTX_IRQ_EN : Fld := ⟨0x48, 4, 1⟩
def CTX_EVENT_FENCED : Fld := ⟨0x38, 0, 1⟩
def CTX_EVENT_RESET_DONE : Fld := ⟨0x38, 1, 1⟩
def Q_BASE_ADDR : Fld := ⟨0x0, 12, 48⟩
def CQ_BASE_ADDR : Fld := ⟨0x20, 12, 48⟩
def Q_CFG_EN : Fld := ⟨0x8, 0, 1⟩
def Q_CFG_SIZE : Fld := ⟨0x8, 1, 4⟩
def Q_CFG_VEC : Fld := ⟨0x8, 16, 4⟩
def Q_CFG_IRQ_EN : Fld := ⟨0x8, 20, 1⟩
def Q_DB_TAIL : Fld := ⟨0x10, 0, 16⟩
def Q_PTR_HEAD : Fld := ⟨0x18, 0, 16⟩
def Q_PTR_TAIL : Fld := ⟨0x18, 16, 16⟩
def Q_PTR_DONE : Fld := ⟨0x18, 32, 16⟩
def Q_PTR_RUN : Fld := ⟨0x18, 48, 1⟩
def Q_PTR_PEERWAIT : Fld := ⟨0x18, 49, 1⟩
def CQ_PTR_CHEAD : Fld := ⟨0x28, 0, 16⟩
def CQ_PTR_CTAIL : Fld := ⟨0x28, 16, 16⟩
def CQ_PTR_FULL : Fld := ⟨0x28, 32, 1⟩
def RET_S_COUNT : Fld := ⟨0x440, 0, 56⟩
def RET_M_COUNT : Fld := ⟨0x441, 0, 56⟩
def RET_C_COUNT : Fld := ⟨0x442, 0, 56⟩
def RET_X_COUNT : Fld := ⟨0x443, 0, 56⟩
def WASTE_S_COUNT : Fld := ⟨0x444, 0, 56⟩
def WASTE_M_COUNT : Fld := ⟨0x445, 0, 56⟩
def WASTE_C_COUNT : Fld := ⟨0x446, 0, 56⟩
def WASTE_X_COUNT : Fld := ⟨0x447, 0, 56⟩
def FRONT_COUNT : Fld := ⟨0x448, 0, 56⟩
def BACK_S_COUNT : Fld := ⟨0x449, 0, 56⟩
def BACK_M_COUNT : Fld := ⟨0x44a, 0, 56⟩
def BACK_C_COUNT : Fld := ⟨0x44b, 0, 56⟩
def BACK_X_COUNT : Fld := ⟨0x44c, 0, 56⟩
def BACK_BAR_COUNT : Fld := ⟨0x44d, 0, 56⟩
def SLOT_HANDLER_COUNT : Fld := ⟨0x44e, 0, 56⟩
def HALT_CYCLES_COUNT : Fld := ⟨0x44f, 0, 56⟩
def M_ACTIVE_COUNT : Fld := ⟨0x450, 0, 56⟩
def M_SPREAD_COUNT : Fld := ⟨0x451, 0, 56⟩
def M_SETTLE_COUNT : Fld := ⟨0x452, 0, 56⟩
def M_HELD_COUNT : Fld := ⟨0x453, 0, 56⟩
def M_SOLVE_COUNT : Fld := ⟨0x454, 0, 56⟩
def M_WAIT_COUNT : Fld := ⟨0x455, 0, 56⟩
def C_ACTIVE_COUNT : Fld := ⟨0x456, 0, 56⟩
def C_SPREAD_COUNT : Fld := ⟨0x457, 0, 56⟩
def C_BANK_COUNT : Fld := ⟨0x458, 0, 56⟩
def C_OWNED_COUNT : Fld := ⟨0x459, 0, 56⟩
def C_RUN_COUNT : Fld := ⟨0x45a, 0, 56⟩
def C_WAIT_COUNT : Fld := ⟨0x45b, 0, 56⟩
def X_LAUNCH_COUNT : Fld := ⟨0x45c, 0, 56⟩
def X_TAG_COUNT : Fld := ⟨0x45d, 0, 56⟩
def X_STAMP_COUNT : Fld := ⟨0x45e, 0, 56⟩
def X_ORDER_COUNT : Fld := ⟨0x45f, 0, 56⟩
def X_OUT_COUNT : Fld := ⟨0x460, 0, 56⟩
def X_WAIT_COUNT : Fld := ⟨0x461, 0, 56⟩
def SOLV_ITERS_COUNT : Fld := ⟨0x462, 0, 56⟩
def GRP_EXCL0_X0 : Fld := ⟨0x18, 0, 5⟩
def GRP_EXCL0_Y0 : Fld := ⟨0x18, 5, 5⟩
def GRP_EXCL0_Z0 : Fld := ⟨0x18, 10, 5⟩
def GRP_EXCL0_W0 : Fld := ⟨0x18, 15, 5⟩
def GRP_EXCL0_V0 : Fld := ⟨0x18, 20, 1⟩
def GRP_EXCL0_X1 : Fld := ⟨0x18, 21, 5⟩
def GRP_EXCL0_Y1 : Fld := ⟨0x18, 26, 5⟩
def GRP_EXCL0_Z1 : Fld := ⟨0x18, 31, 5⟩
def GRP_EXCL0_W1 : Fld := ⟨0x18, 36, 5⟩
def GRP_EXCL0_V1 : Fld := ⟨0x18, 41, 1⟩
def GRP_EXCL0_X2 : Fld := ⟨0x18, 42, 5⟩
def GRP_EXCL0_Y2 : Fld := ⟨0x18, 47, 5⟩
def GRP_EXCL0_Z2 : Fld := ⟨0x18, 52, 5⟩
def GRP_EXCL0_W2 : Fld := ⟨0x18, 57, 5⟩
def GRP_EXCL0_V2 : Fld := ⟨0x18, 62, 1⟩
def GRP_STAGE_EXCL0_X0 : Fld := ⟨0x330, 0, 5⟩
def GRP_STAGE_EXCL0_Y0 : Fld := ⟨0x330, 5, 5⟩
def GRP_STAGE_EXCL0_Z0 : Fld := ⟨0x330, 10, 5⟩
def GRP_STAGE_EXCL0_W0 : Fld := ⟨0x330, 15, 5⟩
def GRP_STAGE_EXCL0_V0 : Fld := ⟨0x330, 20, 1⟩
def GRP_STAGE_EXCL0_X1 : Fld := ⟨0x330, 21, 5⟩
def GRP_STAGE_EXCL0_Y1 : Fld := ⟨0x330, 26, 5⟩
def GRP_STAGE_EXCL0_Z1 : Fld := ⟨0x330, 31, 5⟩
def GRP_STAGE_EXCL0_W1 : Fld := ⟨0x330, 36, 5⟩
def GRP_STAGE_EXCL0_V1 : Fld := ⟨0x330, 41, 1⟩
def GRP_STAGE_EXCL0_X2 : Fld := ⟨0x330, 42, 5⟩
def GRP_STAGE_EXCL0_Y2 : Fld := ⟨0x330, 47, 5⟩
def GRP_STAGE_EXCL0_Z2 : Fld := ⟨0x330, 52, 5⟩
def GRP_STAGE_EXCL0_W2 : Fld := ⟨0x330, 57, 5⟩
def GRP_STAGE_EXCL0_V2 : Fld := ⟨0x330, 62, 1⟩
def GRP_EXCL1_X0 : Fld := ⟨0x20, 0, 5⟩
def GRP_EXCL1_Y0 : Fld := ⟨0x20, 5, 5⟩
def GRP_EXCL1_Z0 : Fld := ⟨0x20, 10, 5⟩
def GRP_EXCL1_W0 : Fld := ⟨0x20, 15, 5⟩
def GRP_EXCL1_V0 : Fld := ⟨0x20, 20, 1⟩
def GRP_EXCL1_X1 : Fld := ⟨0x20, 21, 5⟩
def GRP_EXCL1_Y1 : Fld := ⟨0x20, 26, 5⟩
def GRP_EXCL1_Z1 : Fld := ⟨0x20, 31, 5⟩
def GRP_EXCL1_W1 : Fld := ⟨0x20, 36, 5⟩
def GRP_EXCL1_V1 : Fld := ⟨0x20, 41, 1⟩
def GRP_EXCL1_X2 : Fld := ⟨0x20, 42, 5⟩
def GRP_EXCL1_Y2 : Fld := ⟨0x20, 47, 5⟩
def GRP_EXCL1_Z2 : Fld := ⟨0x20, 52, 5⟩
def GRP_EXCL1_W2 : Fld := ⟨0x20, 57, 5⟩
def GRP_EXCL1_V2 : Fld := ⟨0x20, 62, 1⟩
def GRP_STAGE_EXCL1_X0 : Fld := ⟨0x338, 0, 5⟩
def GRP_STAGE_EXCL1_Y0 : Fld := ⟨0x338, 5, 5⟩
def GRP_STAGE_EXCL1_Z0 : Fld := ⟨0x338, 10, 5⟩
def GRP_STAGE_EXCL1_W0 : Fld := ⟨0x338, 15, 5⟩
def GRP_STAGE_EXCL1_V0 : Fld := ⟨0x338, 20, 1⟩
def GRP_STAGE_EXCL1_X1 : Fld := ⟨0x338, 21, 5⟩
def GRP_STAGE_EXCL1_Y1 : Fld := ⟨0x338, 26, 5⟩
def GRP_STAGE_EXCL1_Z1 : Fld := ⟨0x338, 31, 5⟩
def GRP_STAGE_EXCL1_W1 : Fld := ⟨0x338, 36, 5⟩
def GRP_STAGE_EXCL1_V1 : Fld := ⟨0x338, 41, 1⟩
def GRP_STAGE_EXCL1_X2 : Fld := ⟨0x338, 42, 5⟩
def GRP_STAGE_EXCL1_Y2 : Fld := ⟨0x338, 47, 5⟩
def GRP_STAGE_EXCL1_Z2 : Fld := ⟨0x338, 52, 5⟩
def GRP_STAGE_EXCL1_W2 : Fld := ⟨0x338, 57, 5⟩
def GRP_STAGE_EXCL1_V2 : Fld := ⟨0x338, 62, 1⟩
def GRP_EXCL2_X0 : Fld := ⟨0x28, 0, 5⟩
def GRP_EXCL2_Y0 : Fld := ⟨0x28, 5, 5⟩
def GRP_EXCL2_Z0 : Fld := ⟨0x28, 10, 5⟩
def GRP_EXCL2_W0 : Fld := ⟨0x28, 15, 5⟩
def GRP_EXCL2_V0 : Fld := ⟨0x28, 20, 1⟩
def GRP_EXCL2_X1 : Fld := ⟨0x28, 21, 5⟩
def GRP_EXCL2_Y1 : Fld := ⟨0x28, 26, 5⟩
def GRP_EXCL2_Z1 : Fld := ⟨0x28, 31, 5⟩
def GRP_EXCL2_W1 : Fld := ⟨0x28, 36, 5⟩
def GRP_EXCL2_V1 : Fld := ⟨0x28, 41, 1⟩
def GRP_EXCL2_X2 : Fld := ⟨0x28, 42, 5⟩
def GRP_EXCL2_Y2 : Fld := ⟨0x28, 47, 5⟩
def GRP_EXCL2_Z2 : Fld := ⟨0x28, 52, 5⟩
def GRP_EXCL2_W2 : Fld := ⟨0x28, 57, 5⟩
def GRP_EXCL2_V2 : Fld := ⟨0x28, 62, 1⟩
def GRP_STAGE_EXCL2_X0 : Fld := ⟨0x340, 0, 5⟩
def GRP_STAGE_EXCL2_Y0 : Fld := ⟨0x340, 5, 5⟩
def GRP_STAGE_EXCL2_Z0 : Fld := ⟨0x340, 10, 5⟩
def GRP_STAGE_EXCL2_W0 : Fld := ⟨0x340, 15, 5⟩
def GRP_STAGE_EXCL2_V0 : Fld := ⟨0x340, 20, 1⟩
def GRP_STAGE_EXCL2_X1 : Fld := ⟨0x340, 21, 5⟩
def GRP_STAGE_EXCL2_Y1 : Fld := ⟨0x340, 26, 5⟩
def GRP_STAGE_EXCL2_Z1 : Fld := ⟨0x340, 31, 5⟩
def GRP_STAGE_EXCL2_W1 : Fld := ⟨0x340, 36, 5⟩
def GRP_STAGE_EXCL2_V1 : Fld := ⟨0x340, 41, 1⟩
def GRP_STAGE_EXCL2_X2 : Fld := ⟨0x340, 42, 5⟩
def GRP_STAGE_EXCL2_Y2 : Fld := ⟨0x340, 47, 5⟩
def GRP_STAGE_EXCL2_Z2 : Fld := ⟨0x340, 52, 5⟩
def GRP_STAGE_EXCL2_W2 : Fld := ⟨0x340, 57, 5⟩
def GRP_STAGE_EXCL2_V2 : Fld := ⟨0x340, 62, 1⟩

end F

/-! ## Registers -/

/-- MFLAGS (R194). -/
def reg_MFLAGS : RegSpec := ⟨0x0,
  [⟨F.MFLAGS_INVALID, .w1c, .any, .no⟩,
   ⟨F.MFLAGS_DIVZERO, .w1c, .any, .no⟩,
   ⟨F.MFLAGS_OVERFLOW, .w1c, .any, .no⟩,
   ⟨F.MFLAGS_UNDERFLOW, .w1c, .any, .no⟩,
   ⟨F.MFLAGS_INEXACT, .w1c, .any, .no⟩], 0x0⟩

/-- VFLAGS (R194). -/
def reg_VFLAGS : RegSpec := ⟨0x1,
  [⟨F.VFLAGS_INVALID, .w1c, .any, .no⟩,
   ⟨F.VFLAGS_DIVZERO, .w1c, .any, .no⟩,
   ⟨F.VFLAGS_OVERFLOW, .w1c, .any, .no⟩,
   ⟨F.VFLAGS_UNDERFLOW, .w1c, .any, .no⟩,
   ⟨F.VFLAGS_INEXACT, .w1c, .any, .no⟩], 0x0⟩

/-- SFLAGS (R194). -/
def reg_SFLAGS : RegSpec := ⟨0x2,
  [⟨F.SFLAGS_INVALID, .w1c, .any, .no⟩,
   ⟨F.SFLAGS_DIVZERO, .w1c, .any, .no⟩,
   ⟨F.SFLAGS_OVERFLOW, .w1c, .any, .no⟩,
   ⟨F.SFLAGS_UNDERFLOW, .w1c, .any, .no⟩,
   ⟨F.SFLAGS_INEXACT, .w1c, .any, .no⟩,
   ⟨F.SFLAGS_RANGE, .w1c, .any, .no⟩], 0x0⟩

/-- VRES (R276). -/
def reg_VRES : RegSpec := ⟨0x3,
  [⟨F.VRES_ELEM, .rw, .any, .no⟩,
   ⟨F.VRES_VALID, .ro, .any, .no⟩,
   ⟨F.VRES_RESTART, .ro, .any, .no⟩], 0x0⟩

/-- MSTATUS (R230). -/
def reg_MSTATUS : RegSpec := ⟨0x4,
  [⟨F.MSTATUS_BUSY, .ro, .any, .no⟩,
   ⟨F.MSTATUS_SETTLED, .ro, .any, .no⟩,
   ⟨F.MSTATUS_SPECIAL, .ro, .any, .no⟩,
   ⟨F.MSTATUS_POISON, .w1c, .any, .no⟩,
   ⟨F.MSTATUS_SHAPE, .ro, .any, .no⟩,
   ⟨F.MSTATUS_MOMENTS, .ro, .any, .no⟩], 0x2⟩

/-- MOP_CYCLES (R231). -/
def reg_MOP_CYCLES : RegSpec := ⟨0x5,
  [⟨F.MOP_CYCLES_CYCLES, .ro, .any, .no⟩], 0x0⟩

/-- MOP_SPREAD (R231). -/
def reg_MOP_SPREAD : RegSpec := ⟨0x6,
  [⟨F.MOP_SPREAD_STALLS, .ro, .any, .no⟩,
   ⟨F.MOP_SPREAD_STEPS, .ro, .any, .no⟩], 0x0⟩

/-- MMOM_N (R232). -/
def reg_MMOM_N : RegSpec := ⟨0x7,
  [⟨F.MMOM_N_N, .ro, .any, .no⟩], 0x0⟩

/-- VTYPE (R277). -/
def reg_VTYPE : RegSpec := ⟨0x20,
  [⟨F.VTYPE_VL, .ro, .any, .no⟩,
   ⟨F.VTYPE_FMT, .ro, .any, .no⟩,
   ⟨F.VTYPE_RMODE, .ro, .any, .no⟩,
   ⟨F.VTYPE_SAT, .ro, .any, .no⟩,
   ⟨F.VTYPE_MZ, .ro, .any, .no⟩,
   ⟨F.VTYPE_TAN, .ro, .any, .no⟩,
   ⟨F.VTYPE_FXP, .ro, .any, .no⟩], 0x0⟩

/-- VSTATUS (R278). -/
def reg_VSTATUS : RegSpec := ⟨0x21,
  [⟨F.VSTATUS_BUSY, .ro, .any, .no⟩,
   ⟨F.VSTATUS_ROOT0_SETTLED, .ro, .any, .no⟩,
   ⟨F.VSTATUS_ROOT1_SETTLED, .ro, .any, .no⟩,
   ⟨F.VSTATUS_ROOT0_KIND, .ro, .any, .no⟩,
   ⟨F.VSTATUS_ROOT1_KIND, .ro, .any, .no⟩,
   ⟨F.VSTATUS_ROOT0_SPECIAL, .ro, .any, .no⟩,
   ⟨F.VSTATUS_ROOT1_SPECIAL, .ro, .any, .no⟩,
   ⟨F.VSTATUS_SOLVER_OWNED, .ro, .any, .no⟩], 0x6⟩

/-- VOP_CYCLES (R279). -/
def reg_VOP_CYCLES : RegSpec := ⟨0x22,
  [⟨F.VOP_CYCLES_CYCLES, .ro, .any, .no⟩], 0x0⟩

/-- VOP_STALLS (R279). -/
def reg_VOP_STALLS : RegSpec := ⟨0x23,
  [⟨F.VOP_STALLS_SPREAD, .ro, .any, .no⟩,
   ⟨F.VOP_STALLS_BANK, .ro, .any, .no⟩], 0x0⟩

/-- VGEN_KEY (R280). -/
def reg_VGEN_KEY : RegSpec := ⟨0x24,
  [⟨F.VGEN_KEY_KEY, .rw, .any, .no⟩], 0x0⟩

/-- VGEN_STREAM (R280). -/
def reg_VGEN_STREAM : RegSpec := ⟨0x25,
  [⟨F.VGEN_STREAM_STREAM, .rw, .any, .no⟩], 0x0⟩

/-- VGEN_POS_C (R280). -/
def reg_VGEN_POS_C : RegSpec := ⟨0x26,
  [⟨F.VGEN_POS_C_POS, .rw, .any, .no⟩], 0x0⟩

/-- VGEN_POS_M (R280). -/
def reg_VGEN_POS_M : RegSpec := ⟨0x27,
  [⟨F.VGEN_POS_M_POS, .rw, .any, .no⟩], 0x0⟩

/-- GATH_CFG (R281). -/
def reg_GATH_CFG : RegSpec := ⟨0x28,
  [⟨F.GATH_CFG_SLOTS_G0, .rw, .range 1 64, .no⟩,
   ⟨F.GATH_CFG_SLOTS_G1, .rw, .range 1 64, .no⟩], 0x3030⟩

/-- GATH_STATUS (R281). -/
def reg_GATH_STATUS : RegSpec := ⟨0x29,
  [⟨F.GATH_STATUS_BUSY_G0, .ro, .any, .no⟩,
   ⟨F.GATH_STATUS_BUSY_G1, .ro, .any, .no⟩,
   ⟨F.GATH_STATUS_LEFT_G0, .ro, .any, .no⟩,
   ⟨F.GATH_STATUS_LEFT_G1, .ro, .any, .no⟩], 0x0⟩

/-- CHAIN_CFG0A (R242). -/
def reg_CHAIN_CFG0A : RegSpec := ⟨0x30,
  [⟨F.CHAIN_CFGA_LFMT, .rw, .among [0, 1, 2, 3, 4, 5, 6, 8, 9, 10, 11], .no⟩,
   ⟨F.CHAIN_CFGA_AFMT, .rw, .among [0, 1, 2, 3, 10, 11], .no⟩,
   ⟨F.CHAIN_CFGA_QFMT, .rw, .among [0, 1, 2, 3, 4, 5, 6, 8, 9, 10, 11], .no⟩,
   ⟨F.CHAIN_CFGA_LMX, .rw, .any, .no⟩,
   ⟨F.CHAIN_CFGA_QMX, .rw, .any, .no⟩,
   ⟨F.CHAIN_CFGA_SCL, .rw, .range 0 3, .no⟩,
   ⟨F.CHAIN_CFGA_FMA, .rw, .range 0 4, .no⟩,
   ⟨F.CHAIN_CFGA_FUNC, .rw, .range 0 7, .no⟩,
   ⟨F.CHAIN_CFGA_CMP, .rw, .range 0 6, .no⟩,
   ⟨F.CHAIN_CFGA_SEL, .rw, .range 0 2, .no⟩,
   ⟨F.CHAIN_CFGA_ARMODE, .rw, .range 0 4, .no⟩,
   ⟨F.CHAIN_CFGA_QRMODE, .rw, .range 0 4, .no⟩,
   ⟨F.CHAIN_CFGA_QSAT, .rw, .any, .no⟩,
   ⟨F.CHAIN_CFGA_ASAT, .rw, .any, .no⟩,
   ⟨F.CHAIN_CFGA_RED, .rw, .range 0 4, .no⟩,
   ⟨F.CHAIN_CFGA_RTAP, .rw, .any, .no⟩,
   ⟨F.CHAIN_CFGA_LFXP, .rw, .any, .no⟩,
   ⟨F.CHAIN_CFGA_QFXP, .rw, .any, .no⟩], 0x0⟩

/-- CHAIN_CFG0B (R242). -/
def reg_CHAIN_CFG0B : RegSpec := ⟨0x31,
  [⟨F.CHAIN_CFGB_LSCALE, .rw, .any, .no⟩,
   ⟨F.CHAIN_CFGB_QSCALE, .rw, .any, .no⟩,
   ⟨F.CHAIN_CFGB_AFXP, .rw, .any, .no⟩], 0x0⟩

/-- CHAIN_CFG1A (R242). -/
def reg_CHAIN_CFG1A : RegSpec := ⟨0x32,
  [⟨(F.CHAIN_CFGA_LFMT.at 2), .rw, .among [0, 1, 2, 3, 4, 5, 6, 8, 9, 10, 11], .no⟩,
   ⟨(F.CHAIN_CFGA_AFMT.at 2), .rw, .among [0, 1, 2, 3, 10, 11], .no⟩,
   ⟨(F.CHAIN_CFGA_QFMT.at 2), .rw, .among [0, 1, 2, 3, 4, 5, 6, 8, 9, 10, 11], .no⟩,
   ⟨(F.CHAIN_CFGA_LMX.at 2), .rw, .any, .no⟩,
   ⟨(F.CHAIN_CFGA_QMX.at 2), .rw, .any, .no⟩,
   ⟨(F.CHAIN_CFGA_SCL.at 2), .rw, .range 0 3, .no⟩,
   ⟨(F.CHAIN_CFGA_FMA.at 2), .rw, .range 0 4, .no⟩,
   ⟨(F.CHAIN_CFGA_FUNC.at 2), .rw, .range 0 7, .no⟩,
   ⟨(F.CHAIN_CFGA_CMP.at 2), .rw, .range 0 6, .no⟩,
   ⟨(F.CHAIN_CFGA_SEL.at 2), .rw, .range 0 2, .no⟩,
   ⟨(F.CHAIN_CFGA_ARMODE.at 2), .rw, .range 0 4, .no⟩,
   ⟨(F.CHAIN_CFGA_QRMODE.at 2), .rw, .range 0 4, .no⟩,
   ⟨(F.CHAIN_CFGA_QSAT.at 2), .rw, .any, .no⟩,
   ⟨(F.CHAIN_CFGA_ASAT.at 2), .rw, .any, .no⟩,
   ⟨(F.CHAIN_CFGA_RED.at 2), .rw, .range 0 4, .no⟩,
   ⟨(F.CHAIN_CFGA_RTAP.at 2), .rw, .any, .no⟩,
   ⟨(F.CHAIN_CFGA_LFXP.at 2), .rw, .any, .no⟩,
   ⟨(F.CHAIN_CFGA_QFXP.at 2), .rw, .any, .no⟩], 0x0⟩

/-- CHAIN_CFG1B (R242). -/
def reg_CHAIN_CFG1B : RegSpec := ⟨0x33,
  [⟨(F.CHAIN_CFGB_LSCALE.at 2), .rw, .any, .no⟩,
   ⟨(F.CHAIN_CFGB_QSCALE.at 2), .rw, .any, .no⟩,
   ⟨(F.CHAIN_CFGB_AFXP.at 2), .rw, .any, .no⟩], 0x0⟩

/-- CHAIN_CFG2A (R242). -/
def reg_CHAIN_CFG2A : RegSpec := ⟨0x34,
  [⟨(F.CHAIN_CFGA_LFMT.at 4), .rw, .among [0, 1, 2, 3, 4, 5, 6, 8, 9, 10, 11], .no⟩,
   ⟨(F.CHAIN_CFGA_AFMT.at 4), .rw, .among [0, 1, 2, 3, 10, 11], .no⟩,
   ⟨(F.CHAIN_CFGA_QFMT.at 4), .rw, .among [0, 1, 2, 3, 4, 5, 6, 8, 9, 10, 11], .no⟩,
   ⟨(F.CHAIN_CFGA_LMX.at 4), .rw, .any, .no⟩,
   ⟨(F.CHAIN_CFGA_QMX.at 4), .rw, .any, .no⟩,
   ⟨(F.CHAIN_CFGA_SCL.at 4), .rw, .range 0 3, .no⟩,
   ⟨(F.CHAIN_CFGA_FMA.at 4), .rw, .range 0 4, .no⟩,
   ⟨(F.CHAIN_CFGA_FUNC.at 4), .rw, .range 0 7, .no⟩,
   ⟨(F.CHAIN_CFGA_CMP.at 4), .rw, .range 0 6, .no⟩,
   ⟨(F.CHAIN_CFGA_SEL.at 4), .rw, .range 0 2, .no⟩,
   ⟨(F.CHAIN_CFGA_ARMODE.at 4), .rw, .range 0 4, .no⟩,
   ⟨(F.CHAIN_CFGA_QRMODE.at 4), .rw, .range 0 4, .no⟩,
   ⟨(F.CHAIN_CFGA_QSAT.at 4), .rw, .any, .no⟩,
   ⟨(F.CHAIN_CFGA_ASAT.at 4), .rw, .any, .no⟩,
   ⟨(F.CHAIN_CFGA_RED.at 4), .rw, .range 0 4, .no⟩,
   ⟨(F.CHAIN_CFGA_RTAP.at 4), .rw, .any, .no⟩,
   ⟨(F.CHAIN_CFGA_LFXP.at 4), .rw, .any, .no⟩,
   ⟨(F.CHAIN_CFGA_QFXP.at 4), .rw, .any, .no⟩], 0x0⟩

/-- CHAIN_CFG2B (R242). -/
def reg_CHAIN_CFG2B : RegSpec := ⟨0x35,
  [⟨(F.CHAIN_CFGB_LSCALE.at 4), .rw, .any, .no⟩,
   ⟨(F.CHAIN_CFGB_QSCALE.at 4), .rw, .any, .no⟩,
   ⟨(F.CHAIN_CFGB_AFXP.at 4), .rw, .any, .no⟩], 0x0⟩

/-- CHAIN_CFG3A (R242). -/
def reg_CHAIN_CFG3A : RegSpec := ⟨0x36,
  [⟨(F.CHAIN_CFGA_LFMT.at 6), .rw, .among [0, 1, 2, 3, 4, 5, 6, 8, 9, 10, 11], .no⟩,
   ⟨(F.CHAIN_CFGA_AFMT.at 6), .rw, .among [0, 1, 2, 3, 10, 11], .no⟩,
   ⟨(F.CHAIN_CFGA_QFMT.at 6), .rw, .among [0, 1, 2, 3, 4, 5, 6, 8, 9, 10, 11], .no⟩,
   ⟨(F.CHAIN_CFGA_LMX.at 6), .rw, .any, .no⟩,
   ⟨(F.CHAIN_CFGA_QMX.at 6), .rw, .any, .no⟩,
   ⟨(F.CHAIN_CFGA_SCL.at 6), .rw, .range 0 3, .no⟩,
   ⟨(F.CHAIN_CFGA_FMA.at 6), .rw, .range 0 4, .no⟩,
   ⟨(F.CHAIN_CFGA_FUNC.at 6), .rw, .range 0 7, .no⟩,
   ⟨(F.CHAIN_CFGA_CMP.at 6), .rw, .range 0 6, .no⟩,
   ⟨(F.CHAIN_CFGA_SEL.at 6), .rw, .range 0 2, .no⟩,
   ⟨(F.CHAIN_CFGA_ARMODE.at 6), .rw, .range 0 4, .no⟩,
   ⟨(F.CHAIN_CFGA_QRMODE.at 6), .rw, .range 0 4, .no⟩,
   ⟨(F.CHAIN_CFGA_QSAT.at 6), .rw, .any, .no⟩,
   ⟨(F.CHAIN_CFGA_ASAT.at 6), .rw, .any, .no⟩,
   ⟨(F.CHAIN_CFGA_RED.at 6), .rw, .range 0 4, .no⟩,
   ⟨(F.CHAIN_CFGA_RTAP.at 6), .rw, .any, .no⟩,
   ⟨(F.CHAIN_CFGA_LFXP.at 6), .rw, .any, .no⟩,
   ⟨(F.CHAIN_CFGA_QFXP.at 6), .rw, .any, .no⟩], 0x0⟩

/-- CHAIN_CFG3B (R242). -/
def reg_CHAIN_CFG3B : RegSpec := ⟨0x37,
  [⟨(F.CHAIN_CFGB_LSCALE.at 6), .rw, .any, .no⟩,
   ⟨(F.CHAIN_CFGB_QSCALE.at 6), .rw, .any, .no⟩,
   ⟨(F.CHAIN_CFGB_AFXP.at 6), .rw, .any, .no⟩], 0x0⟩

/-- CHAIN_CFG4A (R242). -/
def reg_CHAIN_CFG4A : RegSpec := ⟨0x38,
  [⟨(F.CHAIN_CFGA_LFMT.at 8), .rw, .among [0, 1, 2, 3, 4, 5, 6, 8, 9, 10, 11], .no⟩,
   ⟨(F.CHAIN_CFGA_AFMT.at 8), .rw, .among [0, 1, 2, 3, 10, 11], .no⟩,
   ⟨(F.CHAIN_CFGA_QFMT.at 8), .rw, .among [0, 1, 2, 3, 4, 5, 6, 8, 9, 10, 11], .no⟩,
   ⟨(F.CHAIN_CFGA_LMX.at 8), .rw, .any, .no⟩,
   ⟨(F.CHAIN_CFGA_QMX.at 8), .rw, .any, .no⟩,
   ⟨(F.CHAIN_CFGA_SCL.at 8), .rw, .range 0 3, .no⟩,
   ⟨(F.CHAIN_CFGA_FMA.at 8), .rw, .range 0 4, .no⟩,
   ⟨(F.CHAIN_CFGA_FUNC.at 8), .rw, .range 0 7, .no⟩,
   ⟨(F.CHAIN_CFGA_CMP.at 8), .rw, .range 0 6, .no⟩,
   ⟨(F.CHAIN_CFGA_SEL.at 8), .rw, .range 0 2, .no⟩,
   ⟨(F.CHAIN_CFGA_ARMODE.at 8), .rw, .range 0 4, .no⟩,
   ⟨(F.CHAIN_CFGA_QRMODE.at 8), .rw, .range 0 4, .no⟩,
   ⟨(F.CHAIN_CFGA_QSAT.at 8), .rw, .any, .no⟩,
   ⟨(F.CHAIN_CFGA_ASAT.at 8), .rw, .any, .no⟩,
   ⟨(F.CHAIN_CFGA_RED.at 8), .rw, .range 0 4, .no⟩,
   ⟨(F.CHAIN_CFGA_RTAP.at 8), .rw, .any, .no⟩,
   ⟨(F.CHAIN_CFGA_LFXP.at 8), .rw, .any, .no⟩,
   ⟨(F.CHAIN_CFGA_QFXP.at 8), .rw, .any, .no⟩], 0x0⟩

/-- CHAIN_CFG4B (R242). -/
def reg_CHAIN_CFG4B : RegSpec := ⟨0x39,
  [⟨(F.CHAIN_CFGB_LSCALE.at 8), .rw, .any, .no⟩,
   ⟨(F.CHAIN_CFGB_QSCALE.at 8), .rw, .any, .no⟩,
   ⟨(F.CHAIN_CFGB_AFXP.at 8), .rw, .any, .no⟩], 0x0⟩

/-- CHAIN_CFG5A (R242). -/
def reg_CHAIN_CFG5A : RegSpec := ⟨0x3a,
  [⟨(F.CHAIN_CFGA_LFMT.at 10), .rw, .among [0, 1, 2, 3, 4, 5, 6, 8, 9, 10, 11], .no⟩,
   ⟨(F.CHAIN_CFGA_AFMT.at 10), .rw, .among [0, 1, 2, 3, 10, 11], .no⟩,
   ⟨(F.CHAIN_CFGA_QFMT.at 10), .rw, .among [0, 1, 2, 3, 4, 5, 6, 8, 9, 10, 11], .no⟩,
   ⟨(F.CHAIN_CFGA_LMX.at 10), .rw, .any, .no⟩,
   ⟨(F.CHAIN_CFGA_QMX.at 10), .rw, .any, .no⟩,
   ⟨(F.CHAIN_CFGA_SCL.at 10), .rw, .range 0 3, .no⟩,
   ⟨(F.CHAIN_CFGA_FMA.at 10), .rw, .range 0 4, .no⟩,
   ⟨(F.CHAIN_CFGA_FUNC.at 10), .rw, .range 0 7, .no⟩,
   ⟨(F.CHAIN_CFGA_CMP.at 10), .rw, .range 0 6, .no⟩,
   ⟨(F.CHAIN_CFGA_SEL.at 10), .rw, .range 0 2, .no⟩,
   ⟨(F.CHAIN_CFGA_ARMODE.at 10), .rw, .range 0 4, .no⟩,
   ⟨(F.CHAIN_CFGA_QRMODE.at 10), .rw, .range 0 4, .no⟩,
   ⟨(F.CHAIN_CFGA_QSAT.at 10), .rw, .any, .no⟩,
   ⟨(F.CHAIN_CFGA_ASAT.at 10), .rw, .any, .no⟩,
   ⟨(F.CHAIN_CFGA_RED.at 10), .rw, .range 0 4, .no⟩,
   ⟨(F.CHAIN_CFGA_RTAP.at 10), .rw, .any, .no⟩,
   ⟨(F.CHAIN_CFGA_LFXP.at 10), .rw, .any, .no⟩,
   ⟨(F.CHAIN_CFGA_QFXP.at 10), .rw, .any, .no⟩], 0x0⟩

/-- CHAIN_CFG5B (R242). -/
def reg_CHAIN_CFG5B : RegSpec := ⟨0x3b,
  [⟨(F.CHAIN_CFGB_LSCALE.at 10), .rw, .any, .no⟩,
   ⟨(F.CHAIN_CFGB_QSCALE.at 10), .rw, .any, .no⟩,
   ⟨(F.CHAIN_CFGB_AFXP.at 10), .rw, .any, .no⟩], 0x0⟩

/-- CHAIN_CFG6A (R242). -/
def reg_CHAIN_CFG6A : RegSpec := ⟨0x3c,
  [⟨(F.CHAIN_CFGA_LFMT.at 12), .rw, .among [0, 1, 2, 3, 4, 5, 6, 8, 9, 10, 11], .no⟩,
   ⟨(F.CHAIN_CFGA_AFMT.at 12), .rw, .among [0, 1, 2, 3, 10, 11], .no⟩,
   ⟨(F.CHAIN_CFGA_QFMT.at 12), .rw, .among [0, 1, 2, 3, 4, 5, 6, 8, 9, 10, 11], .no⟩,
   ⟨(F.CHAIN_CFGA_LMX.at 12), .rw, .any, .no⟩,
   ⟨(F.CHAIN_CFGA_QMX.at 12), .rw, .any, .no⟩,
   ⟨(F.CHAIN_CFGA_SCL.at 12), .rw, .range 0 3, .no⟩,
   ⟨(F.CHAIN_CFGA_FMA.at 12), .rw, .range 0 4, .no⟩,
   ⟨(F.CHAIN_CFGA_FUNC.at 12), .rw, .range 0 7, .no⟩,
   ⟨(F.CHAIN_CFGA_CMP.at 12), .rw, .range 0 6, .no⟩,
   ⟨(F.CHAIN_CFGA_SEL.at 12), .rw, .range 0 2, .no⟩,
   ⟨(F.CHAIN_CFGA_ARMODE.at 12), .rw, .range 0 4, .no⟩,
   ⟨(F.CHAIN_CFGA_QRMODE.at 12), .rw, .range 0 4, .no⟩,
   ⟨(F.CHAIN_CFGA_QSAT.at 12), .rw, .any, .no⟩,
   ⟨(F.CHAIN_CFGA_ASAT.at 12), .rw, .any, .no⟩,
   ⟨(F.CHAIN_CFGA_RED.at 12), .rw, .range 0 4, .no⟩,
   ⟨(F.CHAIN_CFGA_RTAP.at 12), .rw, .any, .no⟩,
   ⟨(F.CHAIN_CFGA_LFXP.at 12), .rw, .any, .no⟩,
   ⟨(F.CHAIN_CFGA_QFXP.at 12), .rw, .any, .no⟩], 0x0⟩

/-- CHAIN_CFG6B (R242). -/
def reg_CHAIN_CFG6B : RegSpec := ⟨0x3d,
  [⟨(F.CHAIN_CFGB_LSCALE.at 12), .rw, .any, .no⟩,
   ⟨(F.CHAIN_CFGB_QSCALE.at 12), .rw, .any, .no⟩,
   ⟨(F.CHAIN_CFGB_AFXP.at 12), .rw, .any, .no⟩], 0x0⟩

/-- CHAIN_CFG7A (R242). -/
def reg_CHAIN_CFG7A : RegSpec := ⟨0x3e,
  [⟨(F.CHAIN_CFGA_LFMT.at 14), .rw, .among [0, 1, 2, 3, 4, 5, 6, 8, 9, 10, 11], .no⟩,
   ⟨(F.CHAIN_CFGA_AFMT.at 14), .rw, .among [0, 1, 2, 3, 10, 11], .no⟩,
   ⟨(F.CHAIN_CFGA_QFMT.at 14), .rw, .among [0, 1, 2, 3, 4, 5, 6, 8, 9, 10, 11], .no⟩,
   ⟨(F.CHAIN_CFGA_LMX.at 14), .rw, .any, .no⟩,
   ⟨(F.CHAIN_CFGA_QMX.at 14), .rw, .any, .no⟩,
   ⟨(F.CHAIN_CFGA_SCL.at 14), .rw, .range 0 3, .no⟩,
   ⟨(F.CHAIN_CFGA_FMA.at 14), .rw, .range 0 4, .no⟩,
   ⟨(F.CHAIN_CFGA_FUNC.at 14), .rw, .range 0 7, .no⟩,
   ⟨(F.CHAIN_CFGA_CMP.at 14), .rw, .range 0 6, .no⟩,
   ⟨(F.CHAIN_CFGA_SEL.at 14), .rw, .range 0 2, .no⟩,
   ⟨(F.CHAIN_CFGA_ARMODE.at 14), .rw, .range 0 4, .no⟩,
   ⟨(F.CHAIN_CFGA_QRMODE.at 14), .rw, .range 0 4, .no⟩,
   ⟨(F.CHAIN_CFGA_QSAT.at 14), .rw, .any, .no⟩,
   ⟨(F.CHAIN_CFGA_ASAT.at 14), .rw, .any, .no⟩,
   ⟨(F.CHAIN_CFGA_RED.at 14), .rw, .range 0 4, .no⟩,
   ⟨(F.CHAIN_CFGA_RTAP.at 14), .rw, .any, .no⟩,
   ⟨(F.CHAIN_CFGA_LFXP.at 14), .rw, .any, .no⟩,
   ⟨(F.CHAIN_CFGA_QFXP.at 14), .rw, .any, .no⟩], 0x0⟩

/-- CHAIN_CFG7B (R242). -/
def reg_CHAIN_CFG7B : RegSpec := ⟨0x3f,
  [⟨(F.CHAIN_CFGB_LSCALE.at 14), .rw, .any, .no⟩,
   ⟨(F.CHAIN_CFGB_QSCALE.at 14), .rw, .any, .no⟩,
   ⟨(F.CHAIN_CFGB_AFXP.at 14), .rw, .any, .no⟩], 0x0⟩

/-- TPROG_EPI (R308). -/
def reg_TPROG_EPI : RegSpec := ⟨0x40,
  [⟨F.TPROG_EPI_PROG, .rw, .mult 8, .no⟩,
   ⟨F.TPROG_EPI_EN, .rw, .any, .no⟩,
   ⟨F.TPROG_EPI_FRAME, .rw, .mult 8, .no⟩], 0x0⟩

/-- TPROG_WIN (R309). -/
def reg_TPROG_WIN : RegSpec := ⟨0x41,
  [⟨F.TPROG_WIN_BASE, .rw, .any, .no⟩,
   ⟨F.TPROG_WIN_SIZE, .rw, .range 0 3145728, .no⟩], 0x0⟩

/-- TPROG_STATUS (R310). -/
def reg_TPROG_STATUS : RegSpec := ⟨0x42,
  [⟨F.TPROG_STATUS_RUN, .ro, .any, .no⟩,
   ⟨F.TPROG_STATUS_HELD, .ro, .any, .no⟩,
   ⟨F.TPROG_STATUS_EPI, .ro, .any, .no⟩,
   ⟨F.TPROG_STATUS_ADDR_ERR, .w1c, .any, .no⟩,
   ⟨F.TPROG_STATUS_POISON, .w1c, .any, .no⟩,
   ⟨F.TPROG_STATUS_CHECKED_EPI, .ro, .any, .no⟩,
   ⟨F.TPROG_STATUS_CHECKED_TP, .ro, .any, .no⟩,
   ⟨F.TPROG_STATUS_CHECK_AT, .ro, .any, .no⟩,
   ⟨F.TPROG_STATUS_ERR_AT, .ro, .any, .no⟩], 0x0⟩

/-- TPROG_RUNS (R311). -/
def reg_TPROG_RUNS : RegSpec := ⟨0x43,
  [⟨F.TPROG_RUNS_RUNS, .ro, .any, .no⟩,
   ⟨F.TPROG_RUNS_LAST_HOLD, .ro, .any, .no⟩], 0x0⟩

/-- TPROG_CYCLES (R311). -/
def reg_TPROG_CYCLES : RegSpec := ⟨0x44,
  [⟨F.TPROG_CYCLES_CYCLES, .ro, .any, .no⟩], 0x0⟩

/-- SOLV_BASE (R349). -/
def reg_SOLV_BASE : RegSpec := ⟨0x80,
  [⟨F.SOLV_BASE_BASE, .rw, .mult 128, .no⟩], 0x0⟩

/-- SOLV_REGION (R350). -/
def reg_SOLV_REGION : RegSpec := ⟨0x81,
  [⟨F.SOLV_REGION_BASE, .rw, .any, .no⟩,
   ⟨F.SOLV_REGION_SIZE, .rw, .range 0 3145728, .no⟩], 0x0⟩

/-- SOLV_READY (R351). -/
def reg_SOLV_READY : RegSpec := ⟨0x82,
  [⟨F.SOLV_READY_READY, .ro, .any, .no⟩], 0x0⟩

/-- SOLV_RES (R352). -/
def reg_SOLV_RES : RegSpec := ⟨0x83,
  [⟨F.SOLV_RES_SLOT, .rw, .any, .no⟩,
   ⟨F.SOLV_RES_VALID, .ro, .any, .no⟩,
   ⟨F.SOLV_RES_OUTER, .ro, .any, .no⟩], 0x0⟩

/-- SOLV_STATUS (R353). -/
def reg_SOLV_STATUS : RegSpec := ⟨0x84,
  [⟨F.SOLV_STATUS_BUSY, .ro, .any, .no⟩,
   ⟨F.SOLV_STATUS_SLOT, .ro, .any, .no⟩,
   ⟨F.SOLV_STATUS_REFRESH, .ro, .any, .no⟩,
   ⟨F.SOLV_STATUS_METHOD, .ro, .any, .no⟩,
   ⟨F.SOLV_STATUS_DIR, .ro, .any, .no⟩], 0x0⟩

/-- SOLV_CYCLES (R354). -/
def reg_SOLV_CYCLES : RegSpec := ⟨0x85,
  [⟨F.SOLV_CYCLES_CYCLES, .ro, .any, .no⟩], 0x0⟩

/-- SOLV_RUNS (R354). -/
def reg_SOLV_RUNS : RegSpec := ⟨0x86,
  [⟨F.SOLV_RUNS_SOLVES, .ro, .any, .no⟩,
   ⟨F.SOLV_RUNS_TRAPS, .ro, .any, .no⟩], 0x0⟩

/-- MV_PEND0 (R417). -/
def reg_MV_PEND0 : RegSpec := ⟨0xc0,
  [⟨F.MV_PEND0_PEND, .ro, .any, .no⟩], 0x0⟩

/-- MV_PEND1 (R417). -/
def reg_MV_PEND1 : RegSpec := ⟨0xc1,
  [⟨F.MV_PEND1_PEND, .ro, .any, .no⟩], 0x0⟩

/-- MV_ERRQ_CFG (R418). -/
def reg_MV_ERRQ_CFG : RegSpec := ⟨0xc2,
  [⟨F.MV_ERRQ_CFG_BASE, .rw, .mult 16, .no⟩,
   ⟨F.MV_ERRQ_CFG_SIZE, .rw, .zeroOr 4 12, .no⟩], 0x0⟩

/-- MV_ERRQ_PTR (R420). -/
def reg_MV_ERRQ_PTR : RegSpec := ⟨0xc3,
  [⟨F.MV_ERRQ_PTR_TAIL, .ro, .any, .no⟩,
   ⟨F.MV_ERRQ_PTR_HEAD, .rw, .any, .no⟩,
   ⟨F.MV_ERRQ_PTR_FULL, .w1c, .any, .no⟩,
   ⟨F.MV_ERRQ_PTR_LOST, .ro, .any, .no⟩], 0x0⟩

/-- DMA_CFG (R421). -/
def reg_DMA_CFG : RegSpec := ⟨0xc4,
  [⟨F.DMA_CFG_CHUNKS, .rw, .range 1 96, .no⟩], 0x20⟩

/-- MV_TT_STAT (R471). -/
def reg_MV_TT_STAT : RegSpec := ⟨0xe0,
  [⟨F.MV_TT_STAT_BOUND, .ro, .any, .no⟩,
   ⟨F.MV_TT_STAT_UNBOUND, .ro, .any, .no⟩,
   ⟨F.MV_TT_STAT_UNBOUND_SEEN, .w1c, .any, .no⟩], 0x0⟩

/-- MV_LATE (R472). -/
def reg_MV_LATE : RegSpec := ⟨0xe1,
  [⟨F.MV_LATE_NOTES, .ro, .any, .no⟩,
   ⟨F.MV_LATE_LATES, .ro, .any, .no⟩,
   ⟨F.MV_LATE_DOWNS, .ro, .any, .no⟩,
   ⟨F.MV_LATE_SEEN, .w1c, .any, .no⟩], 0x0⟩

/-- TILE_CFG_REJECT (R155). -/
def reg_TILE_CFG_REJECT : RegSpec := ⟨0x3ff,
  [⟨F.TILE_CFG_REJECT_SET, .w1c, .any, .no⟩,
   ⟨F.TILE_CFG_REJECT_MULTI, .w1c, .any, .no⟩,
   ⟨F.TILE_CFG_REJECT_ADDR, .ro, .any, .no⟩,
   ⟨F.TILE_CFG_REJECT_SRC, .ro, .any, .no⟩], 0x0⟩

/-- TILE_TIME_NOW_NS (R63). -/
def reg_TILE_TIME_NOW_NS : RegSpec := ⟨0x400,
  [⟨F.TILE_TIME_NOW_NS_NS, .ro, .any, .always⟩], 0x0⟩

/-- TILE_TIME_NOW_FRAC (R63). -/
def reg_TILE_TIME_NOW_FRAC : RegSpec := ⟨0x401,
  [⟨F.TILE_TIME_NOW_FRAC_FRAC, .ro, .any, .always⟩,
   ⟨F.TILE_TIME_NOW_FRAC_NS_LOW, .ro, .any, .always⟩], 0x0⟩

/-- CYCLE_COUNT (R102). -/
def reg_CYCLE_COUNT : RegSpec := ⟨0x408,
  [⟨F.CYCLE_COUNT_CYCLES, .ro, .any, .no⟩], 0x0⟩

/-- STRETCH_CYCLES (R102). -/
def reg_STRETCH_CYCLES : RegSpec := ⟨0x409,
  [⟨F.STRETCH_CYCLES_LOST, .ro, .any, .no⟩], 0x0⟩

/-- TIME_SLEEP_GAP (R102). -/
def reg_TIME_SLEEP_GAP : RegSpec := ⟨0x40a,
  [⟨F.TIME_SLEEP_GAP_GAP, .ro, .any, .no⟩], 0x0⟩

/-- TIME_SLEEP_LAST (R102). -/
def reg_TIME_SLEEP_LAST : RegSpec := ⟨0x40b,
  [⟨F.TIME_SLEEP_LAST_LAST, .ro, .any, .no⟩,
   ⟨F.TIME_SLEEP_LAST_KIND, .ro, .any, .no⟩], 0x0⟩

/-- CLK_EPOCH (R102). -/
def reg_CLK_EPOCH : RegSpec := ⟨0x40c,
  [⟨F.CLK_EPOCH_BEAT, .ro, .any, .no⟩,
   ⟨F.CLK_EPOCH_MULT, .ro, .any, .no⟩], 0x500000000000000⟩

/-- CLK_EPOCH_CYC (R102). -/
def reg_CLK_EPOCH_CYC : RegSpec := ⟨0x40d,
  [⟨F.CLK_EPOCH_CYC_CYC, .ro, .any, .no⟩], 0x0⟩

/-- TILE_STATUS (R150). -/
def reg_TILE_STATUS : RegSpec := ⟨0x410,
  [⟨F.TILE_STATUS_MODE, .ro, .any, .no⟩,
   ⟨F.TILE_STATUS_FROZEN, .ro, .any, .no⟩,
   ⟨F.TILE_STATUS_OPSTATE, .ro, .any, .no⟩,
   ⟨F.TILE_STATUS_CTX_ID, .ro, .any, .no⟩,
   ⟨F.TILE_STATUS_HOLD_LIVE, .ro, .any, .no⟩,
   ⟨F.TILE_STATUS_DOUBLE, .ro, .any, .no⟩,
   ⟨F.TILE_STATUS_STAMP_LATE_SEEN, .w1c, .any, .no⟩,
   ⟨F.TILE_STATUS_PRED_OFF, .ro, .any, .no⟩,
   ⟨F.TILE_STATUS_FENCE_PEND, .ro, .any, .no⟩], 0x11⟩

/-- TILE_ID (R151). -/
def reg_TILE_ID : RegSpec := ⟨0x411,
  [⟨F.TILE_ID_LI, .ro, .any, .no⟩,
   ⟨F.TILE_ID_LJ, .ro, .any, .no⟩,
   ⟨F.TILE_ID_INDEX, .ro, .any, .no⟩], 0x0⟩

/-- RET_S (R640). -/
def reg_RET_S : RegSpec := ⟨0x440,
  [⟨F.RET_S_COUNT, .ro, .any, .no⟩], 0x0⟩

/-- RET_M (R640). -/
def reg_RET_M : RegSpec := ⟨0x441,
  [⟨F.RET_M_COUNT, .ro, .any, .no⟩], 0x0⟩

/-- RET_C (R640). -/
def reg_RET_C : RegSpec := ⟨0x442,
  [⟨F.RET_C_COUNT, .ro, .any, .no⟩], 0x0⟩

/-- RET_X (R640). -/
def reg_RET_X : RegSpec := ⟨0x443,
  [⟨F.RET_X_COUNT, .ro, .any, .no⟩], 0x0⟩

/-- WASTE_S (R640). -/
def reg_WASTE_S : RegSpec := ⟨0x444,
  [⟨F.WASTE_S_COUNT, .ro, .any, .no⟩], 0x0⟩

/-- WASTE_M (R640). -/
def reg_WASTE_M : RegSpec := ⟨0x445,
  [⟨F.WASTE_M_COUNT, .ro, .any, .no⟩], 0x0⟩

/-- WASTE_C (R640). -/
def reg_WASTE_C : RegSpec := ⟨0x446,
  [⟨F.WASTE_C_COUNT, .ro, .any, .no⟩], 0x0⟩

/-- WASTE_X (R640). -/
def reg_WASTE_X : RegSpec := ⟨0x447,
  [⟨F.WASTE_X_COUNT, .ro, .any, .no⟩], 0x0⟩

/-- FRONT (R640). -/
def reg_FRONT : RegSpec := ⟨0x448,
  [⟨F.FRONT_COUNT, .ro, .any, .no⟩], 0x0⟩

/-- BACK_S (R640). -/
def reg_BACK_S : RegSpec := ⟨0x449,
  [⟨F.BACK_S_COUNT, .ro, .any, .no⟩], 0x0⟩

/-- BACK_M (R640). -/
def reg_BACK_M : RegSpec := ⟨0x44a,
  [⟨F.BACK_M_COUNT, .ro, .any, .no⟩], 0x0⟩

/-- BACK_C (R640). -/
def reg_BACK_C : RegSpec := ⟨0x44b,
  [⟨F.BACK_C_COUNT, .ro, .any, .no⟩], 0x0⟩

/-- BACK_X (R640). -/
def reg_BACK_X : RegSpec := ⟨0x44c,
  [⟨F.BACK_X_COUNT, .ro, .any, .no⟩], 0x0⟩

/-- BACK_BAR (R640). -/
def reg_BACK_BAR : RegSpec := ⟨0x44d,
  [⟨F.BACK_BAR_COUNT, .ro, .any, .no⟩], 0x0⟩

/-- SLOT_HANDLER (R640). -/
def reg_SLOT_HANDLER : RegSpec := ⟨0x44e,
  [⟨F.SLOT_HANDLER_COUNT, .ro, .any, .no⟩], 0x0⟩

/-- HALT_CYCLES (R640). -/
def reg_HALT_CYCLES : RegSpec := ⟨0x44f,
  [⟨F.HALT_CYCLES_COUNT, .ro, .any, .no⟩], 0x0⟩

/-- M_ACTIVE (R640). -/
def reg_M_ACTIVE : RegSpec := ⟨0x450,
  [⟨F.M_ACTIVE_COUNT, .ro, .any, .no⟩], 0x0⟩

/-- M_SPREAD (R640). -/
def reg_M_SPREAD : RegSpec := ⟨0x451,
  [⟨F.M_SPREAD_COUNT, .ro, .any, .no⟩], 0x0⟩

/-- M_SETTLE (R640). -/
def reg_M_SETTLE : RegSpec := ⟨0x452,
  [⟨F.M_SETTLE_COUNT, .ro, .any, .no⟩], 0x0⟩

/-- M_HELD (R640). -/
def reg_M_HELD : RegSpec := ⟨0x453,
  [⟨F.M_HELD_COUNT, .ro, .any, .no⟩], 0x0⟩

/-- M_SOLVE (R640). -/
def reg_M_SOLVE : RegSpec := ⟨0x454,
  [⟨F.M_SOLVE_COUNT, .ro, .any, .no⟩], 0x0⟩

/-- M_WAIT (R640). -/
def reg_M_WAIT : RegSpec := ⟨0x455,
  [⟨F.M_WAIT_COUNT, .ro, .any, .no⟩], 0x0⟩

/-- C_ACTIVE (R640). -/
def reg_C_ACTIVE : RegSpec := ⟨0x456,
  [⟨F.C_ACTIVE_COUNT, .ro, .any, .no⟩], 0x0⟩

/-- C_SPREAD (R640). -/
def reg_C_SPREAD : RegSpec := ⟨0x457,
  [⟨F.C_SPREAD_COUNT, .ro, .any, .no⟩], 0x0⟩

/-- C_BANK (R640). -/
def reg_C_BANK : RegSpec := ⟨0x458,
  [⟨F.C_BANK_COUNT, .ro, .any, .no⟩], 0x0⟩

/-- C_OWNED (R640). -/
def reg_C_OWNED : RegSpec := ⟨0x459,
  [⟨F.C_OWNED_COUNT, .ro, .any, .no⟩], 0x0⟩

/-- C_RUN (R640). -/
def reg_C_RUN : RegSpec := ⟨0x45a,
  [⟨F.C_RUN_COUNT, .ro, .any, .no⟩], 0x0⟩

/-- C_WAIT (R640). -/
def reg_C_WAIT : RegSpec := ⟨0x45b,
  [⟨F.C_WAIT_COUNT, .ro, .any, .no⟩], 0x0⟩

/-- X_LAUNCH (R640). -/
def reg_X_LAUNCH : RegSpec := ⟨0x45c,
  [⟨F.X_LAUNCH_COUNT, .ro, .any, .no⟩], 0x0⟩

/-- X_TAG (R640). -/
def reg_X_TAG : RegSpec := ⟨0x45d,
  [⟨F.X_TAG_COUNT, .ro, .any, .no⟩], 0x0⟩

/-- X_STAMP (R640). -/
def reg_X_STAMP : RegSpec := ⟨0x45e,
  [⟨F.X_STAMP_COUNT, .ro, .any, .no⟩], 0x0⟩

/-- X_ORDER (R640). -/
def reg_X_ORDER : RegSpec := ⟨0x45f,
  [⟨F.X_ORDER_COUNT, .ro, .any, .no⟩], 0x0⟩

/-- X_OUT (R640). -/
def reg_X_OUT : RegSpec := ⟨0x460,
  [⟨F.X_OUT_COUNT, .ro, .any, .no⟩], 0x0⟩

/-- X_WAIT (R640). -/
def reg_X_WAIT : RegSpec := ⟨0x461,
  [⟨F.X_WAIT_COUNT, .ro, .any, .no⟩], 0x0⟩

/-- SOLV_ITERS (R640). -/
def reg_SOLV_ITERS : RegSpec := ⟨0x462,
  [⟨F.SOLV_ITERS_COUNT, .ro, .any, .no⟩], 0x0⟩

/-- SAMPLE_CFG (R657). -/
def reg_SAMPLE_CFG : RegSpec := ⟨0x470,
  [⟨F.SAMPLE_CFG_EN, .rw, .any, .no⟩,
   ⟨F.SAMPLE_CFG_USER, .rw, .any, .no⟩,
   ⟨F.SAMPLE_CFG_EVENT, .rw, .range 0 34, .no⟩,
   ⟨F.SAMPLE_CFG_PERIOD, .rw, .range 1 4294967295, .no⟩], 0x1000000⟩

/-- SAMPLE_STATUS (R657). -/
def reg_SAMPLE_STATUS : RegSpec := ⟨0x471,
  [⟨F.SAMPLE_STATUS_LEFT, .ro, .any, .no⟩,
   ⟨F.SAMPLE_STATUS_SKID, .ro, .any, .no⟩,
   ⟨F.SAMPLE_STATUS_LOST, .ro, .any, .no⟩,
   ⟨F.SAMPLE_STATUS_LOST_SEEN, .w1c, .any, .no⟩], 0x0⟩

/-- FOX_SAMPLE (R657). -/
def reg_FOX_SAMPLE : RegSpec := ⟨0x472,
  [⟨F.FOX_SAMPLE_PC, .wo, .any, .no⟩], 0x0⟩

/-- EXC_CAUSE (R153). -/
def reg_EXC_CAUSE : RegSpec := ⟨0x800,
  [⟨F.EXC_CAUSE_CODE, .ro, .any, .no⟩,
   ⟨F.EXC_CAUSE_QUEUE, .ro, .any, .no⟩,
   ⟨F.EXC_CAUSE_ASYNC, .ro, .any, .no⟩,
   ⟨F.EXC_CAUSE_SUB, .ro, .any, .no⟩,
   ⟨F.EXC_CAUSE_DISCARD, .rw, .any, .no⟩], 0x0⟩

/-- EXC_PC (R154). -/
def reg_EXC_PC : RegSpec := ⟨0x801,
  [⟨F.EXC_PC_PC, .rw, .any, .no⟩], 0x0⟩

/-- EXC_QPC (R154). -/
def reg_EXC_QPC : RegSpec := ⟨0x802,
  [⟨F.EXC_QPC_QPC, .ro, .any, .no⟩], 0x0⟩

/-- EXC_INFO (R154). -/
def reg_EXC_INFO : RegSpec := ⟨0x803,
  [⟨F.EXC_INFO_INFO, .ro, .any, .no⟩], 0x0⟩

/-- EXC_VEC (R154). -/
def reg_EXC_VEC : RegSpec := ⟨0x804,
  [⟨F.EXC_VEC_VEC, .rw, .any, .no⟩], 0x0⟩

/-- EXC_SAVE0 (R154). -/
def reg_EXC_SAVE0 : RegSpec := ⟨0x805,
  [⟨F.EXC_SAVE0_SAVE, .rw, .any, .no⟩], 0x0⟩

/-- EXC_SAVE1 (R154). -/
def reg_EXC_SAVE1 : RegSpec := ⟨0x806,
  [⟨F.EXC_SAVE1_SAVE, .rw, .any, .no⟩], 0x0⟩

/-- TILE_CFG (R152). -/
def reg_TILE_CFG : RegSpec := ⟨0x810,
  [⟨F.TILE_CFG_SPEC_EN, .rw, .any, .no⟩,
   ⟨F.TILE_CFG_STAMP_LATE, .rw, .any, .no⟩,
   ⟨F.TILE_CFG_TWAIT_MAX, .rw, .range 1 4095, .no⟩], 0x4001⟩

/-- SLEEPCFG (R631). -/
def reg_SLEEPCFG : RegSpec := ⟨0x820,
  [⟨F.SLEEPCFG_STATE, .rw, .range 0 1, .no⟩,
   ⟨F.SLEEPCFG_SETT0, .ro, .any, .no⟩,
   ⟨F.SLEEPCFG_SETT, .rw, .any, .no⟩,
   ⟨F.SLEEPCFG_ALARM_EN, .rw, .any, .no⟩], 0xff00⟩

/-- DOZE_CFG (R632). -/
def reg_DOZE_CFG : RegSpec := ⟨0x821,
  [⟨F.DOZE_CFG_IDLE_CYCLES, .rw, .zeroOr 256 65535, .no⟩], 0x1000⟩

/-- WAKE_SOURCE (R633). -/
def reg_WAKE_SOURCE : RegSpec := ⟨0x822,
  [⟨F.WAKE_SOURCE_SOURCE, .ro, .any, .no⟩,
   ⟨F.WAKE_SOURCE_STATE, .ro, .any, .no⟩,
   ⟨F.WAKE_SOURCE_CAUSE, .ro, .any, .no⟩,
   ⟨F.WAKE_SOURCE_UNIT, .ro, .any, .no⟩], 0x0⟩

/-- DEN_WAKE_AT (R634). -/
def reg_DEN_WAKE_AT : RegSpec := ⟨0x823,
  [⟨F.DEN_WAKE_AT_BEAT, .rw, .any, .no⟩], 0x0⟩

/-- PAD_RELEASE (R635). -/
def reg_PAD_RELEASE : RegSpec := ⟨0x824,
  [⟨F.PAD_RELEASE_REL, .wo, .any, .no⟩,
   ⟨F.PAD_RELEASE_HELD, .ro, .any, .no⟩], 0x0⟩

/-- DBG_CTL (R673). -/
def reg_DBG_CTL : RegSpec := ⟨0xc00,
  [⟨F.DBG_CTL_HALT, .wo, .any, .no⟩,
   ⟨F.DBG_CTL_RESUME, .wo, .any, .no⟩,
   ⟨F.DBG_CTL_STEP, .wo, .any, .no⟩,
   ⟨F.DBG_CTL_STEP_MASK, .rw, .any, .no⟩,
   ⟨F.DBG_CTL_BRK_EN, .rw, .any, .no⟩], 0x0⟩

/-- DBG_STATUS (R673). -/
def reg_DBG_STATUS : RegSpec := ⟨0xc01,
  [⟨F.DBG_STATUS_HALTED, .ro, .any, .no⟩,
   ⟨F.DBG_STATUS_STOPPING, .ro, .any, .no⟩,
   ⟨F.DBG_STATUS_HALT_WHY, .ro, .any, .no⟩,
   ⟨F.DBG_STATUS_DEFERRED, .w1c, .any, .no⟩,
   ⟨F.DBG_STATUS_WAITS, .ro, .any, .no⟩], 0x0⟩

/-- DBG_PC (R673). -/
def reg_DBG_PC : RegSpec := ⟨0xc02,
  [⟨F.DBG_PC_PC, .rw, .mult 4, .no⟩], 0x0⟩

/-- DBG_BRK0 (R673). -/
def reg_DBG_BRK0 : RegSpec := ⟨0xc04,
  [⟨F.DBG_BRK_ADDR, .rw, .mult 4, .no⟩,
   ⟨F.DBG_BRK_USER_ONLY, .rw, .any, .no⟩], 0x0⟩

/-- DBG_BRK1 (R673). -/
def reg_DBG_BRK1 : RegSpec := ⟨0xc05,
  [⟨(F.DBG_BRK_ADDR.at 1), .rw, .mult 4, .no⟩,
   ⟨(F.DBG_BRK_USER_ONLY.at 1), .rw, .any, .no⟩], 0x0⟩

/-- DBG_BRK2 (R673). -/
def reg_DBG_BRK2 : RegSpec := ⟨0xc06,
  [⟨(F.DBG_BRK_ADDR.at 2), .rw, .mult 4, .no⟩,
   ⟨(F.DBG_BRK_USER_ONLY.at 2), .rw, .any, .no⟩], 0x0⟩

/-- DBG_BRK3 (R673). -/
def reg_DBG_BRK3 : RegSpec := ⟨0xc07,
  [⟨(F.DBG_BRK_ADDR.at 3), .rw, .mult 4, .no⟩,
   ⟨(F.DBG_BRK_USER_ONLY.at 3), .rw, .any, .no⟩], 0x0⟩

/-- The registers of the control space of a tile (R149). -/
def tileRegs : List RegSpec :=
  [reg_MFLAGS, reg_VFLAGS, reg_SFLAGS, reg_VRES, reg_MSTATUS, reg_MOP_CYCLES, reg_MOP_SPREAD, reg_MMOM_N, reg_VTYPE, reg_VSTATUS, reg_VOP_CYCLES, reg_VOP_STALLS, reg_VGEN_KEY, reg_VGEN_STREAM, reg_VGEN_POS_C, reg_VGEN_POS_M] ++
  [reg_GATH_CFG, reg_GATH_STATUS, reg_CHAIN_CFG0A, reg_CHAIN_CFG0B, reg_CHAIN_CFG1A, reg_CHAIN_CFG1B, reg_CHAIN_CFG2A, reg_CHAIN_CFG2B, reg_CHAIN_CFG3A, reg_CHAIN_CFG3B, reg_CHAIN_CFG4A, reg_CHAIN_CFG4B, reg_CHAIN_CFG5A, reg_CHAIN_CFG5B, reg_CHAIN_CFG6A, reg_CHAIN_CFG6B] ++
  [reg_CHAIN_CFG7A, reg_CHAIN_CFG7B, reg_TPROG_EPI, reg_TPROG_WIN, reg_TPROG_STATUS, reg_TPROG_RUNS, reg_TPROG_CYCLES, reg_SOLV_BASE, reg_SOLV_REGION, reg_SOLV_READY, reg_SOLV_RES, reg_SOLV_STATUS, reg_SOLV_CYCLES, reg_SOLV_RUNS, reg_MV_PEND0, reg_MV_PEND1] ++
  [reg_MV_ERRQ_CFG, reg_MV_ERRQ_PTR, reg_DMA_CFG, reg_MV_TT_STAT, reg_MV_LATE, reg_TILE_CFG_REJECT, reg_TILE_TIME_NOW_NS, reg_TILE_TIME_NOW_FRAC, reg_CYCLE_COUNT, reg_STRETCH_CYCLES, reg_TIME_SLEEP_GAP, reg_TIME_SLEEP_LAST, reg_CLK_EPOCH, reg_CLK_EPOCH_CYC, reg_TILE_STATUS, reg_TILE_ID] ++
  [reg_RET_S, reg_RET_M, reg_RET_C, reg_RET_X, reg_WASTE_S, reg_WASTE_M, reg_WASTE_C, reg_WASTE_X, reg_FRONT, reg_BACK_S, reg_BACK_M, reg_BACK_C, reg_BACK_X, reg_BACK_BAR, reg_SLOT_HANDLER, reg_HALT_CYCLES] ++
  [reg_M_ACTIVE, reg_M_SPREAD, reg_M_SETTLE, reg_M_HELD, reg_M_SOLVE, reg_M_WAIT, reg_C_ACTIVE, reg_C_SPREAD, reg_C_BANK, reg_C_OWNED, reg_C_RUN, reg_C_WAIT, reg_X_LAUNCH, reg_X_TAG, reg_X_STAMP, reg_X_ORDER] ++
  [reg_X_OUT, reg_X_WAIT, reg_SOLV_ITERS, reg_SAMPLE_CFG, reg_SAMPLE_STATUS, reg_FOX_SAMPLE, reg_EXC_CAUSE, reg_EXC_PC, reg_EXC_QPC, reg_EXC_INFO, reg_EXC_VEC, reg_EXC_SAVE0, reg_EXC_SAVE1, reg_TILE_CFG, reg_SLEEPCFG, reg_DOZE_CFG] ++
  [reg_WAKE_SOURCE, reg_DEN_WAKE_AT, reg_PAD_RELEASE, reg_DBG_CTL, reg_DBG_STATUS, reg_DBG_PC, reg_DBG_BRK0, reg_DBG_BRK1, reg_DBG_BRK2, reg_DBG_BRK3]

/-- ENGINE_INFO (R52). -/
def reg_ENGINE_INFO : RegSpec := ⟨0x0,
  [⟨F.ENGINE_INFO_GRADE, .ro, .any, .part⟩,
   ⟨F.ENGINE_INFO_STEPPING, .ro, .any, .part⟩,
   ⟨F.ENGINE_INFO_GRID_COLS, .ro, .any, .no⟩,
   ⟨F.ENGINE_INFO_GRID_ROWS, .ro, .any, .no⟩,
   ⟨F.ENGINE_INFO_VLEN_WORDS, .ro, .any, .no⟩,
   ⟨F.ENGINE_INFO_TILE_TAGS, .ro, .any, .no⟩,
   ⟨F.ENGINE_INFO_ARRAY_DIM, .ro, .any, .no⟩], 0x2080405a781001⟩

/-- DUM_INFO (R53). -/
def reg_DUM_INFO : RegSpec := ⟨0x8,
  [⟨F.DUM_INFO_GENERATION, .ro, .any, .part⟩,
   ⟨F.DUM_INFO_VACANT_BLOCKS, .ro, .any, .no⟩,
   ⟨F.DUM_INFO_DEGRADED, .ro, .any, .no⟩,
   ⟨F.DUM_INFO_PENDING, .ro, .any, .no⟩], 0x1⟩

/-- DUM_DIGEST_0 (R54). -/
def reg_DUM_DIGEST_0 : RegSpec := ⟨0x10,
  [⟨F.DUM_DIGEST_DIGEST, .ro, .any, .no⟩], 0x0⟩

/-- DUM_DIGEST_1 (R54). -/
def reg_DUM_DIGEST_1 : RegSpec := ⟨0x18,
  [⟨(F.DUM_DIGEST_DIGEST.at 8), .ro, .any, .no⟩], 0x0⟩

/-- DUM_DIGEST_2 (R54). -/
def reg_DUM_DIGEST_2 : RegSpec := ⟨0x20,
  [⟨(F.DUM_DIGEST_DIGEST.at 16), .ro, .any, .no⟩], 0x0⟩

/-- DUM_DIGEST_3 (R54). -/
def reg_DUM_DIGEST_3 : RegSpec := ⟨0x28,
  [⟨(F.DUM_DIGEST_DIGEST.at 24), .ro, .any, .no⟩], 0x0⟩

/-- MAP_SEL (R55). -/
def reg_MAP_SEL : RegSpec := ⟨0x30,
  [⟨F.MAP_SEL_LI, .rw, .range 0 119, .no⟩,
   ⟨F.MAP_SEL_LJ, .rw, .range 0 89, .no⟩], 0x0⟩

/-- MAP_RESULT (R56). -/
def reg_MAP_RESULT : RegSpec := ⟨0x38,
  [⟨F.MAP_RESULT_PQX, .ro, .any, .no⟩,
   ⟨F.MAP_RESULT_PQY, .ro, .any, .no⟩,
   ⟨F.MAP_RESULT_PBLOCK, .ro, .any, .no⟩,
   ⟨F.MAP_RESULT_PTILE, .ro, .any, .no⟩,
   ⟨F.MAP_RESULT_OFF_COL, .ro, .any, .no⟩,
   ⟨F.MAP_RESULT_LBLOCK, .ro, .any, .no⟩,
   ⟨F.MAP_RESULT_STATE, .ro, .any, .no⟩,
   ⟨F.MAP_RESULT_Z31, .ro, .any, .no⟩], 0x0⟩

/-- SPARE_STATUS (R57). -/
def reg_SPARE_STATUS : RegSpec := ⟨0x40,
  [⟨F.SPARE_STATUS_QUARTER_SPARE, .ro, .any, .no⟩,
   ⟨F.SPARE_STATUS_BLOCK_SPARE, .ro, .any, .no⟩,
   ⟨F.SPARE_STATUS_ARRAY_SPARE, .ro, .any, .no⟩,
   ⟨F.SPARE_STATUS_LINK_SPARE, .ro, .any, .no⟩], 0x0⟩

/-- CFG_REJECT (R155). -/
def reg_CFG_REJECT : RegSpec := ⟨0x48,
  [⟨F.CFG_REJECT_SET, .w1c, .any, .no⟩,
   ⟨F.CFG_REJECT_MULTI, .w1c, .any, .no⟩,
   ⟨F.CFG_REJECT_ADDR, .ro, .any, .no⟩,
   ⟨F.CFG_REJECT_SRC, .ro, .any, .no⟩], 0x0⟩

/-- FW_VERSION (R706). -/
def reg_FW_VERSION : RegSpec := ⟨0x50,
  [⟨F.FW_VERSION_BUILD, .ro, .any, .part⟩,
   ⟨F.FW_VERSION_MINOR, .ro, .any, .part⟩,
   ⟨F.FW_VERSION_MAJOR, .ro, .any, .part⟩,
   ⟨F.FW_VERSION_SVN, .ro, .any, .part⟩,
   ⟨F.FW_VERSION_COPY, .ro, .any, .part⟩], 0x0⟩

/-- BOOT_STATUS (R707). -/
def reg_BOOT_STATUS : RegSpec := ⟨0x58,
  [⟨F.BOOT_STATUS_STAGE, .ro, .any, .always⟩,
   ⟨F.BOOT_STATUS_ERROR, .ro, .any, .always⟩,
   ⟨F.BOOT_STATUS_DEBUG_OPEN, .ro, .any, .always⟩], 0x0⟩

/-- BOOT_CFG (R707). -/
def reg_BOOT_CFG : RegSpec := ⟨0x60,
  [⟨F.BOOT_CFG_WAIT_LOCK, .rw, .any, .always⟩], 0x0⟩

/-- MAP_IMG (R708). -/
def reg_MAP_IMG : RegSpec := ⟨0x68,
  [⟨F.MAP_IMG_GO, .wo, .any, .no⟩,
   ⟨F.MAP_IMG_BUSY, .ro, .any, .no⟩,
   ⟨F.MAP_IMG_DONE, .w1c, .any, .no⟩,
   ⟨F.MAP_IMG_ADDR, .rw, .any, .no⟩], 0x0⟩

/-- TIME_NOW_NS (R63). -/
def reg_TIME_NOW_NS : RegSpec := ⟨0x100,
  [⟨F.TIME_NOW_NS_NS, .ro, .any, .always⟩], 0x0⟩

/-- TIME_NOW_FRAC (R63). -/
def reg_TIME_NOW_FRAC : RegSpec := ⟨0x108,
  [⟨F.TIME_NOW_FRAC_FRAC, .ro, .any, .always⟩,
   ⟨F.TIME_NOW_FRAC_NS_LOW, .ro, .any, .always⟩], 0x0⟩

/-- TIME_STATE (R92). -/
def reg_TIME_STATE : RegSpec := ⟨0x110,
  [⟨F.TIME_STATE_STATE, .ro, .any, .always⟩,
   ⟨F.TIME_STATE_SOURCE, .ro, .any, .always⟩,
   ⟨F.TIME_STATE_FREQ_10M, .ro, .any, .always⟩,
   ⟨F.TIME_STATE_WARM, .ro, .any, .always⟩,
   ⟨F.TIME_STATE_PTP_ST, .ro, .any, .always⟩,
   ⟨F.TIME_STATE_PPS_ST, .ro, .any, .always⟩,
   ⟨F.TIME_STATE_F10_ST, .ro, .any, .always⟩,
   ⟨F.TIME_STATE_LINK_ST, .ro, .any, .always⟩,
   ⟨F.TIME_STATE_LINK_SEL, .ro, .any, .always⟩,
   ⟨F.TIME_STATE_HOPS, .ro, .any, .always⟩,
   ⟨F.TIME_STATE_STEP_PEND, .ro, .any, .always⟩,
   ⟨F.TIME_STATE_STEPPED, .w1c, .any, .always⟩,
   ⟨F.TIME_STATE_GUARD_HIT, .w1c, .any, .always⟩,
   ⟨F.TIME_STATE_DROOP_OVER, .w1c, .any, .always⟩,
   ⟨F.TIME_STATE_REFUSED, .w1c, .any, .always⟩,
   ⟨F.TIME_STATE_HOLD_ROUNDS, .ro, .any, .always⟩,
   ⟨F.TIME_STATE_SET_PEND, .ro, .any, .always⟩], 0xf000000⟩

/-- TIME_OFFSET (R93). -/
def reg_TIME_OFFSET : RegSpec := ⟨0x118,
  [⟨F.TIME_OFFSET_OFFSET, .ro, .any, .always⟩,
   ⟨F.TIME_OFFSET_FREQ, .ro, .any, .always⟩,
   ⟨F.TIME_OFFSET_UTC_OFS, .ro, .any, .always⟩], 0x0⟩

/-- TIME_REF_CFG (R74). -/
def reg_TIME_REF_CFG : RegSpec := ⟨0x120,
  [⟨F.TIME_REF_CFG_PTP_EN, .rw, .any, .no⟩,
   ⟨F.TIME_REF_CFG_PPS_EN, .rw, .any, .no⟩,
   ⟨F.TIME_REF_CFG_F10_EN, .rw, .any, .no⟩,
   ⟨F.TIME_REF_CFG_LINK_EN, .rw, .any, .no⟩,
   ⟨F.TIME_REF_CFG_PTP_PRIO, .rw, .range 0 2, .no⟩,
   ⟨F.TIME_REF_CFG_PPS_PRIO, .rw, .range 0 2, .no⟩,
   ⟨F.TIME_REF_CFG_LINK_PRIO, .rw, .range 0 2, .no⟩,
   ⟨F.TIME_REF_CFG_PPS_EDGE, .rw, .any, .no⟩,
   ⟨F.TIME_REF_CFG_HOLD_LIMIT, .rw, .range 1 19, .no⟩,
   ⟨F.TIME_REF_CFG_PTP_DOMAIN, .rw, .any, .no⟩,
   ⟨F.TIME_REF_CFG_PTP_TRANSPORT, .rw, .range 0 2, .no⟩], 0x13240f⟩

/-- TIME_REF_DELAY (R75). -/
def reg_TIME_REF_DELAY : RegSpec := ⟨0x128,
  [⟨F.TIME_REF_DELAY_PPS_DELAY, .rw, .any, .no⟩,
   ⟨F.TIME_REF_DELAY_PTP_ASYM, .rw, .any, .no⟩], 0x0⟩

/-- TIME_CTL (R91). -/
def reg_TIME_CTL : RegSpec := ⟨0x130,
  [⟨F.TIME_CTL_SET, .wo, .any, .no⟩,
   ⟨F.TIME_CTL_AT_PPS, .wo, .any, .no⟩,
   ⟨F.TIME_CTL_STEP_OK, .wo, .any, .no⟩,
   ⟨F.TIME_CTL_CANCEL, .wo, .any, .no⟩], 0x0⟩

/-- TIME_SET_NS (R91). -/
def reg_TIME_SET_NS : RegSpec := ⟨0x138,
  [⟨F.TIME_SET_NS_VALUE, .rw, .any, .no⟩], 0x0⟩

/-- PWR_PLVL (R636). -/
def reg_PWR_PLVL : RegSpec := ⟨0x200,
  [⟨F.PWR_PLVL_TARGET, .rw, .any, .no⟩,
   ⟨F.PWR_PLVL_CURRENT, .ro, .any, .no⟩,
   ⟨F.PWR_PLVL_PEND, .ro, .any, .no⟩,
   ⟨F.PWR_PLVL_REFUSED, .w1c, .any, .no⟩,
   ⟨F.PWR_PLVL_REASON, .ro, .any, .no⟩,
   ⟨F.PWR_PLVL_AT_ROUND, .ro, .any, .no⟩], 0x0⟩

/-- RECOV_CFG (R581). -/
def reg_RECOV_CFG : RegSpec := ⟨0x208,
  [⟨F.RECOV_CFG_DRAIN_BEATS, .rw, .range 16 1024, .no⟩,
   ⟨F.RECOV_CFG_AUTO_ESC, .rw, .any, .no⟩,
   ⟨F.RECOV_CFG_AUTO_CYCLE, .rw, .any, .no⟩], 0x880⟩

/-- ENGINE_RESET (R581). -/
def reg_ENGINE_RESET : RegSpec := ⟨0x210,
  [⟨F.ENGINE_RESET_KEY, .wo, .range 0x5A3C 0x5A3C, .no⟩,
   ⟨F.ENGINE_RESET_CYCLE, .wo, .any, .no⟩], 0x0⟩

/-- RESET_LOG (R581). -/
def reg_RESET_LOG : RegSpec := ⟨0x218,
  [⟨F.RESET_LOG_KIND, .ro, .any, .always⟩,
   ⟨F.RESET_LOG_HOST_LOST, .w1c, .any, .always⟩,
   ⟨F.RESET_LOG_CAUSE, .ro, .any, .always⟩], 0x0⟩

/-- RESET_TIME (R581). -/
def reg_RESET_TIME : RegSpec := ⟨0x220,
  [⟨F.RESET_TIME_NS, .ro, .any, .always⟩], 0x0⟩

/-- CAPT_CFG (R565). -/
def reg_CAPT_CFG : RegSpec := ⟨0x228,
  [⟨F.CAPT_CFG_EN, .rw, .any, .always⟩,
   ⟨F.CAPT_CFG_ADDR, .rw, .any, .always⟩], 0x0⟩

/-- CAPT_STATUS (R565). -/
def reg_CAPT_STATUS : RegSpec := ⟨0x230,
  [⟨F.CAPT_STATUS_SEQ, .ro, .any, .always⟩,
   ⟨F.CAPT_STATUS_NEXT, .ro, .any, .always⟩,
   ⟨F.CAPT_STATUS_FAIL, .w1c, .any, .always⟩], 0x0⟩

/-- NET_CFG (R474). -/
def reg_NET_CFG : RegSpec := ⟨0x300,
  [⟨F.NET_CFG_HORIZON, .rw, .range 1 65535, .no⟩], 0x1000⟩

/-- ADM_SHARE (R547). -/
def reg_ADM_SHARE : RegSpec := ⟨0x308,
  [⟨F.ADM_SHARE_SHARE_WAFER, .rw, .range 1 16, .no⟩,
   ⟨F.ADM_SHARE_SHARE_MEM, .rw, .any, .no⟩,
   ⟨F.ADM_SHARE_SHARE_LINK, .rw, .any, .no⟩], 0x4210⟩

/-- HALL_COORD (R506). -/
def reg_HALL_COORD : RegSpec := ⟨0x310,
  [⟨F.HALL_COORD_X, .rw, .any, .no⟩,
   ⟨F.HALL_COORD_Y, .rw, .any, .no⟩,
   ⟨F.HALL_COORD_Z, .rw, .any, .no⟩,
   ⟨F.HALL_COORD_W, .rw, .any, .no⟩], 0x0⟩

/-- GRP_CHG (R513). -/
def reg_GRP_CHG : RegSpec := ⟨0x318,
  [⟨F.GRP_CHG_GROUP, .wo, .any, .no⟩,
   ⟨F.GRP_CHG_GO, .wo, .any, .no⟩], 0x0⟩

/-- GRP_CHG_AT (R513). -/
def reg_GRP_CHG_AT : RegSpec := ⟨0x320,
  [⟨F.GRP_CHG_AT_ROUND, .rw, .any, .no⟩], 0x0⟩

/-- GRP_STAGE_HALL (R509). -/
def reg_GRP_STAGE_HALL : RegSpec := ⟨0x328,
  [⟨F.GRP_STAGE_HALL_X_LO, .rw, .any, .no⟩,
   ⟨F.GRP_STAGE_HALL_X_N, .rw, .any, .no⟩,
   ⟨F.GRP_STAGE_HALL_Y_LO, .rw, .any, .no⟩,
   ⟨F.GRP_STAGE_HALL_Y_N, .rw, .any, .no⟩,
   ⟨F.GRP_STAGE_HALL_Z_LO, .rw, .any, .no⟩,
   ⟨F.GRP_STAGE_HALL_Z_N, .rw, .any, .no⟩,
   ⟨F.GRP_STAGE_HALL_W_LO, .rw, .any, .no⟩,
   ⟨F.GRP_STAGE_HALL_W_N, .rw, .any, .no⟩], 0x0⟩

/-- GRP_STAGE_EXCL0 (R511). -/
def reg_GRP_STAGE_EXCL0 : RegSpec := ⟨0x330,
  [⟨F.GRP_STAGE_EXCL0_X0, .rw, .any, .no⟩,
   ⟨F.GRP_STAGE_EXCL0_Y0, .rw, .any, .no⟩,
   ⟨F.GRP_STAGE_EXCL0_Z0, .rw, .any, .no⟩,
   ⟨F.GRP_STAGE_EXCL0_W0, .rw, .any, .no⟩,
   ⟨F.GRP_STAGE_EXCL0_V0, .rw, .any, .no⟩,
   ⟨F.GRP_STAGE_EXCL0_X1, .rw, .any, .no⟩,
   ⟨F.GRP_STAGE_EXCL0_Y1, .rw, .any, .no⟩,
   ⟨F.GRP_STAGE_EXCL0_Z1, .rw, .any, .no⟩,
   ⟨F.GRP_STAGE_EXCL0_W1, .rw, .any, .no⟩,
   ⟨F.GRP_STAGE_EXCL0_V1, .rw, .any, .no⟩,
   ⟨F.GRP_STAGE_EXCL0_X2, .rw, .any, .no⟩,
   ⟨F.GRP_STAGE_EXCL0_Y2, .rw, .any, .no⟩,
   ⟨F.GRP_STAGE_EXCL0_Z2, .rw, .any, .no⟩,
   ⟨F.GRP_STAGE_EXCL0_W2, .rw, .any, .no⟩,
   ⟨F.GRP_STAGE_EXCL0_V2, .rw, .any, .no⟩], 0x0⟩

/-- GRP_STAGE_EXCL1 (R511). -/
def reg_GRP_STAGE_EXCL1 : RegSpec := ⟨0x338,
  [⟨F.GRP_STAGE_EXCL1_X0, .rw, .any, .no⟩,
   ⟨F.GRP_STAGE_EXCL1_Y0, .rw, .any, .no⟩,
   ⟨F.GRP_STAGE_EXCL1_Z0, .rw, .any, .no⟩,
   ⟨F.GRP_STAGE_EXCL1_W0, .rw, .any, .no⟩,
   ⟨F.GRP_STAGE_EXCL1_V0, .rw, .any, .no⟩,
   ⟨F.GRP_STAGE_EXCL1_X1, .rw, .any, .no⟩,
   ⟨F.GRP_STAGE_EXCL1_Y1, .rw, .any, .no⟩,
   ⟨F.GRP_STAGE_EXCL1_Z1, .rw, .any, .no⟩,
   ⟨F.GRP_STAGE_EXCL1_W1, .rw, .any, .no⟩,
   ⟨F.GRP_STAGE_EXCL1_V1, .rw, .any, .no⟩,
   ⟨F.GRP_STAGE_EXCL1_X2, .rw, .any, .no⟩,
   ⟨F.GRP_STAGE_EXCL1_Y2, .rw, .any, .no⟩,
   ⟨F.GRP_STAGE_EXCL1_Z2, .rw, .any, .no⟩,
   ⟨F.GRP_STAGE_EXCL1_W2, .rw, .any, .no⟩,
   ⟨F.GRP_STAGE_EXCL1_V2, .rw, .any, .no⟩], 0x0⟩

/-- GRP_STAGE_EXCL2 (R511). -/
def reg_GRP_STAGE_EXCL2 : RegSpec := ⟨0x340,
  [⟨F.GRP_STAGE_EXCL2_X0, .rw, .any, .no⟩,
   ⟨F.GRP_STAGE_EXCL2_Y0, .rw, .any, .no⟩,
   ⟨F.GRP_STAGE_EXCL2_Z0, .rw, .any, .no⟩,
   ⟨F.GRP_STAGE_EXCL2_W0, .rw, .any, .no⟩,
   ⟨F.GRP_STAGE_EXCL2_V0, .rw, .any, .no⟩,
   ⟨F.GRP_STAGE_EXCL2_X1, .rw, .any, .no⟩,
   ⟨F.GRP_STAGE_EXCL2_Y1, .rw, .any, .no⟩,
   ⟨F.GRP_STAGE_EXCL2_Z1, .rw, .any, .no⟩,
   ⟨F.GRP_STAGE_EXCL2_W1, .rw, .any, .no⟩,
   ⟨F.GRP_STAGE_EXCL2_V1, .rw, .any, .no⟩,
   ⟨F.GRP_STAGE_EXCL2_X2, .rw, .any, .no⟩,
   ⟨F.GRP_STAGE_EXCL2_Y2, .rw, .any, .no⟩,
   ⟨F.GRP_STAGE_EXCL2_Z2, .rw, .any, .no⟩,
   ⟨F.GRP_STAGE_EXCL2_W2, .rw, .any, .no⟩,
   ⟨F.GRP_STAGE_EXCL2_V2, .rw, .any, .no⟩], 0x0⟩

/-- TRACE_CFG (R673). -/
def reg_TRACE_CFG : RegSpec := ⟨0x400,
  [⟨F.TRACE_CFG_TILE, .rw, .range 0 10799, .no⟩,
   ⟨F.TRACE_CFG_EN, .rw, .any, .no⟩,
   ⟨F.TRACE_CFG_EVT, .rw, .range 0 2, .no⟩], 0x0⟩

/-- TRACE_STATUS (R673). -/
def reg_TRACE_STATUS : RegSpec := ⟨0x408,
  [⟨F.TRACE_STATUS_COUNT, .ro, .any, .no⟩,
   ⟨F.TRACE_STATUS_DROPPED, .ro, .any, .no⟩,
   ⟨F.TRACE_STATUS_DROP_SEEN, .w1c, .any, .no⟩], 0x0⟩

/-- TRACE_DATA0 (R673). -/
def reg_TRACE_DATA0 : RegSpec := ⟨0x410,
  [⟨F.TRACE_DATA0_W0, .ro, .any, .no⟩], 0x0⟩

/-- TRACE_DATA1 (R673). -/
def reg_TRACE_DATA1 : RegSpec := ⟨0x418,
  [⟨F.TRACE_DATA1_W1, .ro, .any, .no⟩], 0x0⟩

/-- DBG_CONFLICT (R673). -/
def reg_DBG_CONFLICT : RegSpec := ⟨0x420,
  [⟨F.DBG_CONFLICT_TRACE_PINS, .w1c, .any, .no⟩,
   ⟨F.DBG_CONFLICT_EVT_PIN, .w1c, .any, .no⟩,
   ⟨F.DBG_CONFLICT_TSTORE, .w1c, .any, .no⟩,
   ⟨F.DBG_CONFLICT_TRACE_BUF, .w1c, .any, .no⟩,
   ⟨F.DBG_CONFLICT_REJECT, .w1c, .any, .no⟩,
   ⟨F.DBG_CONFLICT_TAKE, .w1c, .any, .no⟩], 0x0⟩

/-- IRQ_STATUS (R709). -/
def reg_IRQ_STATUS : RegSpec := ⟨0x500,
  [⟨F.IRQ_STATUS_TIME, .w1c, .any, .no⟩,
   ⟨F.IRQ_STATUS_GUARD, .w1c, .any, .no⟩,
   ⟨F.IRQ_STATUS_CAPT, .w1c, .any, .no⟩,
   ⟨F.IRQ_STATUS_BOOT, .w1c, .any, .no⟩,
   ⟨F.IRQ_STATUS_MGMT, .w1c, .any, .no⟩,
   ⟨F.IRQ_STATUS_REJECT, .w1c, .any, .no⟩,
   ⟨F.IRQ_STATUS_PART, .w1c, .any, .no⟩], 0x0⟩

/-- IRQ_MASK (R709). -/
def reg_IRQ_MASK : RegSpec := ⟨0x508,
  [⟨F.IRQ_MASK_TIME, .rw, .any, .no⟩,
   ⟨F.IRQ_MASK_GUARD, .rw, .any, .no⟩,
   ⟨F.IRQ_MASK_CAPT, .rw, .any, .no⟩,
   ⟨F.IRQ_MASK_BOOT, .rw, .any, .no⟩,
   ⟨F.IRQ_MASK_MGMT, .rw, .any, .no⟩,
   ⟨F.IRQ_MASK_REJECT, .rw, .any, .no⟩,
   ⟨F.IRQ_MASK_PART, .rw, .any, .no⟩], 0xffff003f⟩

/-- APERTURE (R710). -/
def reg_APERTURE : RegSpec := ⟨0x510,
  [⟨F.APERTURE_PART, .rw, .any, .no⟩,
   ⟨F.APERTURE_EN, .rw, .any, .no⟩,
   ⟨F.APERTURE_BASE_GIB, .rw, .range 0 17279, .no⟩], 0x0⟩

/-- The registers of the engine page (R678). -/
def engineRegs : List RegSpec :=
  [reg_ENGINE_INFO, reg_DUM_INFO, reg_DUM_DIGEST_0, reg_DUM_DIGEST_1, reg_DUM_DIGEST_2, reg_DUM_DIGEST_3, reg_MAP_SEL, reg_MAP_RESULT, reg_SPARE_STATUS, reg_CFG_REJECT, reg_FW_VERSION, reg_BOOT_STATUS, reg_BOOT_CFG, reg_MAP_IMG, reg_TIME_NOW_NS, reg_TIME_NOW_FRAC] ++
  [reg_TIME_STATE, reg_TIME_OFFSET, reg_TIME_REF_CFG, reg_TIME_REF_DELAY, reg_TIME_CTL, reg_TIME_SET_NS, reg_PWR_PLVL, reg_RECOV_CFG, reg_ENGINE_RESET, reg_RESET_LOG, reg_RESET_TIME, reg_CAPT_CFG, reg_CAPT_STATUS, reg_NET_CFG, reg_ADM_SHARE, reg_HALL_COORD] ++
  [reg_GRP_CHG, reg_GRP_CHG_AT, reg_GRP_STAGE_HALL, reg_GRP_STAGE_EXCL0, reg_GRP_STAGE_EXCL1, reg_GRP_STAGE_EXCL2, reg_TRACE_CFG, reg_TRACE_STATUS, reg_TRACE_DATA0, reg_TRACE_DATA1, reg_DBG_CONFLICT, reg_IRQ_STATUS, reg_IRQ_MASK, reg_APERTURE]

/-- PART_RECT (R541). -/
def reg_PART_RECT : RegSpec := ⟨0x0,
  [⟨F.PART_RECT_X_LO, .rw, .range 0 23, .no⟩,
   ⟨F.PART_RECT_X_N, .rw, .any, .no⟩,
   ⟨F.PART_RECT_Y_LO, .rw, .range 0 29, .no⟩,
   ⟨F.PART_RECT_Y_N, .rw, .any, .no⟩], 0x0⟩

/-- PART_CTL (R542). -/
def reg_PART_CTL : RegSpec := ⟨0x8,
  [⟨F.PART_CTL_CMD, .wo, .range 0 2, .no⟩], 0x0⟩

/-- PART_STATUS (R543). -/
def reg_PART_STATUS : RegSpec := ⟨0x10,
  [⟨F.PART_STATUS_STATE, .ro, .any, .no⟩,
   ⟨F.PART_STATUS_REFUSE, .ro, .any, .no⟩,
   ⟨F.PART_STATUS_REFUSED, .w1c, .any, .no⟩,
   ⟨F.PART_STATUS_SUSP, .ro, .any, .no⟩,
   ⟨F.PART_STATUS_LIVE, .ro, .any, .no⟩,
   ⟨F.PART_STATUS_PART_SEQ, .ro, .any, .no⟩], 0x0⟩

/-- PART_CFG (R544). -/
def reg_PART_CFG : RegSpec := ⟨0x18,
  [⟨F.PART_CFG_STRICT, .rw, .any, .no⟩], 0x0⟩

/-- ADM_ADDR (R545). -/
def reg_ADM_ADDR : RegSpec := ⟨0x20,
  [⟨F.ADM_ADDR_ADDR, .rw, .any, .no⟩], 0x0⟩

/-- ADM_CTL (R545). -/
def reg_ADM_CTL : RegSpec := ⟨0x28,
  [⟨F.ADM_CTL_OP, .wo, .range 0 2, .no⟩,
   ⟨F.ADM_CTL_TT_ID, .wo, .any, .no⟩], 0x0⟩

/-- ADM_STATUS (R546). -/
def reg_ADM_STATUS : RegSpec := ⟨0x30,
  [⟨F.ADM_STATUS_BUSY, .ro, .any, .no⟩,
   ⟨F.ADM_STATUS_RESULT, .ro, .any, .no⟩,
   ⟨F.ADM_STATUS_TT_ID, .ro, .any, .no⟩,
   ⟨F.ADM_STATUS_ENTRY, .ro, .any, .no⟩,
   ⟨F.ADM_STATUS_SEQ, .ro, .any, .no⟩], 0x0⟩

/-- BADGER_LIMIT (R569). -/
def reg_BADGER_LIMIT : RegSpec := ⟨0x38,
  [⟨F.BADGER_LIMIT_QUEUE_BEATS, .rw, .range 4096 65535, .no⟩,
   ⟨F.BADGER_LIMIT_CMD_ROUNDS, .rw, .range 1 65535, .no⟩,
   ⟨F.BADGER_LIMIT_EN, .rw, .any, .no⟩,
   ⟨F.BADGER_LIMIT_ACTION, .rw, .any, .no⟩], 0x304004000⟩

/-- BADGER_STATUS (R569). -/
def reg_BADGER_STATUS : RegSpec := ⟨0x40,
  [⟨F.BADGER_STATUS_HUNG, .w1c, .any, .no⟩,
   ⟨F.BADGER_STATUS_MULTI, .w1c, .any, .no⟩,
   ⟨F.BADGER_STATUS_KIND, .ro, .any, .no⟩,
   ⟨F.BADGER_STATUS_QUEUE, .ro, .any, .no⟩,
   ⟨F.BADGER_STATUS_CTX, .ro, .any, .no⟩,
   ⟨F.BADGER_STATUS_TILE, .ro, .any, .no⟩], 0x0⟩

/-- RECOV_CTL (R571). -/
def reg_RECOV_CTL : RegSpec := ⟨0x48,
  [⟨F.RECOV_CTL_RESET, .wo, .any, .no⟩,
   ⟨F.RECOV_CTL_SOLO_EN, .rw, .any, .no⟩,
   ⟨F.RECOV_CTL_SOLO_CTX, .rw, .any, .no⟩,
   ⟨F.RECOV_CTL_TRESET, .wo, .any, .no⟩,
   ⟨F.RECOV_CTL_TILE, .wo, .any, .no⟩], 0x0⟩

/-- RECOV_STATUS (R578). -/
def reg_RECOV_STATUS : RegSpec := ⟨0x50,
  [⟨F.RECOV_STATUS_STEP, .ro, .any, .no⟩,
   ⟨F.RECOV_STATUS_VACATED, .w1c, .any, .no⟩,
   ⟨F.RECOV_STATUS_ESCALATED, .w1c, .any, .no⟩,
   ⟨F.RECOV_STATUS_LAST_US, .ro, .any, .no⟩,
   ⟨F.RECOV_STATUS_LATE_DISCARDS, .ro, .any, .no⟩], 0x0⟩

/-- PROV_CACHE (R601). -/
def reg_PROV_CACHE : RegSpec := ⟨0x58,
  [⟨F.PROV_CACHE_EN, .rw, .any, .no⟩,
   ⟨F.PROV_CACHE_CLEAR, .wo, .any, .no⟩,
   ⟨F.PROV_CACHE_VALID, .ro, .any, .no⟩,
   ⟨F.PROV_CACHE_HITS, .ro, .any, .no⟩], 0x1⟩

/-- HIB_CTL (R637). -/
def reg_HIB_CTL : RegSpec := ⟨0x60,
  [⟨F.HIB_CTL_CMD, .wo, .range 0 2, .no⟩], 0x0⟩

/-- HIB_CFG (R637). -/
def reg_HIB_CFG : RegSpec := ⟨0x68,
  [⟨F.HIB_CFG_LAYERS, .rw, .any, .no⟩,
   ⟨F.HIB_CFG_ALARM_EN, .rw, .any, .no⟩], 0xfff⟩

/-- HIB_STATUS (R637). -/
def reg_HIB_STATUS : RegSpec := ⟨0x70,
  [⟨F.HIB_STATUS_PHASE, .ro, .any, .no⟩,
   ⟨F.HIB_STATUS_REFUSE, .ro, .any, .no⟩,
   ⟨F.HIB_STATUS_REFUSED, .w1c, .any, .no⟩,
   ⟨F.HIB_STATUS_ABORTED, .w1c, .any, .no⟩,
   ⟨F.HIB_STATUS_WAKE_FAIL, .w1c, .any, .no⟩,
   ⟨F.HIB_STATUS_RETAINED, .ro, .any, .no⟩,
   ⟨F.HIB_STATUS_LAST_WAKE_US, .ro, .any, .no⟩], 0x0⟩

/-- HIB_WAKE_AT (R634). -/
def reg_HIB_WAKE_AT : RegSpec := ⟨0x78,
  [⟨F.HIB_WAKE_AT_BEAT, .rw, .any, .no⟩], 0x0⟩

/-- PART_WAKE_SOURCE (R633). -/
def reg_PART_WAKE_SOURCE : RegSpec := ⟨0x80,
  [⟨F.PART_WAKE_SOURCE_SOURCE, .ro, .any, .no⟩,
   ⟨F.PART_WAKE_SOURCE_STATE, .ro, .any, .no⟩,
   ⟨F.PART_WAKE_SOURCE_CAUSE, .ro, .any, .no⟩,
   ⟨F.PART_WAKE_SOURCE_UNIT, .ro, .any, .no⟩], 0x0⟩

/-- PART_PAD_RELEASE (R635). -/
def reg_PART_PAD_RELEASE : RegSpec := ⟨0x88,
  [⟨F.PART_PAD_RELEASE_REL, .wo, .any, .no⟩,
   ⟨F.PART_PAD_RELEASE_HELD, .ro, .any, .no⟩], 0x0⟩

/-- FOX_DUMP_BASE (R658). -/
def reg_FOX_DUMP_BASE : RegSpec := ⟨0x90,
  [⟨F.FOX_DUMP_BASE_OFFSET, .rw, .mult 4096, .no⟩,
   ⟨F.FOX_DUMP_BASE_SLOTS, .rw, .any, .no⟩], 0x0⟩

/-- FOX_DUMP_PERIOD (R658). -/
def reg_FOX_DUMP_PERIOD : RegSpec := ⟨0x98,
  [⟨F.FOX_DUMP_PERIOD_BEATS, .rw, .zeroOr 40 16777215, .no⟩], 0x0⟩

/-- FOX_LATCH_AT (R658). -/
def reg_FOX_LATCH_AT : RegSpec := ⟨0xa0,
  [⟨F.FOX_LATCH_AT_NS, .rw, .any, .no⟩], 0x0⟩

/-- FOX_RING_PTR (R658). -/
def reg_FOX_RING_PTR : RegSpec := ⟨0xa8,
  [⟨F.FOX_RING_PTR_TAIL, .ro, .any, .no⟩,
   ⟨F.FOX_RING_PTR_HEAD, .rw, .any, .no⟩], 0x0⟩

/-- FOX_STATUS (R658). -/
def reg_FOX_STATUS : RegSpec := ⟨0xb0,
  [⟨F.FOX_STATUS_BUSY, .ro, .any, .no⟩,
   ⟨F.FOX_STATUS_ARMED, .ro, .any, .no⟩,
   ⟨F.FOX_STATUS_SKIP_SEEN, .w1c, .any, .no⟩,
   ⟨F.FOX_STATUS_SKIPPED, .ro, .any, .no⟩], 0x0⟩

/-- DBG_PART_CTL (R673). -/
def reg_DBG_PART_CTL : RegSpec := ⟨0xb8,
  [⟨F.DBG_PART_CTL_OP, .rw, .range 0 2, .no⟩,
   ⟨F.DBG_PART_CTL_ARMED, .ro, .any, .no⟩], 0x0⟩

/-- DBG_PART_AT (R673). -/
def reg_DBG_PART_AT : RegSpec := ⟨0xc0,
  [⟨F.DBG_PART_AT_NS, .rw, .any, .no⟩], 0x0⟩

/-- The registers of the partition page (R678). -/
def partitionRegs : List RegSpec :=
  [reg_PART_RECT, reg_PART_CTL, reg_PART_STATUS, reg_PART_CFG, reg_ADM_ADDR, reg_ADM_CTL, reg_ADM_STATUS, reg_BADGER_LIMIT, reg_BADGER_STATUS, reg_RECOV_CTL, reg_RECOV_STATUS, reg_PROV_CACHE, reg_HIB_CTL, reg_HIB_CFG, reg_HIB_STATUS, reg_HIB_WAKE_AT] ++
  [reg_PART_WAKE_SOURCE, reg_PART_PAD_RELEASE, reg_FOX_DUMP_BASE, reg_FOX_DUMP_PERIOD, reg_FOX_LATCH_AT, reg_FOX_RING_PTR, reg_FOX_STATUS, reg_DBG_PART_CTL, reg_DBG_PART_AT]

/-- CTX_CFG (R549). -/
def reg_CTX_CFG : RegSpec := ⟨0x0,
  [⟨F.CTX_CFG_VALID, .rw, .any, .no⟩,
   ⟨F.CTX_CFG_PART, .rw, .any, .no⟩,
   ⟨F.CTX_CFG_QUEUES, .rw, .any, .no⟩], 0x0⟩

/-- CTX_QUOTA (R550). -/
def reg_CTX_QUOTA : RegSpec := ⟨0x8,
  [⟨F.CTX_QUOTA_MEM, .rw, .any, .no⟩,
   ⟨F.CTX_QUOTA_TT, .rw, .any, .no⟩], 0xffffffffffff⟩

/-- CTX_USE (R551). -/
def reg_CTX_USE : RegSpec := ⟨0x10,
  [⟨F.CTX_USE_MEM_USED, .ro, .any, .no⟩,
   ⟨F.CTX_USE_TT_USED, .ro, .any, .no⟩,
   ⟨F.CTX_USE_OVER_MEM, .ro, .any, .no⟩,
   ⟨F.CTX_USE_OVER_TT, .ro, .any, .no⟩], 0x0⟩

/-- CTX_FENCE (R561). -/
def reg_CTX_FENCE : RegSpec := ⟨0x18,
  [⟨F.CTX_FENCE_FENCE, .wo, .any, .no⟩,
   ⟨F.CTX_FENCE_RESET, .wo, .any, .no⟩,
   ⟨F.CTX_FENCE_FENCED, .ro, .any, .no⟩,
   ⟨F.CTX_FENCE_QUIESCED, .ro, .any, .no⟩,
   ⟨F.CTX_FENCE_RESETTING, .ro, .any, .no⟩,
   ⟨F.CTX_FENCE_SUSPECT, .w1c, .any, .no⟩,
   ⟨F.CTX_FENCE_GUILTY, .w1c, .any, .no⟩,
   ⟨F.CTX_FENCE_CAUSE, .ro, .any, .no⟩,
   ⟨F.CTX_FENCE_GEN, .ro, .any, .no⟩], 0x0⟩

/-- CTX_TRAIN_CFG (R381). -/
def reg_CTX_TRAIN_CFG : RegSpec := ⟨0x20,
  [⟨F.CTX_TRAIN_CFG_WAIT_MODE, .rw, .any, .no⟩,
   ⟨F.CTX_TRAIN_CFG_ALT_QMASK, .rw, .any, .no⟩,
   ⟨F.CTX_TRAIN_CFG_MIN_GAP, .rw, .range 1 4095, .no⟩], 0x100000⟩

/-- CTX_IDLE_0 (R382). -/
def reg_CTX_IDLE_0 : RegSpec := ⟨0x28,
  [⟨F.CTX_IDLE_0_PEER, .ro, .any, .no⟩,
   ⟨F.CTX_IDLE_0_COLL, .ro, .any, .no⟩], 0x0⟩

/-- CTX_IDLE_1 (R382). -/
def reg_CTX_IDLE_1 : RegSpec := ⟨0x30,
  [⟨F.CTX_IDLE_1_COVERED, .ro, .any, .no⟩,
   ⟨F.CTX_IDLE_1_LAG, .ro, .any, .no⟩], 0x0⟩

/-- CTX_EVENT (R712). -/
def reg_CTX_EVENT : RegSpec := ⟨0x38,
  [⟨F.CTX_EVENT_FENCED, .w1c, .any, .no⟩,
   ⟨F.CTX_EVENT_RESET_DONE, .w1c, .any, .no⟩], 0x0⟩

/-- CTX_APERTURE (R710). -/
def reg_CTX_APERTURE : RegSpec := ⟨0x40,
  [⟨F.CTX_APERTURE_EN, .rw, .any, .no⟩,
   ⟨F.CTX_APERTURE_BASE_GIB, .rw, .range 0 17279, .no⟩], 0x0⟩

/-- CTX_IRQ (R712). -/
def reg_CTX_IRQ : RegSpec := ⟨0x48,
  [⟨F.CTX_IRQ_VEC, .rw, .any, .no⟩,
   ⟨F.CTX_IRQ_EN, .rw, .any, .no⟩], 0x0⟩

/-- CTX_HWIN0 (R711). -/
def reg_CTX_HWIN0 : RegSpec := ⟨0x80,
  [⟨F.CTX_HWIN_BASE_MB, .rw, .any, .no⟩,
   ⟨F.CTX_HWIN_SIZE_MB, .rw, .any, .no⟩,
   ⟨F.CTX_HWIN_RD, .rw, .any, .no⟩,
   ⟨F.CTX_HWIN_WR, .rw, .any, .no⟩], 0x0⟩

/-- CTX_HWIN1 (R711). -/
def reg_CTX_HWIN1 : RegSpec := ⟨0x88,
  [⟨(F.CTX_HWIN_BASE_MB.at 8), .rw, .any, .no⟩,
   ⟨(F.CTX_HWIN_SIZE_MB.at 8), .rw, .any, .no⟩,
   ⟨(F.CTX_HWIN_RD.at 8), .rw, .any, .no⟩,
   ⟨(F.CTX_HWIN_WR.at 8), .rw, .any, .no⟩], 0x0⟩

/-- CTX_HWIN2 (R711). -/
def reg_CTX_HWIN2 : RegSpec := ⟨0x90,
  [⟨(F.CTX_HWIN_BASE_MB.at 16), .rw, .any, .no⟩,
   ⟨(F.CTX_HWIN_SIZE_MB.at 16), .rw, .any, .no⟩,
   ⟨(F.CTX_HWIN_RD.at 16), .rw, .any, .no⟩,
   ⟨(F.CTX_HWIN_WR.at 16), .rw, .any, .no⟩], 0x0⟩

/-- CTX_HWIN3 (R711). -/
def reg_CTX_HWIN3 : RegSpec := ⟨0x98,
  [⟨(F.CTX_HWIN_BASE_MB.at 24), .rw, .any, .no⟩,
   ⟨(F.CTX_HWIN_SIZE_MB.at 24), .rw, .any, .no⟩,
   ⟨(F.CTX_HWIN_RD.at 24), .rw, .any, .no⟩,
   ⟨(F.CTX_HWIN_WR.at 24), .rw, .any, .no⟩], 0x0⟩

/-- The registers of the context page (R678). -/
def contextRegs : List RegSpec :=
  [reg_CTX_CFG, reg_CTX_QUOTA, reg_CTX_USE, reg_CTX_FENCE, reg_CTX_TRAIN_CFG, reg_CTX_IDLE_0, reg_CTX_IDLE_1, reg_CTX_EVENT, reg_CTX_APERTURE, reg_CTX_IRQ, reg_CTX_HWIN0, reg_CTX_HWIN1, reg_CTX_HWIN2, reg_CTX_HWIN3]

/-- Q_BASE (R713). -/
def reg_Q_BASE : RegSpec := ⟨0x0,
  [⟨F.Q_BASE_ADDR, .rw, .any, .no⟩], 0x0⟩

/-- Q_CFG (R714). -/
def reg_Q_CFG : RegSpec := ⟨0x8,
  [⟨F.Q_CFG_EN, .rw, .any, .no⟩,
   ⟨F.Q_CFG_SIZE, .rw, .range 4 15, .no⟩,
   ⟨F.Q_CFG_VEC, .rw, .any, .no⟩,
   ⟨F.Q_CFG_IRQ_EN, .rw, .any, .no⟩], 0x8⟩

/-- Q_DB (R715). -/
def reg_Q_DB : RegSpec := ⟨0x10,
  [⟨F.Q_DB_TAIL, .wo, .any, .no⟩], 0x0⟩

/-- Q_PTR (R715). -/
def reg_Q_PTR : RegSpec := ⟨0x18,
  [⟨F.Q_PTR_HEAD, .ro, .any, .no⟩,
   ⟨F.Q_PTR_TAIL, .ro, .any, .no⟩,
   ⟨F.Q_PTR_DONE, .ro, .any, .no⟩,
   ⟨F.Q_PTR_RUN, .ro, .any, .no⟩,
   ⟨F.Q_PTR_PEERWAIT, .ro, .any, .no⟩], 0x0⟩

/-- CQ_BASE (R713). -/
def reg_CQ_BASE : RegSpec := ⟨0x20,
  [⟨F.CQ_BASE_ADDR, .rw, .any, .no⟩], 0x0⟩

/-- CQ_PTR (R716). -/
def reg_CQ_PTR : RegSpec := ⟨0x28,
  [⟨F.CQ_PTR_CHEAD, .rw, .any, .no⟩,
   ⟨F.CQ_PTR_CTAIL, .ro, .any, .no⟩,
   ⟨F.CQ_PTR_FULL, .w1c, .any, .no⟩], 0x0⟩

/-- The registers of the queue registers of a context page, less 0x100 + 0x40 × q (R678). -/
def queueRegs : List RegSpec :=
  [reg_Q_BASE, reg_Q_CFG, reg_Q_DB, reg_Q_PTR, reg_CQ_BASE, reg_CQ_PTR]

/-- GRP_CTRL (R508). -/
def reg_GRP_CTRL : RegSpec := ⟨0x0,
  [⟨F.GRP_CTRL_VALID, .rw, .any, .no⟩,
   ⟨F.GRP_CTRL_PART, .rw, .any, .no⟩,
   ⟨F.GRP_CTRL_AXES, .rw, .any, .no⟩], 0x0⟩

/-- GRP_HALL (R509). -/
def reg_GRP_HALL : RegSpec := ⟨0x8,
  [⟨F.GRP_HALL_X_LO, .rw, .any, .no⟩,
   ⟨F.GRP_HALL_X_N, .rw, .any, .no⟩,
   ⟨F.GRP_HALL_Y_LO, .rw, .any, .no⟩,
   ⟨F.GRP_HALL_Y_N, .rw, .any, .no⟩,
   ⟨F.GRP_HALL_Z_LO, .rw, .any, .no⟩,
   ⟨F.GRP_HALL_Z_N, .rw, .any, .no⟩,
   ⟨F.GRP_HALL_W_LO, .rw, .any, .no⟩,
   ⟨F.GRP_HALL_W_N, .rw, .any, .no⟩], 0x0⟩

/-- GRP_WAFER (R510). -/
def reg_GRP_WAFER : RegSpec := ⟨0x10,
  [⟨F.GRP_WAFER_I_LO, .rw, .any, .no⟩,
   ⟨F.GRP_WAFER_I_N, .rw, .range 1 120, .no⟩,
   ⟨F.GRP_WAFER_I_ST, .rw, .range 1 15, .no⟩,
   ⟨F.GRP_WAFER_J_LO, .rw, .any, .no⟩,
   ⟨F.GRP_WAFER_J_N, .rw, .range 1 90, .no⟩,
   ⟨F.GRP_WAFER_J_ST, .rw, .range 1 15, .no⟩], 0x0⟩

/-- GRP_EXCL0 (R511). -/
def reg_GRP_EXCL0 : RegSpec := ⟨0x18,
  [⟨F.GRP_EXCL0_X0, .rw, .any, .no⟩,
   ⟨F.GRP_EXCL0_Y0, .rw, .any, .no⟩,
   ⟨F.GRP_EXCL0_Z0, .rw, .any, .no⟩,
   ⟨F.GRP_EXCL0_W0, .rw, .any, .no⟩,
   ⟨F.GRP_EXCL0_V0, .rw, .any, .no⟩,
   ⟨F.GRP_EXCL0_X1, .rw, .any, .no⟩,
   ⟨F.GRP_EXCL0_Y1, .rw, .any, .no⟩,
   ⟨F.GRP_EXCL0_Z1, .rw, .any, .no⟩,
   ⟨F.GRP_EXCL0_W1, .rw, .any, .no⟩,
   ⟨F.GRP_EXCL0_V1, .rw, .any, .no⟩,
   ⟨F.GRP_EXCL0_X2, .rw, .any, .no⟩,
   ⟨F.GRP_EXCL0_Y2, .rw, .any, .no⟩,
   ⟨F.GRP_EXCL0_Z2, .rw, .any, .no⟩,
   ⟨F.GRP_EXCL0_W2, .rw, .any, .no⟩,
   ⟨F.GRP_EXCL0_V2, .rw, .any, .no⟩], 0x0⟩

/-- GRP_EXCL1 (R511). -/
def reg_GRP_EXCL1 : RegSpec := ⟨0x20,
  [⟨F.GRP_EXCL1_X0, .rw, .any, .no⟩,
   ⟨F.GRP_EXCL1_Y0, .rw, .any, .no⟩,
   ⟨F.GRP_EXCL1_Z0, .rw, .any, .no⟩,
   ⟨F.GRP_EXCL1_W0, .rw, .any, .no⟩,
   ⟨F.GRP_EXCL1_V0, .rw, .any, .no⟩,
   ⟨F.GRP_EXCL1_X1, .rw, .any, .no⟩,
   ⟨F.GRP_EXCL1_Y1, .rw, .any, .no⟩,
   ⟨F.GRP_EXCL1_Z1, .rw, .any, .no⟩,
   ⟨F.GRP_EXCL1_W1, .rw, .any, .no⟩,
   ⟨F.GRP_EXCL1_V1, .rw, .any, .no⟩,
   ⟨F.GRP_EXCL1_X2, .rw, .any, .no⟩,
   ⟨F.GRP_EXCL1_Y2, .rw, .any, .no⟩,
   ⟨F.GRP_EXCL1_Z2, .rw, .any, .no⟩,
   ⟨F.GRP_EXCL1_W2, .rw, .any, .no⟩,
   ⟨F.GRP_EXCL1_V2, .rw, .any, .no⟩], 0x0⟩

/-- GRP_EXCL2 (R511). -/
def reg_GRP_EXCL2 : RegSpec := ⟨0x28,
  [⟨F.GRP_EXCL2_X0, .rw, .any, .no⟩,
   ⟨F.GRP_EXCL2_Y0, .rw, .any, .no⟩,
   ⟨F.GRP_EXCL2_Z0, .rw, .any, .no⟩,
   ⟨F.GRP_EXCL2_W0, .rw, .any, .no⟩,
   ⟨F.GRP_EXCL2_V0, .rw, .any, .no⟩,
   ⟨F.GRP_EXCL2_X1, .rw, .any, .no⟩,
   ⟨F.GRP_EXCL2_Y1, .rw, .any, .no⟩,
   ⟨F.GRP_EXCL2_Z1, .rw, .any, .no⟩,
   ⟨F.GRP_EXCL2_W1, .rw, .any, .no⟩,
   ⟨F.GRP_EXCL2_V1, .rw, .any, .no⟩,
   ⟨F.GRP_EXCL2_X2, .rw, .any, .no⟩,
   ⟨F.GRP_EXCL2_Y2, .rw, .any, .no⟩,
   ⟨F.GRP_EXCL2_Z2, .rw, .any, .no⟩,
   ⟨F.GRP_EXCL2_W2, .rw, .any, .no⟩,
   ⟨F.GRP_EXCL2_V2, .rw, .any, .no⟩], 0x0⟩

/-- GRP_STATUS (R512). -/
def reg_GRP_STATUS : RegSpec := ⟨0x30,
  [⟨F.GRP_STATUS_EPOCH, .ro, .any, .no⟩,
   ⟨F.GRP_STATUS_NEXT_CSEQ, .ro, .any, .no⟩,
   ⟨F.GRP_STATUS_PEND, .ro, .any, .no⟩,
   ⟨F.GRP_STATUS_CHG_REFUSED, .w1c, .any, .no⟩], 0x0⟩

/-- The registers of the group page (R678). -/
def groupRegs : List RegSpec :=
  [reg_GRP_CTRL, reg_GRP_HALL, reg_GRP_WAFER, reg_GRP_EXCL0, reg_GRP_EXCL1, reg_GRP_EXCL2, reg_GRP_STATUS]

/-- LINK_CFG (R475). -/
def reg_LINK_CFG : RegSpec := ⟨0x0,
  [⟨F.LINK_CFG_EN, .rw, .any, .no⟩,
   ⟨F.LINK_CFG_RETRAIN, .wo, .any, .no⟩,
   ⟨F.LINK_CFG_CLR_CNT, .wo, .any, .no⟩,
   ⟨F.LINK_CFG_HORIZON, .rw, .range 1 65535, .no⟩,
   ⟨F.LINK_CFG_LANE_LIMIT, .rw, .range 1 4095, .no⟩], 0x400100001⟩

/-- LINK_STATUS (R476). -/
def reg_LINK_STATUS : RegSpec := ⟨0x8,
  [⟨F.LINK_STATUS_STATE, .ro, .any, .no⟩,
   ⟨F.LINK_STATUS_OFF_LANE, .ro, .any, .part⟩,
   ⟨F.LINK_STATUS_SPARE_USED, .ro, .any, .part⟩,
   ⟨F.LINK_STATUS_FAILED2, .ro, .any, .no⟩,
   ⟨F.LINK_STATUS_RD, .ro, .any, .no⟩,
   ⟨F.LINK_STATUS_LINK_BEATS, .ro, .any, .no⟩,
   ⟨F.LINK_STATUS_SWAP_PEND, .ro, .any, .no⟩,
   ⟨F.LINK_STATUS_CNT_SAT, .w1c, .any, .no⟩], 0x640⟩

/-- LINK_ERR_CNT (R477). -/
def reg_LINK_ERR_CNT : RegSpec := ⟨0x10,
  [⟨F.LINK_ERR_CNT_UNCORR, .ro, .any, .no⟩,
   ⟨F.LINK_ERR_CNT_RETRANS, .ro, .any, .no⟩,
   ⟨F.LINK_ERR_CNT_REFUSED, .ro, .any, .no⟩,
   ⟨F.LINK_ERR_CNT_DROPPED, .ro, .any, .no⟩], 0x0⟩

/-- LINK_TIME_CFG (R82). -/
def reg_LINK_TIME_CFG : RegSpec := ⟨0x18,
  [⟨F.LINK_TIME_CFG_ROLE, .rw, .range 0 2, .no⟩,
   ⟨F.LINK_TIME_CFG_ASYM, .rw, .any, .no⟩,
   ⟨F.LINK_TIME_CFG_UP_PRIO, .rw, .any, .no⟩], 0x0⟩

/-- LINK_TIME_STAT (R83). -/
def reg_LINK_TIME_STAT : RegSpec := ⟨0x20,
  [⟨F.LINK_TIME_STAT_OFFSET, .ro, .any, .no⟩,
   ⟨F.LINK_TIME_STAT_DELAY, .ro, .any, .no⟩,
   ⟨F.LINK_TIME_STAT_BAD, .ro, .any, .no⟩,
   ⟨F.LINK_TIME_STAT_PEER_STATE, .ro, .any, .no⟩,
   ⟨F.LINK_TIME_STAT_PEER_HOPS, .ro, .any, .no⟩,
   ⟨F.LINK_TIME_STAT_PEER_DOWN, .ro, .any, .no⟩], 0x79000000000000⟩

/-- LINK_AXIS (R507). -/
def reg_LINK_AXIS : RegSpec := ⟨0x28,
  [⟨F.LINK_AXIS_AXIS, .rw, .range 0 4, .no⟩,
   ⟨F.LINK_AXIS_DIR, .rw, .any, .no⟩], 0x0⟩

/-- LINK_OWNER (R548). -/
def reg_LINK_OWNER : RegSpec := ⟨0x30,
  [⟨F.LINK_OWNER_PARTS, .rw, .any, .no⟩], 0x0⟩

/-- LANE_CNT0 (R478). -/
def reg_LANE_CNT0 : RegSpec := ⟨0x40,
  [⟨F.LANE_CNT_CORR, .ro, .any, .no⟩,
   ⟨F.LANE_CNT_LAST_ROUND, .ro, .any, .no⟩,
   ⟨F.LANE_CNT_FAILED, .ro, .any, .no⟩,
   ⟨F.LANE_CNT_LOCK, .ro, .any, .no⟩], 0x0⟩

/-- LANE_CNT1 (R478). -/
def reg_LANE_CNT1 : RegSpec := ⟨0x48,
  [⟨(F.LANE_CNT_CORR.at 8), .ro, .any, .no⟩,
   ⟨(F.LANE_CNT_LAST_ROUND.at 8), .ro, .any, .no⟩,
   ⟨(F.LANE_CNT_FAILED.at 8), .ro, .any, .no⟩,
   ⟨(F.LANE_CNT_LOCK.at 8), .ro, .any, .no⟩], 0x0⟩

/-- LANE_CNT2 (R478). -/
def reg_LANE_CNT2 : RegSpec := ⟨0x50,
  [⟨(F.LANE_CNT_CORR.at 16), .ro, .any, .no⟩,
   ⟨(F.LANE_CNT_LAST_ROUND.at 16), .ro, .any, .no⟩,
   ⟨(F.LANE_CNT_FAILED.at 16), .ro, .any, .no⟩,
   ⟨(F.LANE_CNT_LOCK.at 16), .ro, .any, .no⟩], 0x0⟩

/-- LANE_CNT3 (R478). -/
def reg_LANE_CNT3 : RegSpec := ⟨0x58,
  [⟨(F.LANE_CNT_CORR.at 24), .ro, .any, .no⟩,
   ⟨(F.LANE_CNT_LAST_ROUND.at 24), .ro, .any, .no⟩,
   ⟨(F.LANE_CNT_FAILED.at 24), .ro, .any, .no⟩,
   ⟨(F.LANE_CNT_LOCK.at 24), .ro, .any, .no⟩], 0x0⟩

/-- LANE_CNT4 (R478). -/
def reg_LANE_CNT4 : RegSpec := ⟨0x60,
  [⟨(F.LANE_CNT_CORR.at 32), .ro, .any, .no⟩,
   ⟨(F.LANE_CNT_LAST_ROUND.at 32), .ro, .any, .no⟩,
   ⟨(F.LANE_CNT_FAILED.at 32), .ro, .any, .no⟩,
   ⟨(F.LANE_CNT_LOCK.at 32), .ro, .any, .no⟩], 0x0⟩

/-- LANE_CNT5 (R478). -/
def reg_LANE_CNT5 : RegSpec := ⟨0x68,
  [⟨(F.LANE_CNT_CORR.at 40), .ro, .any, .no⟩,
   ⟨(F.LANE_CNT_LAST_ROUND.at 40), .ro, .any, .no⟩,
   ⟨(F.LANE_CNT_FAILED.at 40), .ro, .any, .no⟩,
   ⟨(F.LANE_CNT_LOCK.at 40), .ro, .any, .no⟩], 0x0⟩

/-- LANE_CNT6 (R478). -/
def reg_LANE_CNT6 : RegSpec := ⟨0x70,
  [⟨(F.LANE_CNT_CORR.at 48), .ro, .any, .no⟩,
   ⟨(F.LANE_CNT_LAST_ROUND.at 48), .ro, .any, .no⟩,
   ⟨(F.LANE_CNT_FAILED.at 48), .ro, .any, .no⟩,
   ⟨(F.LANE_CNT_LOCK.at 48), .ro, .any, .no⟩], 0x0⟩

/-- LANE_CNT7 (R478). -/
def reg_LANE_CNT7 : RegSpec := ⟨0x78,
  [⟨(F.LANE_CNT_CORR.at 56), .ro, .any, .no⟩,
   ⟨(F.LANE_CNT_LAST_ROUND.at 56), .ro, .any, .no⟩,
   ⟨(F.LANE_CNT_FAILED.at 56), .ro, .any, .no⟩,
   ⟨(F.LANE_CNT_LOCK.at 56), .ro, .any, .no⟩], 0x0⟩

/-- LANE_CNT8 (R478). -/
def reg_LANE_CNT8 : RegSpec := ⟨0x80,
  [⟨(F.LANE_CNT_CORR.at 64), .ro, .any, .no⟩,
   ⟨(F.LANE_CNT_LAST_ROUND.at 64), .ro, .any, .no⟩,
   ⟨(F.LANE_CNT_FAILED.at 64), .ro, .any, .no⟩,
   ⟨(F.LANE_CNT_LOCK.at 64), .ro, .any, .no⟩], 0x0⟩

/-- The registers of the link page (R678). -/
def linkRegs : List RegSpec :=
  [reg_LINK_CFG, reg_LINK_STATUS, reg_LINK_ERR_CNT, reg_LINK_TIME_CFG, reg_LINK_TIME_STAT, reg_LINK_AXIS, reg_LINK_OWNER, reg_LANE_CNT0, reg_LANE_CNT1, reg_LANE_CNT2, reg_LANE_CNT3, reg_LANE_CNT4, reg_LANE_CNT5, reg_LANE_CNT6, reg_LANE_CNT7, reg_LANE_CNT8]

/-- MEM_CLASS_CFG (R423). -/
def reg_MEM_CLASS_CFG : RegSpec := ⟨0x0,
  [⟨F.MEM_CLASS_CFG_FLOOR_N, .rw, .any, .no⟩,
   ⟨F.MEM_CLASS_CFG_FLOOR_W, .rw, .any, .no⟩,
   ⟨F.MEM_CLASS_CFG_FLOOR_B, .rw, .any, .no⟩,
   ⟨F.MEM_CLASS_CFG_WM_HI, .rw, .range 1 255, .no⟩,
   ⟨F.MEM_CLASS_CFG_WM_LO, .rw, .any, .no⟩], 0x40c0020808⟩

/-- MEM_SCRUB_CFG (R424). -/
def reg_MEM_SCRUB_CFG : RegSpec := ⟨0x8,
  [⟨F.MEM_SCRUB_CFG_PASS_HOURS, .rw, .range 1 255, .no⟩,
   ⟨F.MEM_SCRUB_CFG_EN, .rw, .any, .no⟩,
   ⟨F.MEM_SCRUB_CFG_WRITEBACK, .rw, .any, .no⟩,
   ⟨F.MEM_SCRUB_CFG_NOW, .wo, .any, .no⟩], 0x318⟩

/-- MEM_STATUS (R425). -/
def reg_MEM_STATUS : RegSpec := ⟨0x10,
  [⟨F.MEM_STATUS_HOT, .ro, .any, .no⟩,
   ⟨F.MEM_STATUS_FILLING, .ro, .any, .no⟩,
   ⟨F.MEM_STATUS_DEGRADED, .ro, .any, .part⟩,
   ⟨F.MEM_STATUS_RETIRE, .ro, .any, .part⟩,
   ⟨F.MEM_STATUS_ROWS_LEFT, .ro, .any, .part⟩,
   ⟨F.MEM_STATUS_BONDS_LEFT, .ro, .any, .part⟩], 0x40300000⟩

/-- MEM_ERR_CNT (R426). -/
def reg_MEM_ERR_CNT : RegSpec := ⟨0x18,
  [⟨F.MEM_ERR_CNT_CE, .ro, .any, .no⟩,
   ⟨F.MEM_ERR_CNT_UE, .ro, .any, .no⟩,
   ⟨F.MEM_ERR_CNT_ONDIE, .ro, .any, .no⟩], 0x0⟩

/-- MEM_ERR_LOG (R427). -/
def reg_MEM_ERR_LOG : RegSpec := ⟨0x20,
  [⟨F.MEM_ERR_LOG_ADDR, .ro, .any, .no⟩,
   ⟨F.MEM_ERR_LOG_SRC, .ro, .any, .no⟩,
   ⟨F.MEM_ERR_LOG_VALID, .w1c, .any, .no⟩,
   ⟨F.MEM_ERR_LOG_MULTI, .w1c, .any, .no⟩], 0x0⟩

/-- The registers of the block page (R678). -/
def blockRegs : List RegSpec :=
  [reg_MEM_CLASS_CFG, reg_MEM_SCRUB_CFG, reg_MEM_STATUS, reg_MEM_ERR_CNT, reg_MEM_ERR_LOG]

/-- The register at an address, where one is assigned. -/
def findReg (l : List RegSpec) (a : Nat) : Option RegSpec := l.find? (fun r => r.addr == a)

/-- The value of a register after reset, 0 where no register is assigned. -/
def resetWord (l : List RegSpec) (a : Nat) : Word :=
  match findReg l a with
  | some r => BitVec.ofNat 64 r.reset
  | none => 0

end Sys2Proof.Machine
end

