-- ==== Sys2Proof/Machine/State.lean ====
section
/-!
DEFINITION. The state of the DW-1 engine, the reasons a command may stop for, and the state after reset.
-/
namespace Sys2Proof.Machine

/-- What stops the block for good. The spec names no such stop: an error of the part is an exception, a record, a
flag or a lost supply, all of them next states. -/
inductive Fault where
  /-- Raised by no command of this model; kept so that the type has an inhabitant. Safe: nothing rests on it. -/
  | none
  deriving DecidableEq, Repr

/-- Why a command has no meaning here. -/
inductive Refusal where
  /-- Raised by an arm of the dispatch whose command has no meaning yet. Safe: the machine does not go on. -/
  | notModelled (mnemonic : String)
  deriving DecidableEq, Repr

/-! ## The tile -/

/-- An instruction held in the M, C or X queue: its address and the scalar operands captured at dispatch (R104). -/
structure QEntry where
  instr : Instr
  pc : Word
  sa : Word
  sb : Word
  sc : Word
  /-- The matrix descriptor captured with them (R209). -/
  desc : Line
  /-- Its words. -/
  w0 : Nat := 0
  w1 : Nat := 0
  /-- The ranges of the tile store that an M or C instruction touches: whether it writes, base, bytes (R107). -/
  ranges : List (Bool × Nat × Nat) := []
  /-- The mask registers that it names: whether it writes it, its number (R106). -/
  masks : List (Bool × Nat) := []
  /-- The scalar register that it writes, 0 for none. -/
  dest : Nat := 0
  /-- Its place in program order among the instructions in the queues (R107). -/
  age : Nat := 0
  /-- It has started and raised a queue cause, and is re-issued when it runs again (R146). -/
  again : Bool := false
  deriving DecidableEq, Repr

/-- What a barrier instruction waits for (R104): hall time (`twait`), a queue mask (`tsync`), or a wake (`wait`). -/
inductive Barrier where
  | none
  | twait (target : Nat)
  | tsync (mask : Nat)
  | wait
  deriving DecidableEq, Repr

/-- A reservation of a tile (R134): its line, the tile cycle it started in, the statuses that have broken it, and the
earlier reservations that another `hold` ended since the last `commit`, by line with their statuses. `dead`: it has ended,
in an earlier cycle than this one, so that nothing breaks it any more. -/
structure Resv where
  key : Nat
  start : Nat
  broken : List Nat
  old : List (Nat × List Nat)
  dead : Bool := false
  deriving DecidableEq, Repr

/-- What the home of a line keeps (R135, R136): the tile that holds the live reservation, the status with which
the line itself broke it (0 while none has: 1 a write, 4 an uncorrectable error), and the tiles and tags of the
holds that wait. -/
structure Home where
  holder : Option Nat
  status : Nat
  waiting : List (Nat × Nat)
  deriving DecidableEq, Repr

/-- A home with nothing reserved. -/
def Home.empty : Home := ⟨none, 0, []⟩

/-- A write reaches the line: a live reservation is broken with status 1, unless it is broken already. -/
def Home.hit (h : Home) : Home := if h.holder.isSome ∧ h.status = 0 then { h with status := 1 } else h

/-- Whether a tile's clock runs: on, in Doze, Den or Hibernate, or off (R602). -/
inductive Power where
  | on | doze | den | hib | off
  deriving DecidableEq, Repr

/-- The special state of a long accumulator (R185). -/
inductive Special where
  | none | posInf | negInf | nan
  deriving DecidableEq, Repr

/-- A long accumulator: its value in units of 2^−2148, and its special state (R200). -/
structure Lacc where
  z : Int
  sp : Special
  deriving DecidableEq, Repr

/-- A root of the reduction tree (R250): its accumulator, its kind, and the tile cycle of its last deposit. -/
structure Root where
  acc : Lacc
  kind : Nat
  last : Option Nat
  /-- A root of kind max or min holds −0 (R184, R250). -/
  nz : Bool := false
  deriving DecidableEq, Repr

/-- A root after a tile reset: zero, of kind sum (R282). -/
def Root.reset : Root := ⟨⟨0, .none⟩, 0, none, false⟩

/-- A tile program run that has been triggered and has not ended (R293, R296): the trigger, the program, frame and
window; for an epilogue the descriptor and KEEP of its drain, whether the array has been released (R297), and what the
trigger reports when it completes. -/
structure ProgRun where
  entry : QEntry
  epilogue : Bool
  prog : Nat
  frame : Nat
  win : Nat
  winSize : Nat
  desc : Line
  keep : Bool
  released : Bool
  fl : Nat
  cycles : Nat
  stalls : Nat
  steps : Nat
  deriving DecidableEq, Repr

/-! ## Movement -/

/-- One copy of a request: `size` bytes from a global address to a global address, for line or element `idx`. -/
structure Piece where
  src : Nat
  dst : Nat
  size : Nat
  idx : Nat
  deriving DecidableEq, Repr

/-- What a tag is held for: an instruction, or a part of one (a DMA chunk or merged stream elements, R273, R392). -/
inductive XKind where
  | dma | stream | send | recv | atomic | hold | commit | part
  deriving DecidableEq, Repr

/-- An outstanding request, by its tag (R392, R396): its generation and launch order, the instruction, the tag of the
instruction a part belongs to, the mode and context it was launched in (R681), its pieces with what has been read,
written and failed (index, ECODE and address), the lines or elements in all and launched, how many parts may be
outstanding, what sA receives, and how a
transfer ended. `done`: it has completed and waits to post its record (R397). -/
structure XReq where
  kind : XKind
  gen : Nat
  order : Nat
  entry : QEntry
  parent : Nat
  user : Bool
  ctx : Nat
  pieces : List Piece
  got : List (Nat × Nat)
  wrote : List Nat
  bad : List (Nat × Nat × Nat)
  total : Nat
  launched : Nat
  limit : Nat
  answer : Option Word
  code : Nat
  deadline : Nat
  done : Bool
  deriving DecidableEq, Repr

/-- An asynchronous event that waits for its boundary (R143): FENCED with its generation, TILE_MSG with its source,
SAMPLE. -/
structure Events where
  fenced : Option Nat
  msg : Option Nat
  sample : Bool
  deriving DecidableEq, Repr

/-- No event waits. -/
def Events.none : Events := ⟨.none, .none, false⟩

/-- Den prepare or commit in progress (R612): the unit that prepares and the tick its prepare started; unit 4 is the
commit phase. -/
structure DenPrep where
  unit : Nat
  since : Nat
  deriving DecidableEq, Repr

/-- One tile (R103, R112). -/
structure Tile where
  /-- Control space (R149): registers by address; an unlisted register holds its Reset value. -/
  ctl : NMap Word
  pc : Word
  /-- s1 to s31 (s0 reads 0). -/
  s : NMap Word
  v : NMap Vec
  /-- k1 to k7 (k0 reads all ones). -/
  k : NMap Line
  d : NMap Line
  /-- The tile store, by local address (R113). -/
  store : NMap Byte
  /-- Local addresses of bytes that hold an uncorrectable error, rising (R583). -/
  ue : List Nat
  barrier : Barrier
  /-- The M, C and X queues, oldest first (R103). -/
  mq : List QEntry
  cq : List QEntry
  xq : List QEntry
  /-- The place in program order of the next instruction that enters a queue (R107). -/
  ages : Nat
  /-- Scalar registers that an unfinished M, C or X instruction will write (R106), rising. -/
  sWait : List Nat
  resv : Option Resv
  /-- The homes of the lines of this tile's store, by line (R136). -/
  homes : NMap Home
  power : Power
  /-- The LACCs of the array, by cell 32 x + y (R195). -/
  lacc : NMap Lacc
  /-- Tile cycle of the last deposit, while it may not have settled (R202). -/
  mLast : Option Nat
  /-- Carries may be pending: a LACC has taken a deposit since all were cleared or settled (R202, R230). -/
  mCarry : Bool
  /-- The tile cycle at which the last M-queue instruction completes, where it was an `mmac` (R214). -/
  mDone : Option Nat
  root0 : Root
  root1 : Root
  /-- What the destination register of a stopped chain instruction held before it started and holds now (R264). -/
  cPre : Option (Nat × Vec × Vec)
  /-- The program bytes that the checked latches cover: first address and end (R295). -/
  checkedEpi : Option (Nat × Nat)
  checkedTp : Option (Nat × Nat)
  /-- The slot whose range trap the solver instruction at the head of the M queue waits for (R341, R342). -/
  trapSlot : Option Nat
  /-- The triggered tile program run (R296, R297). -/
  run : Option ProgRun
  /-- Marked for retirement at the partition's next reset (R583). -/
  marked : Bool
  /-- One instruction is to be dispatched under DBG_CTL.STEP (R668). -/
  stepping : Bool
  /-- Hall tick at which the tile clock stopped for sleep, while it is stopped, and the total of nominal cycles then (R99). -/
  sleepFrom : Option (Nat × Nat)
  /-- The tile clock waits for the beat boundary at which it starts (R100). -/
  clockHold : Bool
  /-- The hall tick in whose second tile cycle the tile last read its time (R63). -/
  lateAt : Option Nat
  /-- Arithmetic flags set in this tile cycle, by flag register (R192). -/
  flagsNow : NMap Nat
  /-- Whether CFG_REJECT.SET has been set in this tick (R155): 0 no, 1 yes, 2 yes and another source has lost (R672). -/
  rejNow : Nat
  /-- The generation of each tag index (R396). -/
  gens : NMap Nat
  /-- Outstanding requests by tag (R396). -/
  reqs : NMap XReq
  /-- Launch orders given out. -/
  orders : Nat
  /-- Hall tick from which the X queue's head may launch: the start of its beat (R127); and its stamp is late. -/
  stampAt : Option Nat
  /-- Launch entries bound in a round: BEAT and KIND and destination, and the round (R437). -/
  boundIn : List (Nat × Nat)
  events : Events
  /-- Instructions dispatched since the trigger of a pending SAMPLE (R655): 7 has no bound, and 8 waits for the trigger. -/
  skid : Nat
  den : Option DenPrep
  /-- The wake from Den is under way (R617): the hall tick at which it started. -/
  waking : Option Nat
  /-- The tile waits in `wait` for Doze (R610). -/
  dozing : Bool
  /-- Pads are held: launches wait (R628). -/
  padsHeld : Bool
  /-- A halt request that waits for a live reservation, its tick and HALT_WHY (R137). -/
  haltReq : Option (Nat × Nat)
  /-- The first instruction after a resume or step never matches a breakpoint (R668). -/
  fresh : Bool
  /-- The tile cycle in which the tile halted, while it is halted (R666). -/
  haltFrom : Option Nat
  /-- Tile resets since the engine reset (R649). -/
  resets : Nat
  /-- The context work placed by a RUN: context and queue (R690). -/
  work : Option (Nat × Nat)
  /-- `trap` 0 has been executed: the part ends when no tag is held (R690). -/
  ending : Bool
  /-- The tile is held in a reset step or before its firmware starts (R572). -/
  inReset : Bool
  /-- Its block is vacant, so the tile is out of service (R41). -/
  out : Bool
  /-- Held from dispatching while its block prepares for Hibernate or has stopped (R620). -/
  hibHold : Bool
  /-- Hall tick at which that step started (R552). -/
  resetAt : Nat
  deriving DecidableEq, Repr

/-- A tile after a tile reset: every register at its Reset value, the store zero-filled (R572). -/
def Tile.reset : Tile :=
  { ctl := [], pc := 0, s := [], v := [], k := [], d := [], store := [], ue := [], barrier := .none,
    mq := [], cq := [], xq := [], ages := 0, sWait := [], resv := none, homes := [], power := .on, lacc := [], mLast := none, mCarry := false, mDone := none, root0 := Root.reset, root1 := Root.reset, cPre := none, checkedEpi := none, checkedTp := none, trapSlot := none, run := none, marked := false, stepping := false, sleepFrom := none, clockHold := false, lateAt := none, flagsNow := [], rejNow := 0,
    gens := [], reqs := [], orders := 0, stampAt := none, boundIn := [], events := Events.none, skid := 0, den := none,
    waking := none, dozing := false, padsHeld := false, haltReq := none, fresh := false, haltFrom := none, resets := 0, work := none,
    ending := false, inReset := false, out := false, hibHold := false, resetAt := 0 }

/-! ## The Owl -/

/-- A reference of the Owl (R70, R71): its condition (0 absent, 1 qualifying, 2 held, 3 qualified), its latest
measurements in 2^−16 ns, newest first (at most eight), the tick of the newest, and the tick at which it became
qualified. -/
structure Ref where
  cond : Nat
  recent : List Int
  seen : Nat
  since : Nat
  deriving DecidableEq, Repr

/-- A reference that is absent. -/
def Ref.absent : Ref := ⟨0, [], 0, 0⟩

/-- The Owl: the always-on hall-time counter and fraction (R60); nanoseconds since standby power was applied, as far as 300 s
(R85); its references, those of the links by link; its own tracking state (R80, R84); the selected reference (0 none, 1 PTP,
2 PPS, 3 LINK), the link in use, whether that reference has been tracked ever since it was selected (R87), and whether FREE
came from a Set (R79); rounds passed in its own HOLDOVER (R87); the value of a Set that acts at the next tick (R87); the value
of a pending Set and the round in which it was accepted (R88, R89); the tick at which a STEP_OK was accepted (R90); the offset of the
selected reference at its latest measurement (R93) and at the latest F10 measurement (R71); and the logSyncInterval announced
(R69). -/
structure Owl where
  ns : Nat
  frac : Nat
  up : Nat
  ptp : Ref
  pps : Ref
  f10 : Ref
  links : NMap Ref
  own : Nat
  source : Nat
  lsel : Nat
  tracking : Bool
  hostSet : Bool
  held : Nat
  setDue : Option Nat
  setPend : Option (Nat × Nat)
  stepOk : Option Nat
  offset : Int
  f10Off : Int
  logSync : Int
  deriving DecidableEq, Repr

/-- The Owl when standby power is first applied (R61). DESIGN CHOICE (log 91): before any Announce the expected Sync interval is
that of logSyncInterval 0; no rule gives one (R70). -/
def Owl.start : Owl :=
  { ns := 0, frac := 0, up := 0, ptp := Ref.absent, pps := Ref.absent, f10 := Ref.absent, links := [], own := 0, source := 0,
    lsel := 0, tracking := false, hostSet := false, held := 0, setDue := none, setPend := none, stepOk := none, offset := 0,
    f10Off := 0, logSync := 0 }

/-! ## Links, timetables, contexts and partitions -/

/-- A message on a link (R444), with the link beat reserved for its header, 0 for open traffic and catch-up (R446, R447). -/
structure Msg where
  beat : Nat
  dest : Nat
  flow : Nat
  seq : Nat
  last : Bool
  deadline : Nat
  tile : Nat
  tag : Nat
  part : Nat
  ctx : Nat
  rxBeats : Nat
  lines : List Nat
  deriving DecidableEq, Repr

/-- A link: messages waiting to be sent, in send order; frames sent and not acknowledged, with their messages; failed
frames; the next SEQ per flow (0: open); messages received and held; the next SEQ to release per flow; the newest
frame accepted and the map of accepted frames; the newest frame of the far end acknowledged; consecutive discarded
frames; consecutive frames accepted; lane swap requested of the far end, asked for by it, and announced; a leave at the next beat boundary (R469); the beat
of the last frame sent, its header, the messages that spill from it into the next one and their slots there; the TX_TS and
arrival tick of the latest frame received (R76), and the sender's HOLD_ROUNDS (R80); the offset and delay of each exchange of the round (R77); lane corrections in the round (R466); and the counters of R644. -/
structure LinkSt where
  out : List Msg
  flight : List (Nat × List Msg)
  failed : List (Nat × List Msg)
  txSeq : NMap Nat
  held : List Msg
  rxSeq : NMap Nat
  ackBase : Nat
  ackMap : Nat
  credit : Nat
  discards : Nat
  goodRound : Nat
  swapReq : Option Nat
  swapAsk : Option Nat
  swapAt : Option (Nat × Nat)
  leaveAt : Option Nat
  lastTx : Nat
  header : Nat
  spill : List Msg
  carry : Nat
  echo : Option (Nat × Nat)
  peerHold : Nat
  theta : List (Int × Int)
  laneRun : NMap Nat
  frames : Nat
  retries : Nat
  accepted : Nat
  ttSlots : Nat
  openSlots : Nat
  idleSlots : Nat
  deriving DecidableEq, Repr

/-- A link after reset. -/
def LinkSt.empty : LinkSt :=
  { out := [], flight := [], failed := [], txSeq := [], held := [], rxSeq := [], ackBase := 0, ackMap := 0, credit := 0,
    discards := 0, goodRound := 0, swapReq := none, swapAsk := none, swapAt := none, leaveAt := none, lastTx := 0, header := 0, spill := [], carry := 0,
    echo := none, peerHold := 0, theta := [], laneRun := [], frames := 0, retries := 0,
    accepted := 0, ttSlots := 0, openSlots := 0, idleSlots := 0 }

/-- A flow of a link on this engine (R457): its end count, the ends since the last `mv.recv` completed with their codes
and first DEST, the DEST of the first message held of the present transfer, whether it is closed (R463) or closed with MEMBER_LOST
(R499), and after a transfer that ended LATE the deadline it ended with, from which on the order starts anew. -/
structure FlowSt where
  ends : Nat
  since : List (Nat × Nat)
  dest : Nat
  closed : Bool
  lost : Bool
  resync : Bool
  lastD : Nat
  deriving DecidableEq, Repr

/-- A flow at its admission. -/
def FlowSt.empty : FlowSt := ⟨0, [], 0, false, false, false, 0⟩

/-- An entry of a timetable image (R528), its words W0 to W3, the epoch of its group (R534), and whether a membership
change has freed its charge (R499). -/
structure TEntry where
  w0 : Nat
  w1 : Nat
  w2 : Nat
  w3 : Nat
  epoch : Nat
  freed : Bool
  deriving DecidableEq, Repr

/-- A live timetable (R526, R534): its place, admission count, start round, P-level, entries, and whether it is
installed, suspended (R538), or withdrawn and in which round (R535), and whether a reset has taken its launch entries from
the tiles at once (R573). -/
structure TTable where
  part : Nat
  id : Nat
  ctx : Nat
  count : Nat
  start : Nat
  plevel : Nat
  entries : List TEntry
  installed : Bool
  suspended : Bool
  withdrawn : Option Nat
  gone : Bool
  deriving DecidableEq, Repr

/-- A command queue of a context (R687): the command at the head with its index, the phase (0 nothing fetched, 1 at the
head, 2 running, 3 ended and to be posted), the results of the completion entry (R691), the tiles of a RUN that have
not ended, and for a waiting head the tick up to which its wait has been counted, the alternate queue that runs for it,
the tick of its event (R378, R379), and the tick from which the command Badger watches (R566). -/
structure HostQ where
  cmd : Line
  idx : Nat
  phase : Nat
  status : Nat
  flags : Nat
  r0 : Nat
  r1 : Nat
  ended : Nat
  started : Nat
  waitFrom : Option Nat
  covered : Option Nat
  eventAt : Option Nat
  watch : Option Nat
  deriving DecidableEq, Repr

/-- A queue that holds nothing. -/
def HostQ.empty : HostQ := ⟨0, 0, 0, 0, 0, 0, 0, 0, 0, none, none, none, none⟩

/-- A COLL instance that has been accepted or refused and not yet posted (R484 to R490). -/
structure Coll where
  group : Nat
  cseq : Nat
  ctx : Nat
  queue : Nat
  refused : Nat
  start : Nat
  beats : Nat
  report : Nat
  tiles : Nat
  part : Nat
  cut : Bool
  deriving DecidableEq, Repr

/-- An entry of the provenance cache (R599): extent and component digest. -/
structure PCache where
  addr : Nat
  len : Nat
  digest : Nat
  deriving DecidableEq, Repr

/-- A component of a PROV command that runs (R596, R598): CLASS, digest, the extent that was read (no bytes for one served from
the cache), and whether it is torn. -/
structure ProvComp where
  cls : Nat
  digest : Nat
  addr : Nat
  len : Nat
  torn : Bool
  deriving DecidableEq, Repr

/-- A PROV command that runs: its context and queue, DST, USER, bytes 0x00 to 0x3F of the record as they were when it started
(R597), its components, and bytes read and covered by cache hits. -/
structure ProvRun where
  key : Nat
  dst : Nat
  user : Nat
  head : Nat
  comps : List ProvComp
  read : Nat
  hit : Nat
  deriving DecidableEq, Repr

/-- What the partition's controller keeps beside the registers of its page: the reset step that runs with its start
tick and cause, and whether it serves a reset, a CREATE (1) or a DESTROY (2) (R516, R575), the provenance cache, least recently used first (R599), the PROV commands that run (R598), Hibernate entry (the blocks that have
stopped and the tick the present one started), the wake's start and source (R625), the tick of the commit's clock stop,
the Fox's latched dump with its number and kinds (R647), latches so far (R652), sample entries and drops per block
(R656), the dump period in force (R646), the performance counters of the partition (R644), and PART_SEQ in full (R526). -/
structure PartSt where
  step : Option (Nat × Nat)
  mode : Nat
  cache : List PCache
  provs : List ProvRun
  stopped : Nat
  prepAt : Nat
  wake : Option (Nat × Nat × Nat)
  clockStop : Nat
  latch : Option (List (Nat × Nat))
  seq : Nat
  samples : List (Nat × Nat × Nat)
  sampleDrops : NMap Nat
  foxBeats : Nat
  commands : Nat
  collsDone : Nat
  peer : Nat
  coll : Nat
  covered : Nat
  lag : Nat
  partSeq : Nat
  deriving DecidableEq, Repr

/-- A partition's controller after reset. -/
def PartSt.empty : PartSt :=
  { step := none, mode := 0, cache := [], provs := [], stopped := 0, prepAt := 0, wake := none, clockStop := 0, latch := none, seq := 0,
    samples := [], sampleDrops := [], foxBeats := 0, commands := 0, collsDone := 0, peer := 0, coll := 0, covered := 0, lag := 0, partSeq := 0 }

/-- What a block keeps beside its page (R386, R410 to R413, R644): the next line of the scrub pass, the lines
corrected in the pass, spare rows in use by group, rows and bonds that wait for a refresh beat, bonds swapped per channel, failed
bonds without a spare, refresh beats, and line slots served by class. -/
structure BlockSt where
  scrubAt : Nat
  corr : List Nat
  sparesUsed : List Nat
  rowDue : List Nat
  bondDue : List Nat
  bondsUsed : NMap Nat
  bare : NMap Nat
  hotRound : Bool
  coolRound : Bool
  retire : Bool
  stopped : Bool
  memL : Nat
  memN : Nat
  memW : Nat
  memB : Nat
  memWin : Nat
  refresh : Nat
  deriving DecidableEq, Repr

/-- A block after reset. -/
def BlockSt.empty : BlockSt :=
  { scrubAt := 0, corr := [], sparesUsed := [], rowDue := [], bondDue := [], bondsUsed := [], bare := [],
    hotRound := false, coolRound := true, retire := false, stopped := false, memL := 0, memN := 0, memW := 0, memB := 0,
    memWin := 0, refresh := 0 }

/-- What a context keeps beside its page: the drain bound of its fence in ticks (R558), the start tick and cause of a
reset that runs (R573), the bandwidth quota in force (R525), and the waiting times of R382 in ticks, of which CTX_IDLE shows
the whole beats. -/
structure CtxSt where
  /-- The CAUSE of a fence that has been accepted and takes effect in the next tick (R555). -/
  fenceDue : Option Nat
  drainAt : Option Nat
  reset : Option (Nat × Nat)
  quota : Nat
  peer : Nat
  coll : Nat
  covered : Nat
  lag : Nat
  deriving DecidableEq, Repr

/-- No fence and no reset. -/
def CtxSt.empty : CtxSt := ⟨none, none, none, 0xFFFFFF, 0, 0, 0, 0⟩

/-- What the engine has reported over management and the controller has not collected: a stretch beyond the bounds (R94), a
wake from Hibernate that failed (R627), a recovery step that missed its bound (R553). MGMT_ALERT# is low while one waits (R734). -/
inductive MgmtEvent where
  | droopOver
  | wakeFail (p : Nat)
  | stepMissed (u : StepIx)
  deriving DecidableEq, Repr

/-- The module: the tray-control signals and supplies (R722, R725), the alert and trip state (R728 to R730), the state
sensors (R737), whether a fault or trip is latched (R724, R730), the tick the panel went off, the sensors at trip level and
those with no substitute in the latest sample, consecutive samples with COOL_OK low, the latest readings (those that differ
from a common one), the hottest logic and DRAM values, the cause of a power-cycle request, PERST#, and
reports over management that have not been collected. -/
structure Module where
  standby : Bool
  mainEn : Bool
  coolOk : Bool
  inputOk : Bool
  mainPg : Bool
  cycleReq : Bool
  thermAlert : Bool
  thermTrip : Bool
  mainState : Nat
  fault : Nat
  latched : Bool
  offAt : Option Nat
  hotLogic : List Nat
  hotDram : List Nat
  lostLogic : List Nat
  lostDram : List Nat
  lowCool : Nat
  tbase : Int
  tlogic : List (Nat × Option Int)
  tdram : List (Nat × Option Int)
  lastLogic : Int
  lastDram : Int
  cycleCause : Nat
  perst : Bool
  events : List MgmtEvent
  deriving DecidableEq, Repr

/-- The module with both supplies on and nothing wrong. -/
def Module.running : Module :=
  { standby := true, mainEn := true, coolOk := true, inputOk := true, mainPg := true, cycleReq := false,
    thermAlert := false, thermTrip := false, mainState := 2, fault := 0, latched := false, offAt := none, hotLogic := [],
    hotDram := [], lostLogic := [], lostDram := [], lowCool := 0, tbase := 25, tlogic := [], tdram := [], lastLogic := 25,
    lastDram := 25, cycleCause := 0, perst := false, events := [] }

/-- The test access port (R659, R661): the instruction, what its data register captures, the frame of a command that waits
for a wake (R661, RESULT 6), the nonce of a challenge (R700), and whether the physical chains have been shifted (R669). -/
structure Tap where
  ir : Nat
  dr : Nat
  held : Option Nat
  nonce : Option Nat
  scanned : Bool
  /-- The host has taken TRACE_DATA1 in this tick (R672). -/
  hostTook : Bool
  deriving DecidableEq, Repr

/-- What the latest host access or management command answered: STATUS 0 successful, 1 Unsupported Request, 2 Completer
Abort (R677, R685), 3 NOT_POWERED (R700), 4 a signature that is not valid; the poisoned bit (R684); and the data. -/
structure Reply where
  status : Nat
  poisoned : Bool
  data : Nat
  deriving DecidableEq, Repr

/-- A capture (R563, R564): KIND, the context, partition or tile concerned, CAUSE, the partition, whether it has been latched,
the tick from which it may be written, and its nonzero words by slot offset, SEQ apart. -/
structure Capt where
  kind : Nat
  id : Nat
  cause : Nat
  part : Nat
  latched : Bool
  due : Nat
  words : List (Nat × Nat)
  deriving DecidableEq, Repr

/-- The engine. -/
structure State where
  /-- The commands that are waiting, first in, first out. -/
  pending : List Instr
  /-- The model's own counter of free values. -/
  free : Nat
  owl : Owl
  /-- Host registers by BAR0 offset (R676); an unlisted register holds its Reset value. -/
  regs : NMap Word
  /-- For a host register that a boundary reads (R19): the tick of its latest write, and its value before that tick's writes. -/
  prior : NMap (Nat × Word)
  /-- CFG_REJECT.SET has been set in this tick (R155). -/
  rejNow : Bool
  tiles : NMap Tile
  /-- Stacked memory by direct stacked address (R385); an unlisted byte reads 0 (R404). -/
  mem : NMap Byte
  /-- Lines that hold an uncorrectable error, and lines marked poisoned (R408, R409), by direct address, rising. -/
  memUE : List Nat
  memPoison : List Nat
  /-- The homes of stacked lines (R395), by line. -/
  homes : NMap Home
  blocks : NMap BlockSt
  /-- Host memory as the engine's requests find and leave it. -/
  host : NMap Byte
  /-- The PCIe link is up; the functions (0 the PF, c + 1 a VF) that are enabled, that have Bus Master Enable, and that
  are in D3hot (R674, R681). -/
  linkUp : Bool
  vfs : List Nat
  master : List Nat
  d3 : List Nat
  /-- MSI-X vectors sent, newest first: function and vector (R695). -/
  msix : List (Nat × Nat)
  links : NMap LinkSt
  flows : NMap FlowSt
  tables : List TTable
  /-- The shares of ADM_SHARE in force (R537). -/
  shares : Nat × Nat × Nat
  /-- Quarters whose spare block is in use, and blocks whose spare tile is (R57). -/
  spareBlocks : List Nat
  spareTiles : List Nat
  /-- Which block took a quarter's spare block, at which tick, and the map entries its tiles had before (R39). -/
  spareTook : NMap (Nat × Nat × List Nat)
  /-- Array columns marked for retirement, by tile (R583), and tiles whose unused spare column has failed its test (R38). -/
  markCols : NMap Nat
  spentCols : List Nat
  /-- The next admission count (R526). -/
  admCount : Nat
  queues : NMap HostQ
  colls : List Coll
  /-- One past the CSEQ whose completion was last posted, by group (R490, R688). -/
  posted : NMap Nat
  /-- The end of the last accepted window of each group (R488). -/
  windows : NMap Nat
  /-- Owners of granules (R522), context + 1, by partition × 2^24 + granule. -/
  granules : NMap Nat
  parts : NMap PartSt
  ctxs : NMap CtxSt
  /-- Captures that have been latched and not yet written (R563). -/
  captures : List Capt
  /-- An engine reset that has been started: its tick and cause (R579). -/
  engReset : Option (Nat × Nat)
  /-- Staged membership changes that are pending (R498): group, round, hall and exclusions. -/
  changes : List (Nat × Nat × List Word)
  /-- The map image entries that differ from the factory map (R45, R50), by tile_index. -/
  map : NMap Nat
  /-- Saved flags (R696), by tile × 64 + context. -/
  saved : NMap Nat
  /-- The trace buffer, oldest first, and drops since the last marker (R671). -/
  trace : List (Word × Word)
  dropped : Nat
  tap : Tap
  module : Module
  /-- A stretch of the tile clock that runs: its start and the cycles lost (R94); and the start of the latest one. -/
  stretch : Option (Nat × Nat)
  stretchAt : Option Nat
  reply : Reply
  /-- Events recorded in SPDM measurement 7 (R701). -/
  dbgEvents : Nat
  /-- Fused SVN (R701). -/
  svn : Nat
  deriving DecidableEq, Repr

/-- The engine right after an engine reset, with both supplies on. -/
def State.reset : State :=
  { pending := [], free := 0, owl := Owl.start, regs := [(0x58, 4)], prior := [], rejNow := false, tiles := [], mem := [], memUE := [], memPoison := [],
    homes := [], blocks := [], host := [], linkUp := true, vfs := [], master := [], d3 := [], msix := [], links := [],
    flows := [], tables := [], shares := (16, 16, 16), spareBlocks := [], spareTiles := [], spareTook := [], markCols := [], spentCols := [], admCount := 1, queues := [], colls := [], posted := [], windows := [], granules := [], parts := [],
    ctxs := [], captures := [], engReset := none, changes := [], map := [], saved := [], trace := [], dropped := 0,
    tap := { ir := 1, dr := 0x1D40114F, held := none, nonce := none, scanned := false, hostTook := false },
    module := Module.running, stretch := none, stretchAt := none, reply := { status := 0, poisoned := false, data := 0 }, dbgEvents := 0, svn := 0 }

end Sys2Proof.Machine
end

