-- ==== Sys2Proof/Machine/Ops.lean ====
section
/-!
DEFINITION. The named operations over the tiles and the register files: reading and writing registers, the one
exception entry (R140), the return from it (R146), and the dispatch of an instruction (R104, R129, R156).
-/
namespace Sys2Proof.Machine

/-! ## Tiles and registers -/

/-- What an unlisted tile is: a tile after reset. -/
def tileDflt : Nat → Tile := fun _ => Tile.reset

/-- What the home of an unlisted line is: nothing reserved. -/
def homeDflt : Nat → Home := fun _ => Home.empty

/-- The tile of a tile_index. -/
def State.tile (s : State) (t : Nat) : Tile := s.tiles.get tileDflt t

/-- Replace a tile. -/
def State.setTile (s : State) (t : Nat) (T : Tile) : State := { s with tiles := s.tiles.set tileDflt t T }

/-- Change a tile by a function. -/
def State.onTile (s : State) (t : Nat) (f : Tile → Tile) : State := s.setTile t (f (s.tile t))

/-- What an unlisted control register reads as: its Reset value. -/
def ctlDflt : Nat → Word := resetWord tileRegs

/-- A control register as it is held (a register that is computed on a read is read by `State.readCtl`). -/
def Tile.ctlWord (T : Tile) (a : Nat) : Word := T.ctl.get ctlDflt a

/-- Replace a control register. -/
def Tile.setCtl (T : Tile) (a : Nat) (w : Word) : Tile := { T with ctl := T.ctl.set ctlDflt a w }

/-- A field of a control register. -/
def Tile.fld (T : Tile) (f : Fld) : Nat := wordField (T.ctlWord f.reg) f.lo f.width

/-- Replace a field of a control register. -/
def Tile.setFld (T : Tile) (f : Fld) (v : Nat) : Tile :=
  T.setCtl f.reg (setWordField (T.ctlWord f.reg) f.lo f.width v)

/-- Add to a field that wraps. -/
def Tile.addFld (T : Tile) (f : Fld) (n : Nat) : Tile := T.setFld f (T.fld f + n)

/-- Add to a field that saturates at its maximum. -/
def Tile.satFld (T : Tile) (f : Fld) (n : Nat) : Tile := T.setFld f (satTo f.width (T.fld f + n))

/-- What an unlisted register of a file reads as. -/
def zeroWord : Nat → Word := fun _ => 0
/-- What an unlisted vector register reads as. -/
def zeroVec : Nat → Vec := fun _ => 0
/-- What an unlisted mask or descriptor register reads as. -/
def zeroLine : Nat → Line := fun _ => 0

/-- A scalar register; s0 reads 0 (R112). -/
def Tile.sreg (T : Tile) (r : Nat) : Word := if r = 0 then 0 else T.s.get zeroWord r

/-- Write a scalar register; a write to s0 is discarded (R112). -/
def Tile.setS (T : Tile) (r : Nat) (w : Word) : Tile :=
  if r = 0 then T else { T with s := T.s.set zeroWord r w }

/-- A mask register; k0 reads all ones (R112). -/
def Tile.kreg (T : Tile) (r : Nat) : Line := if r = 0 then BitVec.allOnes 512 else T.k.get zeroLine r

/-- Write a mask register; a write to k0 is discarded (R112). -/
def Tile.setK (T : Tile) (r : Nat) (w : Line) : Tile :=
  if r = 0 then T else { T with k := T.k.set zeroLine r w }

/-- A vector register. -/
def Tile.vreg (T : Tile) (r : Nat) : Vec := T.v.get zeroVec r

/-- Write a vector register. -/
def Tile.setV (T : Tile) (r : Nat) (w : Vec) : Tile := { T with v := T.v.set zeroVec r w }

/-- A matrix descriptor register. -/
def Tile.dreg (T : Tile) (r : Nat) : Line := T.d.get zeroLine r

/-- Write a matrix descriptor register. -/
def Tile.setD (T : Tile) (r : Nat) (w : Line) : Tile := { T with d := T.d.set zeroLine r w }

/-- The place of a source among writes rejected in one tick (R155, R672): the host, management, debug, an instruction.
SRC is 0 for an instruction, 1 the host, 2 debug, 3 management. -/
def srcRank (src : Nat) : Nat :=
  match src with
  | 1 => 0
  | 3 => 1
  | 2 => 2
  | _ => 3

/-- A rejected write is recorded (R155): the first in ADDR and SRC, a further one in MULTI. Of the writes rejected in one
tick the source that ranks first counts as the first. -/
def Tile.cfgReject (T : Tile) (addr src : Nat) : Tile :=
  let first := fun (T : Tile) => (T.setFld F.TILE_CFG_REJECT_ADDR addr).setFld F.TILE_CFG_REJECT_SRC src
  if T.fld F.TILE_CFG_REJECT_SET = 1 then
    let T := T.setFld F.TILE_CFG_REJECT_MULTI 1
    let T := { T with rejNow := if T.rejNow = 1 ∧ src ≠ T.fld F.TILE_CFG_REJECT_SRC then 2 else T.rejNow }
    if T.rejNow ≠ 0 ∧ srcRank src < srcRank (T.fld F.TILE_CFG_REJECT_SRC) then first T else T
  else { first (T.setFld F.TILE_CFG_REJECT_SET 1) with rejNow := 1 }

/-- One write sets TILE_CFG_REJECT once (R25, R155). -/
def Tile.onceRejected (T before : Tile) : Tile :=
  if before.fld F.TILE_CFG_REJECT_SET = 0 ∧ T.fld F.TILE_CFG_REJECT_SET = 1 then
    T.setFld F.TILE_CFG_REJECT_MULTI (before.fld F.TILE_CFG_REJECT_MULTI)
  else T

/-! ## Hall time -/

/-- One tick of hall time (R60): the count wraps at 2^64. -/
def State.tick (s : State) : State := { s with owl := { s.owl with ns := (s.owl.ns + 1) % 2 ^ 64 } }

/-- The tile cycle, counted from CLK_EPOCH, in which what happens at a hall tick happens (R63, R66): the first cycle that
starts in that tick, or the one that goes on where none starts. At P0 two cycles start in the first tick of four; `late`
means the second. -/
def Tile.cycleIn (T : Tile) (ns : Nat) (late : Bool) : Nat :=
  let m := T.fld F.CLK_EPOCH_MULT
  let d := ns - T.fld F.CLK_EPOCH_BEAT * 256
  let k := ceilDiv (d * m) 4
  if (d + 1) * m ≤ 4 * k then k - 1
  else if late ∧ 4 * (k + 1) < (d + 1) * m then k + 1 else k

/-- The nominal tile cycle at a hall tick: CLK_EPOCH_CYC and the cycles of MULT × 250 MHz since the epoch (R101). -/
def Tile.nominal (T : Tile) (ns : Nat) : Nat :=
  (T.ctlWord F.CLK_EPOCH_CYC_CYC.reg).toNat + T.cycleIn ns false

/-- The instant at which that cycle starts, in 2^−16 ns, rounded down (R63, R64). -/
def Tile.cycleStart (T : Tile) (ns : Nat) (late : Bool) : Nat :=
  T.fld F.CLK_EPOCH_BEAT * 256 * 65536 + T.cycleIn ns late * 4 * 65536 / T.fld F.CLK_EPOCH_MULT

/-- The nominal tile cycle of a tile now. -/
def State.tileCycle (s : State) (t : Nat) : Nat := (s.tile t).nominal s.owl.ns

/-! ## The tile store -/

/-- One past the last local address (R113). -/
def storeEnd : Nat := 0x300000

/-- Do `n` bytes from `a` lie in the tile store, aligned to their size? -/
def localOk (a n : Nat) : Bool := a % n == 0 && a + n ≤ storeEnd

/-- Do two ranges of bytes overlap? -/
def overlaps (a n b m : Nat) : Bool := n != 0 && m != 0 && a < b + m && b < a + n

/-- Is a byte of the range an uncorrectable error? -/
def Tile.hasUE (T : Tile) (a n : Nat) : Bool := T.ue.any (fun x => a ≤ x && x < a + n)

/-- The lowest address in the range that holds an uncorrectable error. -/
def Tile.firstUE (T : Tile) (a n : Nat) : Word :=
  BitVec.ofNat 64 ((T.ue.find? (fun x => a ≤ x && x < a + n)).getD a)

/-- A write replaces the bytes it covers, so an error in them is gone (R583). -/
def Tile.clearUE (T : Tile) (a n : Nat) : Tile :=
  { T with ue := T.ue.filter (fun x => x < a || a + n ≤ x) }

/-- A write to a reserved line of the tile store breaks the reservation with status 1, whatever its source
(R136): the homes of the lines from `a` to `a + n - 1` are marked as hit. -/
def Tile.hitLines (T : Tile) (a n : Nat) : Tile :=
  { T with homes := T.homes.mapv homeDflt (fun k h =>
      if n ≠ 0 ∧ a / 64 ≤ k ∧ k ≤ (a + n - 1) / 64 then h.hit else h) }

/-- A write into the header or body of a checked program clears its latch (R295). -/
def Tile.uncheck (T : Tile) (a n : Nat) : Tile :=
  let keep := fun (r : Option (Nat × Nat)) => r.filter (fun q => n == 0 || q.2 ≤ a || a + n ≤ q.1)
  { T with checkedEpi := keep T.checkedEpi, checkedTp := keep T.checkedTp }

/-- A write into W0 to W5 or W12 to W15 of a ready slot's descriptor clears its ready bit (R322). -/
def Tile.unready (T : Tile) (a n : Nat) : Tile :=
  let w := T.ctlWord F.SOLV_READY_READY.reg
  if w = 0 then T
  else
    let base := T.fld F.SOLV_BASE_BASE
    let hit := fun (s : Nat) => overlaps a n (base + 128 * s) 48 || overlaps a n (base + 128 * s + 96) 32
    T.setCtl F.SOLV_READY_READY.reg
      ((List.range 64).foldl (fun (w : Word) s => if hit s then w &&& ~~~(1#64 <<< s) else w) w)

/-- Store the low `n` bytes of a number into the tile store. -/
def Tile.poke (T : Tile) (a n v : Nat) : Tile :=
  ((({ T with store := memWrite T.store a n v }.clearUE a n).hitLines a n).uncheck a n).unready a n

/-- Store bytes into the tile store. -/
def Tile.pokeBytes (T : Tile) (a : Nat) (bs : List Byte) : Tile :=
  ((({ T with store := memWriteBytes T.store a bs }.clearUE a bs.length).hitLines a bs.length).uncheck a bs.length).unready a bs.length

/-- `n` bytes of the tile store as a number. -/
def Tile.peek (T : Tile) (a n : Nat) : Nat := memRead T.store a n

/-! ## Exceptions -/

/-- Is the tile in handler mode? (R138) -/
def Tile.handler (T : Tile) : Bool := T.fld F.TILE_STATUS_MODE == 1

/-- Is a queue frozen? M is 2, C is 3, X is 4, as in EXC_CAUSE.QUEUE (R153). -/
def Tile.frozen (T : Tile) (q : Nat) : Bool := bitOf (T.fld F.TILE_STATUS_FROZEN) (q - 2)

/-- Break a live reservation with a status (R134). One that has ended is not broken any more. -/
def Tile.breakResv (T : Tile) (status : Nat) : Tile :=
  { T with resv := T.resv.map (fun r => if r.dead then r else { r with broken := insertNat status r.broken }) }

/-- Taking an exception (R140): the M, C and X queues freeze, a reservation is broken with status 3, the EXC
registers are written and the tile enters handler mode at EXC_VEC. `pc` is the next instruction to dispatch,
`qpc` the faulting queue instruction (or `pc`). -/
def Tile.exception (T : Tile) (code queue sub : Nat) (async : Bool) (pc qpc info : Word) : Tile :=
  let T := T.breakResv 3
  let T := T.setFld F.TILE_STATUS_FROZEN 7
  let T := T.setFld F.EXC_CAUSE_CODE code
  let T := T.setFld F.EXC_CAUSE_QUEUE queue
  let T := T.setFld F.EXC_CAUSE_ASYNC (b2n async)
  let T := T.setFld F.EXC_CAUSE_SUB sub
  let T := T.setFld F.EXC_PC_PC (pc.toNat / 4)
  let T := T.setCtl F.EXC_QPC_QPC.reg qpc
  let T := T.setCtl F.EXC_INFO_INFO.reg info
  let T := T.setFld F.TILE_STATUS_MODE 1
  { T with pc := T.ctlWord F.EXC_VEC_VEC.reg, barrier := .none, skid := 7 }

/-- A synchronous or queue cause in handler mode (R144): dispatch stops and TILE_STATUS.DOUBLE is set; the
partition's controller is told by TILE_STATUS. -/
def Tile.doubleFault (T : Tile) : Tile := T.setFld F.TILE_STATUS_DOUBLE 1

/-- Is the sampled event one of the C counters (R640, R655)? -/
def Tile.sampledC (T : Tile) : Bool := 0x16 ≤ T.fld F.SAMPLE_CFG_EVENT && T.fld F.SAMPLE_CFG_EVENT ≤ 0x1B

/-- The bound on SKID (R655). -/
def Tile.skidBound (T : Tile) : Nat := if T.sampledC then 2 else 6

/-- The skid of a pending SAMPLE after `n` more slots of a counter (R655): 7 has no bound, and 8 waits for the trigger. -/
def Tile.skidAfter (T : Tile) (f : Fld) (n : Nat) : Nat :=
  if !T.events.sample ∨ T.skid = 7 ∨ (T.sampledC ∧ f.reg ≠ F.RET_C_COUNT.reg ∧ f.reg ≠ F.WASTE_C_COUNT.reg) then T.skid
  else if T.skid = 8 then (if n = 0 then 8 else n - 1)
  else min T.skidBound (T.skid + n)

/-- Has a pending SAMPLE reached its bound, so that it is taken before another instruction is dispatched (R655)? -/
def Tile.skidOut (T : Tile) : Bool := !T.handler && T.events.sample && T.skid ≤ 6 && T.skidBound ≤ T.skid

/-- Count a slot that R641 counts, and in SLOT_HANDLER if the tile is in handler mode. -/
def Tile.slot (T : Tile) (f : Fld) (n : Nat) : Tile :=
  let T := { T.addFld f n with skid := T.skidAfter f n }
  if T.handler then T.addFld F.SLOT_HANDLER_COUNT n else T

/-- The counter of retired slots of a queue: S is 1, M 2, C 3, X 4. -/
def retFld (q : Nat) : Fld := F.RET_S_COUNT.at (q - 1)
/-- The counter of wasted slots of a queue. -/
def wasteFld (q : Nat) : Fld := F.WASTE_S_COUNT.at (q - 1)

/-- FENCED is taken, for the generation it carries (R143). -/
def Tile.takeFenced (T : Tile) (gen : Nat) : Tile :=
  { T with events := { T.events with fenced := .none } }.exception 0x20 0 0 true T.pc T.pc (BitVec.ofNat 64 gen)

/-- A synchronous cause of the instruction at PC, which names queue `q`: it is found at dispatch (R139), its slot
is wasted (R641), and in handler mode it is a double fault (R144). TSTORE_ECC (6) marks the tile for retirement
(R583). FENCED, due at the same boundary, is taken in its place (R143). -/
def Tile.syncExc (T : Tile) (q code sub : Nat) (info : Word) : Tile :=
  match T.handler, T.events.fenced with
  | false, some gen => T.takeFenced gen
  | _, _ =>
    let T := { T.slot (wasteFld q) 1 with marked := T.marked || code == 6 }
    if T.handler then T.doubleFault else T.exception code 0 sub false T.pc T.pc info

/-- A queue cause of the instruction at address `qpc` in queue `q` (R139, R140, R144). FENCED, due at the same boundary, is
taken in its place; the instruction runs again later (R143). -/
def Tile.queueExc (T : Tile) (q code : Nat) (qpc info : Word) : Tile :=
  match T.handler, T.events.fenced with
  | false, some gen => T.takeFenced gen
  | _, _ => if T.handler then T.doubleFault else T.exception code q 0 false T.pc qpc info

/-- Go on at an address. A fetch from a misaligned or out-of-range address raises FETCH (R142, R156). -/
def Tile.goto (T : Tile) (a : Word) : Tile :=
  if a.toNat % 4 = 0 ∧ a.toNat + 4 ≤ storeEnd then { T with pc := a }
  else
    let T := { T with pc := BitVec.ofNat 64 (a.toNat / 4 * 4) }
    T.queueExc 0 2 T.pc a

/-- `eret` in normal course (R146): the queues unfreeze, DISCARD clears, user mode returns, and dispatch goes on at
EXC_PC. A faulting instruction that was not discarded is still at the head of its queue. -/
def Tile.return (T : Tile) : Tile :=
  let T := T.setFld F.TILE_STATUS_FROZEN 0
  let T := T.setFld F.EXC_CAUSE_DISCARD 0
  let T := T.setFld F.TILE_STATUS_MODE 0
  T.goto (T.ctlWord F.EXC_PC_PC.reg)

/-! ## Dispatch -/

/-- Does an enabled breakpoint match the instruction at PC? The first instruction after a resume or step never matches
(R668). -/
def Tile.breakHit (T : Tile) : Bool :=
  T.fld F.DBG_CTL_BRK_EN != 0 && !T.fresh && [0, 1, 2, 3].any (fun n =>
    bitOf (T.fld F.DBG_CTL_BRK_EN) n && T.fld (F.DBG_BRK_ADDR.at n) == T.pc.toNat &&
      (T.fld (F.DBG_BRK_USER_ONLY.at n) == 0 || !T.handler))

/-- May the tile dispatch an instruction that uses these scalar registers? No barrier waits, no double fault has
stopped it, it is neither halted nor halting, its clock runs and has started, it is not held in a reset or for Hibernate and its block is in service, no breakpoint matches, no
SAMPLE has to be taken first, and no unfinished M, C or X instruction is to write one of the registers (R41, R104, R106, R144, R655,
R665, R668). -/
def Tile.ready (T : Tile) (regs : List Nat) : Bool :=
  T.barrier == .none && T.fld F.TILE_STATUS_DOUBLE == 0 && T.fld F.DBG_STATUS_HALTED == 0 &&
  T.fld F.DBG_STATUS_STOPPING == 0 && T.power == .on && !T.clockHold && !T.inReset && !T.out && !T.hibHold && !T.breakHit && !T.skidOut &&
  regs.all (fun r => !T.sWait.contains r)

/-- What fetching the `len` bytes of the instruction at PC finds (R142, R156): an extended form that crosses the
end of the store, or an uncorrectable error in the words. -/
def Tile.fetchFault (T : Tile) (len : Nat) : Option (Nat × Word) :=
  if storeEnd < T.pc.toNat + len then some (2, T.pc)
  else if T.hasUE T.pc.toNat len then some (6, T.firstUE T.pc.toNat len)
  else none

/-- What the execution of an instruction gives: it is done and goes on at an address, it raises a synchronous cause, or
it waits. -/
inductive SRes where
  | ok (T : Tile) (next : Word)
  | sync (code sub : Nat) (info : Word)
  | wait

/-! ## Ranges of the tile store -/

/-- Does an access to one range have to keep its order with an access to the other: they overlap, and one writes? (R107) -/
def rangesMeet (l m : List (Bool × Nat × Nat)) : Bool :=
  l.any (fun x => m.any (fun y => (x.1 || y.1) && overlaps x.2.1 x.2.2 y.2.1 y.2.2))

/-- The ranges of a tile program run: its window and the slots it writes back (R299), which it both reads and writes, and
its frame and program, which it reads. -/
def ProgRun.ranges (r : ProgRun) : List (Bool × Nat × Nat) :=
  [(true, r.win, r.winSize), (true, r.frame + 128, 96), (false, r.frame, 256)]

/-- The ranges of the pending tile program run. -/
def Tile.runRanges (T : Tile) : List (Bool × Nat × Nat) := (T.run.map ProgRun.ranges).getD []

/-! ## What X instructions touch (R107) -/

/-- The fields of a movement instruction's word 0 and its word 1. -/
def moveFields : Instr → Option (FX × XKind)
  | .mvDma _ f => some (f, .dma)
  | .mvStream _ f => some (f, .stream)
  | .mvSend _ f => some (f, .send)
  | .mvRecv _ f => some (f, .recv)
  | _ => none

/-- The fields of an atomic instruction (R132), and its kind. -/
def atomicFields : Instr → Option (F3 × XKind)
  | .hold _ f => some (f, .hold)
  | .commit _ f => some (f, .commit)
  | .amoadd _ f | .amoand _ f | .amoor _ f | .amoxor _ f | .amomin _ f | .amomax _ f | .amominu _ f | .amomaxu _ f
  | .amoswap _ f | .amofadd64 _ f | .amofadd32 _ f => some (f, .atomic)
  | _ => none

/-- The scalar register that an X instruction writes (R126, R132). -/
def destReg (i : Instr) : Nat :=
  match moveFields i, atomicFields i with
  | some (f, _), _ => f.a.toNat
  | _, some (f, _) => f.a.toNat
  | _, _ => 0

/-- LEN of `mv.dma` and `mv.send`, in lines (R389, R454). -/
def lenOf (i : Instr) : Nat :=
  match moveFields i with
  | some (f, .dma) => bitsOf f.w1.toNat 15 17
  | some (f, .send) => bitsOf f.w1.toNat 20 12
  | _ => 0

/-- The size of an atomic's operand in bytes (R132). -/
def atomicSize : Instr → Nat
  | .amofadd32 _ _ => 4
  | _ => 8

/-- A stream descriptor's word `n` (R270). -/
def descWord (T : Tile) (a n : Nat) : Nat := T.peek (a + 8 * n) 8

/-- The extents of a stream in the tile store: index list, packed local range and status word (R272), and before its launch the
descriptor, which the engine reads at launch. -/
def streamExtents (T : Tile) (e : QEntry) : List (Bool × Nat × Nat) :=
  let a := e.sc.toNat
  let w0 := descWord T a 0
  let kind := bitsOf w0 0 4
  let es := 2 ^ bitsOf w0 8 3
  let n := if kind < 2 then bitsOf w0 16 21 else bitsOf w0 16 21 * bitsOf (descWord T a 2) 0 21
  let lo := if kind % 2 = 0 then (e.desc.toNat / 2 ^ 64) % 2 ^ 64 else e.sb.toNat
  let idx := if kind < 2 then [(false, bitsOf (descWord T a 1) 0 22, bitsOf w0 16 21 * (if bitOf w0 4 then 8 else 4))] else []
  [(false, a, 32), (kind % 2 == 0, lo % 2 ^ 22, n * es), (true, bitsOf (descWord T a 2) 32 22, 8)] ++ idx

/-- The tile of an X instruction. -/
def xTile : Instr → Nat
  | .mvDma t _ | .mvStream t _ | .mvSend t _ | .mvRecv t _ => t
  | .hold t _ | .commit t _ | .amoadd t _ | .amoand t _ | .amoor t _ | .amoxor t _ | .amomin t _ | .amomax t _
  | .amominu t _ | .amomaxu t _ | .amoswap t _ | .amofadd64 t _ | .amofadd32 t _ => t
  | _ => 0

/-- The ranges of the tile's own store that an unfinished X instruction touches: whether it writes, base, bytes
(R107). A movement instruction keeps sB in `sb`, sC in the second word of `desc`, DREG's value in `sc`. A stream that has launched
keeps its extents in `ranges` and the descriptor in the upper half of `desc`. -/
def xRanges (T : Tile) (e : QEntry) : List (Bool × Nat × Nat) :=
  let own : Bool → Nat → Nat → List (Bool × Nat × Nat) := fun w g n =>
    if g / 2 ^ 60 = 0 ∨ (g / 2 ^ 60 = 1 ∧ bitsOf g 46 14 = xTile e.instr) then [(w, g % 2 ^ 22, n)] else []
  match moveFields e.instr, atomicFields e.instr with
  | some (_, .dma), _ => own false e.sb.toNat (64 * lenOf e.instr) ++ own true (e.desc.toNat / 2 ^ 64 % 2 ^ 64) (64 * lenOf e.instr)
  | some (_, .send), _ => own false e.sb.toNat (64 * lenOf e.instr)
  | some (_, .stream), _ => if e.ranges = [] then streamExtents T e else e.ranges
  | _, some _ => own true e.sb.toNat 8
  | _, _ => []

/-- The instructions of the X queue that have not completed: those queued, and those that hold a tag of their own. -/
def Tile.xOpen (T : Tile) : List QEntry :=
  T.xq ++ (T.reqs.filter (fun (r : Nat × XReq) => r.2.kind != .part && !r.2.done)).map (fun r => r.2.entry)

/-- The instructions of the M and C queues. -/
def Tile.mcOpen (T : Tile) : List QEntry := T.mq ++ T.cq

/-- The ranges that unfinished instructions of the M, C and X queues touch, of those that stand before `age`. -/
def Tile.earlierRanges (T : Tile) (age : Nat) : List (Bool × Nat × Nat) :=
  (T.mcOpen.filter (fun e => e.age < age)).flatMap (·.ranges) ++ (T.xOpen.filter (fun e => e.age < age)).flatMap (xRanges T)

/-- The ranges of every unfinished instruction: those in the queues and the pending run. -/
def Tile.openRanges (T : Tile) : List (Bool × Nat × Nat) :=
  T.mcOpen.flatMap (·.ranges) ++ T.xOpen.flatMap (xRanges T) ++ T.runRanges

/-- Does an access of the control core wait? Accesses of one tile to overlapping bytes, one of them a write, take effect in
program order (R107, R299). -/
def Tile.waits (T : Tile) (a n : Nat) (write : Bool) : Bool := rangesMeet [(write, a, n)] T.openRanges

/-- Does an access to a mask register wait for an instruction of the C queue that names it, or for a run, which may name
any (R106)? -/
def Tile.maskWaits (T : Tile) (r : Nat) (write : Bool) : Bool :=
  r != 0 && (T.run.isSome || T.cq.any (fun e => e.masks.any (fun m => m.2 == r && (write || m.1))))

/-- Entries of the range table that are taken (R107, R299). -/
def Tile.tableUsed (T : Tile) : Nat := (T.openRanges.filter (·.1)).length

/-- Has the range table room for an instruction with these ranges? It holds 32 entries; a trigger needs two (R107, R299). -/
def Tile.tableRoom (T : Tile) (ranges : List (Bool × Nat × Nat)) (trigger : Bool) : Bool :=
  T.tableUsed == 0 || !ranges.any (·.1) || T.tableUsed + (if trigger then 2 else 1) ≤ 32

/-- The solver instructions (R320). -/
def isSolver : Instr → Bool
  | .sinit .. | .sdelta .. | .ssolve .. | .ssolvet .. | .sresid .. | .sresidt .. | .sfree .. => true
  | _ => false

/-- Is a tile program run or a solver instruction pending, for which every prepare phase waits (R300, R326)? -/
def Tile.unfinished (T : Tile) : Bool := T.run.isSome || T.mq.any (fun e => isSolver e.instr)

/-- Is an instruction the trigger of a tile program run: `tprog`, or a drain whose descriptor has DEST = 1 (R293)? -/
def QEntry.trigger (e : QEntry) : Bool :=
  match e.instr with
  | .tprog .. => true
  | .mdrain .. => bitsOf e.desc.toNat 344 2 == 1
  | .mmac .. | .mgrp .. => bitOf e.w1 1 && bitsOf e.desc.toNat 344 2 == 1
  | _ => false

/-- May an instruction start at the head of queue `q`, as the pending run allows? An earlier one may. A later one of the C
queue waits until the run ends (R298). A later one of the M queue waits until an epilogue has released the array (R297), and
where it needs the chain until the run ends (R105, R298); and for the ranges of the run (R299). -/
def Tile.runAllows (T : Tile) (q : Nat) (e : QEntry) : Bool :=
  match T.run with
  | none => true
  | some r =>
    e.age < r.entry.age ||
      (q == 2 && (!r.epilogue || r.released) && !isSolver e.instr && !e.trigger && !rangesMeet e.ranges r.ranges)

/-- May an instruction start at the head of queue `q`: the run allows it, and no earlier instruction has to finish with a
range of its own (R107)? -/
def Tile.startable (T : Tile) (q : Nat) (e : QEntry) : Bool :=
  T.runAllows q e && !rangesMeet e.ranges (T.earlierRanges e.age)

/-- After an instruction has been dispatched breakpoints match again; under DBG_CTL.STEP the tile halts again (R668). -/
def Tile.afterStep (T : Tile) : Tile :=
  if T.stepping then
    { (T.setFld F.DBG_STATUS_STOPPING 1).setFld F.DBG_STATUS_HALT_WHY 4 with stepping := false, fresh := false }
  else if T.fresh then { T with fresh := false }
  else T

/-- EXC_INFO of ILLEGAL: word 0 in the low half, word 1 or 0 in the high half (R142). -/
def illegalInfo (w0 w1 : Nat) : Word := BitVec.ofNat 64 (w0 % 2 ^ 32 + 2 ^ 32 * w1)

/-- The faults common to every instruction of queue `q`: an uncorrectable error in its words, so that they cannot be read;
then in the order of R156 a reserved field (`bad`, its sub-code), a frozen queue, and an extended form that crosses the end
of the store. -/
def Tile.preFault (T : Tile) (q len w0 w1 : Nat) (bad : Option Nat) : Option (Nat × Nat × Word) :=
  if T.hasUE T.pc.toNat len then some (6, 0, T.firstUE T.pc.toNat len)
  else
    match bad with
    | some sub => some (1, sub, illegalInfo w0 w1)
    | none =>
      if 2 ≤ q ∧ T.frozen q then some (1, 4, illegalInfo w0 w1)
      else if storeEnd < T.pc.toNat + len then some (2, 0, T.pc)
      else none

/-- Dispatch and execution of an S-queue instruction whose words are `w0`, `w1` and which uses the scalar
registers `regs`. -/
def Tile.scalar (T : Tile) (w0 : Nat) (regs : List Nat) (bad : Option Nat) (body : Tile → SRes) : Tile :=
  if T.ready regs then
    match T.preFault 1 4 w0 0 bad with
    | some (code, sub, info) => (T.syncExc 1 code sub info).afterStep
    | none =>
      match body T with
      | .wait => T
      | .ok T' next => ((T'.slot (retFld 1) 1).goto next).afterStep
      | .sync code sub info => (T.syncExc 1 code sub info).afterStep
  else T

/-- What running a queue instruction gives: it is done, or it raises a queue cause with EXC_INFO, the tile left as it
is then. -/
inductive QRes where
  | ok (T : Tile)
  | fault (T : Tile) (code : Nat) (info : Word)

/-- The M queue (2) or the C queue (3). -/
def Tile.queue (T : Tile) (q : Nat) : List QEntry := if q = 2 then T.mq else T.cq

/-- Replace the M or the C queue. -/
def Tile.setQueue (T : Tile) (q : Nat) (l : List QEntry) : Tile := if q = 2 then { T with mq := l } else { T with cq := l }

/-- Entries of the M and C queues (R103). -/
def queueDepth (q : Nat) : Nat := if q = 2 then 8 else 16

/-- An instruction enters its queue: its scalar result is awaited (R106). -/
def Tile.enqueue (T : Tile) (q : Nat) (e : QEntry) : Tile :=
  { T.setQueue q (T.queue q ++ [e]) with
    ages := T.ages + 1, sWait := if e.dest = 0 then T.sWait else insertNat e.dest T.sWait }

/-- The instruction at the head of its queue has completed and leaves it. -/
def Tile.dequeue (T : Tile) (q : Nat) (e : QEntry) : Tile :=
  { T.setQueue q (T.queue q).tail with sWait := T.sWait.filter (· != e.dest) }

/-- Dispatch of an M or C instruction (queue `q`) as the entry `e`, of `len` bytes. It is not dispatched while its queue or
the range table is full (R104, R107), or while `gate` says so. One that may start at once executes at once; else it waits in
its queue with its operands captured, and dispatch goes on (R103). `check` gives the synchronous causes found at dispatch
beyond the reserved fields of `bad`, and what the check itself records. -/
def Tile.queueOp (T : Tile) (q len : Nat) (regs : List Nat) (e : QEntry) (gate : Bool) (bad : Option Nat)
    (check : Tile → Tile × Option (Nat × Nat × Word)) (body : Tile → QEntry → QRes) : Tile :=
  if T.ready (e.dest :: regs) then
    match T.preFault q len e.w0 e.w1 bad with
    | some (code, sub, info) => (T.syncExc q code sub info).afterStep
    | none =>
      if gate || queueDepth q ≤ (T.queue q).length || !T.tableRoom e.ranges e.trigger then T
      else
        match check T with
        | (T, some (code, sub, info)) => (T.syncExc q code sub info).afterStep
        | (T, none) =>
          let next := T.pc + BitVec.ofNat 64 len
          let T := T.slot (retFld q) 1
          if T.queue q = [] ∧ T.startable q e then
            match body T e with
            | .ok T' => (T'.goto next).afterStep
            | .fault T' code info =>
              (({ T' with pc := next }.enqueue q { e with again := true }).queueExc q code e.pc info).afterStep
          else ((T.enqueue q e).goto next).afterStep
  else T

/-- The entry of the M or C instruction at PC. -/
def Tile.entry (T : Tile) (i : Instr) (w0 w1 : Nat) (sa sb sc : Word) (desc : Line) (dest : Nat)
    (ranges : List (Bool × Nat × Nat)) (masks : List (Bool × Nat)) : QEntry :=
  { instr := i, pc := T.pc, sa := sa, sb := sb, sc := sc, desc := desc, w0 := w0, w1 := w1, dest := dest, ranges := ranges,
    masks := masks, age := T.ages }

/-- No causes at dispatch beyond the reserved fields. -/
def noCheck (T : Tile) : Tile × Option (Nat × Nat × Word) := (T, none)

/-- The address after a base word. -/
def Tile.pc4 (T : Tile) : Word := T.pc + 4

end Sys2Proof.Machine
end

