-- ==== Sys2Proof/Machine/Flags.lean ====
section
/-!
DEFINITION. The sticky arithmetic flags (R187, R188): a set of flags is a number with one bit per flag, placed as in
MFLAGS, VFLAGS and SFLAGS (R194).
-/
namespace Sys2Proof.Machine

/-- INVALID (R188). -/
def flInvalid : Nat := 1
/-- DIVZERO (R188). -/
def flDivzero : Nat := 2
/-- OVERFLOW (R188). -/
def flOverflow : Nat := 4
/-- UNDERFLOW (R188). -/
def flUnderflow : Nat := 8
/-- INEXACT (R188). -/
def flInexact : Nat := 16
/-- RANGE, SFLAGS only (R188). -/
def flRange : Nat := 32

/-- A flag where a condition holds. -/
def flagIf (c : Bool) (f : Nat) : Nat := if c then f else 0

/-- OR a set of flags into a flag register (R190). A write of 1 in the same tile cycle does not clear them (R192). -/
def Tile.orFlags (T : Tile) (reg fl : Nat) : Tile :=
  { T.setCtl reg (T.ctlWord reg ||| BitVec.ofNat 64 fl) with
    flagsNow := T.flagsNow.upd (fun _ => 0) reg (fun old => Nat.lor old fl) }

/-- MFLAGS (R187). -/
def mflagsAddr : Nat := 0
/-- VFLAGS (R187). -/
def vflagsAddr : Nat := 1
/-- SFLAGS (R187). -/
def sflagsAddr : Nat := 2

end Sys2Proof.Machine
end

