-- ==== Sys2Proof/Machine/Float.lean ====
section
/-!
DEFINITION. Number formats, rounding and conversion (R158 to R186). A value is held exactly; one function rounds
it once into a destination format and says which flags that sets.
-/
namespace Sys2Proof.Machine

/-! ## Exact values -/

/-- An exact value: a NaN (signalling or not), an infinity by sign, or (−1)^neg × n / d × 2^e with d > 0. A zero
keeps its sign. -/
inductive Exact where
  | nan (signalling : Bool)
  | inf (neg : Bool)
  | fin (neg : Bool) (n d : Nat) (e : Int)
  deriving DecidableEq, Repr

/-- +0. -/
def Exact.zero : Exact := .fin false 0 1 0

/-- An integer scaled by a power of two. -/
def Exact.ofInt (z e : Int) : Exact := .fin (z < 0) z.natAbs 1 e

/-- Is it a zero? -/
def Exact.isZero : Exact → Bool
  | .fin _ n _ _ => n == 0
  | _ => false

/-- Is it a NaN? -/
def Exact.isNan : Exact → Bool
  | .nan _ => true
  | _ => false

/-- Is it a signalling NaN? -/
def Exact.isSig : Exact → Bool
  | .nan s => s
  | _ => false

/-- The sign: true for minus. -/
def Exact.neg : Exact → Bool
  | .nan _ => false
  | .inf s => s
  | .fin s _ _ _ => s

/-- The magnitude with a given sign; a NaN is left alone. -/
def Exact.withSign (s : Bool) : Exact → Exact
  | .nan g => .nan g
  | .inf _ => .inf s
  | .fin _ n d e => .fin s n d e

/-- Negate; a NaN is left alone (R184). -/
def Exact.negate (x : Exact) : Exact := x.withSign (!x.neg)

/-- 2^e as a numerator factor: 2^e for e ≥ 0, else 1. -/
def powNum (e : Int) : Nat := if 0 ≤ e then 2 ^ e.toNat else 1
/-- 2^−e as a denominator factor: 2^−e for e < 0, else 1. -/
def powDen (e : Int) : Nat := if 0 ≤ e then 1 else 2 ^ (-e).toNat

/-- Compare the magnitudes of two finite values n/d × 2^e. -/
def magLt (n1 d1 : Nat) (e1 : Int) (n2 d2 : Nat) (e2 : Int) : Bool :=
  n1 * d2 * powNum (e1 - e2) < n2 * d1 * powDen (e1 - e2)

/-- Signed numerator of a finite value. -/
def sgn (neg : Bool) (n : Nat) : Int := if neg then -(n : Int) else n

/-- Sum of two exact values. An exact zero sum of opposite signs is +0, or −0 under RDN (R173). -/
def Exact.add (rdn : Bool) : Exact → Exact → Exact × Nat
  | .nan s, y => (.nan false, flagIf (s || y.isSig) flInvalid)
  | x, .nan s => (.nan false, flagIf (s || x.isSig) flInvalid)
  | .inf s, .inf r => if s = r then (.inf s, 0) else (.nan false, flInvalid)
  | .inf s, .fin _ _ _ _ => (.inf s, 0)
  | .fin _ _ _ _, .inf s => (.inf s, 0)
  | .fin s n d e, .fin r m c f =>
    let g := min e f
    let z := sgn s n * c * (powNum (e - g) : Nat) + sgn r m * d * (powNum (f - g) : Nat)
    if z = 0 then (.fin (if n = 0 ∧ m = 0 ∧ s = r then s else rdn) 0 1 0, 0)
    else (.fin (z < 0) z.natAbs (d * c) g, 0)

/-- Product of two exact values (R184). -/
def Exact.mul : Exact → Exact → Exact × Nat
  | .nan s, y => (.nan false, flagIf (s || y.isSig) flInvalid)
  | x, .nan s => (.nan false, flagIf (s || x.isSig) flInvalid)
  | .inf s, .inf r => (.inf (s != r), 0)
  | .inf s, .fin r n _ _ => if n = 0 then (.nan false, flInvalid) else (.inf (s != r), 0)
  | .fin r n _ _, .inf s => if n = 0 then (.nan false, flInvalid) else (.inf (s != r), 0)
  | .fin s n d e, .fin r m c f => (.fin (s != r) (n * m) (d * c) (e + f), 0)

/-- Fused x × y + z; 0 × ∞ + NaN sets INVALID (R184). -/
def Exact.fma (rdn : Bool) (x y z : Exact) : Exact × Nat :=
  let p := x.mul y
  let q := p.1.add rdn z
  (q.1, p.2 ||| q.2)

/-- Reciprocal (R184). -/
def Exact.recip : Exact → Exact × Nat
  | .nan s => (.nan false, flagIf s flInvalid)
  | .inf s => (.fin s 0 1 0, 0)
  | .fin s n d e => if n = 0 then (.inf s, flDivzero) else (.fin s d n (-e), 0)

/-- Quotient (R184): 0 / 0 and ∞ / ∞ are INVALID, and a nonzero finite value over 0 is DIVZERO. -/
def Exact.div : Exact → Exact → Exact × Nat
  | .nan s, y => (.nan false, flagIf (s || y.isSig) flInvalid)
  | x, .nan s => (.nan false, flagIf (s || x.isSig) flInvalid)
  | .inf _, .inf _ => (.nan false, flInvalid)
  | .inf s, .fin r _ _ _ => (.inf (s != r), 0)
  | .fin s _ _ _, .inf r => (.fin (s != r) 0 1 0, 0)
  | .fin s n d e, .fin r m c f =>
    if m = 0 then (if n = 0 then (.nan false, flInvalid) else (.inf (s != r), flDivzero))
    else (.fin (s != r) (n * c) (d * m) (e - f), 0)

/-- The largest r with r² ≤ x, r below 2^k. -/
def isqrtBits (x : Nat) : Nat → Nat → Nat
  | 0, r => r
  | k + 1, r =>
    let c := r + 2 ^ k
    if c * c ≤ x then isqrtBits x k c else isqrtBits x k r

/-- Integer square root, rounded down. -/
def isqrt (x : Nat) : Nat := isqrtBits x (bitLen x / 2 + 1) 0

/-- A magnitude known to `k` fraction bits: exactly y × 2^−k where `exact`, else strictly between y and y + 1. The
middle of that interval stands for it: it lies on the same side of every breakpoint that is a multiple of 2^−k. -/
def Exact.enclosed (neg exact : Bool) (y : Nat) (k : Int) : Exact :=
  if exact then .fin neg y 1 (-k) else .fin neg (2 * y + 1) 1 (-k - 1)

/-- floor(log2 (n / d × 2^e)) for n > 0. -/
def floorLog2 (n d : Nat) (e : Int) : Int :=
  let k : Int := (bitLen n : Int) - bitLen d + e
  if magLt n d e 1 1 k then k - 1 else k

/-- 1 / √x to `p` bits and 40 more (R184). -/
def Exact.rsqrt (p : Nat) : Exact → Exact × Nat
  | .nan s => (.nan false, flagIf s flInvalid)
  | .inf s => if s then (.nan false, flInvalid) else (.zero, 0)
  | .fin s n d e =>
    if n = 0 then (.inf s, flDivzero)
    else if s then (.nan false, flInvalid)
    else
      let k : Int := p + 42 + (floorLog2 n d e) / 2
      let f := 2 * k - e
      let q := d * powNum f / (n * powDen f)
      let y := isqrt q
      (.enclosed false (y * y == q && q * (n * powDen f) == d * powNum f) y k, 0)

/-- √x to `p` bits and 40 more, for x ≥ 0. -/
def Exact.sqrtPos (p : Nat) : Exact → Exact
  | .fin _ n d e =>
    if n = 0 then .zero
    else
      let k : Int := p + 42 - (floorLog2 n d e) / 2
      let f := 2 * k + e
      let q := n * powNum f / (d * powDen f)
      let y := isqrt q
      .enclosed false (y * y == q && q * (d * powDen f) == n * powNum f) y k
  | x => x

/-- x < y for values that are not NaN. -/
def Exact.lt : Exact → Exact → Bool
  | .inf s, .inf r => s && !r
  | .inf s, _ => s
  | _, .inf r => !r
  | .fin s n d e, .fin r m c f =>
    let g := min e f
    sgn s n * c * (powNum (e - g) : Nat) < sgn r m * d * (powNum (f - g) : Nat)
  | _, _ => false

/-- Equality of values that are not NaN; −0 equals +0. -/
def Exact.eqv (x y : Exact) : Bool := !x.lt y && !y.lt x

/-! ## Formats (R158, R161) -/

/-- The parameters of a float format: exponent and trailing significand widths, bias, and the significand and
exponent of the largest finite value. -/
structure FFmt where
  w : Nat
  t : Nat
  b : Nat
  maxMant : Nat
  maxExp : Nat
  deriving DecidableEq, Repr

/-- FP64. -/
def fp64 : FFmt := ⟨11, 52, 1023, 2 ^ 53 - 1, 1023⟩
/-- FP32. -/
def fp32 : FFmt := ⟨8, 23, 127, 2 ^ 24 - 1, 127⟩
/-- FP16. -/
def fp16 : FFmt := ⟨5, 10, 15, 2 ^ 11 - 1, 15⟩
/-- BF16. -/
def bf16 : FFmt := ⟨8, 7, 127, 255, 127⟩
/-- E4M3: the largest finite value is 1.75 × 2^8 = 448 (R162). -/
def e4m3 : FFmt := ⟨4, 3, 7, 14, 8⟩
/-- E5M2. -/
def e5m2 : FFmt := ⟨5, 2, 15, 7, 15⟩
/-- E2M1: the largest finite value is 1.5 × 2^2 = 6 (R162). -/
def e2m1 : FFmt := ⟨2, 1, 1, 3, 2⟩
/-- EXT80: 64 bits of precision (R166). -/
def ext80 : FFmt := ⟨16, 63, 32767, 2 ^ 64 - 1, 32767⟩

/-- The float format of a code of R158. -/
def floatFmt : Nat → Option FFmt
  | 0 => some fp64
  | 1 => some fp32
  | 2 => some fp16
  | 3 => some bf16
  | 4 => some e4m3
  | 5 => some e5m2
  | 6 => some e2m1
  | 11 => some ext80
  | _ => none

/-- Width in bits of a format of R158. -/
def fmtBits : Nat → Nat
  | 0 => 64
  | 1 => 32
  | 2 => 16
  | 3 => 16
  | 4 => 8
  | 5 => 8
  | 6 => 4
  | 7 => 8
  | 8 => 8
  | 9 => 4
  | 10 => 32
  | 11 => 80
  | _ => 8

/-- Precision of a float format in bits, hidden bit included. -/
def FFmt.prec (f : FFmt) : Nat := f.t + 1

/-- Least exponent of a normal value. -/
def FFmt.emin (f : FFmt) : Int := 1 - (f.b : Int)

/-- The value of an encoding of a float format (R160 to R162, R166). -/
def decodeFloat (code : Nat) (f : FFmt) (x : Nat) : Exact :=
  let s := bitOf x (f.w + f.t)
  let ef := bitsOf x f.t f.w
  let tf := bitsOf x 0 f.t
  if code = 4 then
    if ef = 15 ∧ tf = 7 then .nan false
    else if ef = 0 then .fin s tf 1 (f.emin - f.t) else .fin s (tf + 2 ^ f.t) 1 ((ef : Int) - f.b - f.t)
  else if code = 6 then
    if ef = 0 then .fin s tf 1 (f.emin - f.t) else .fin s (tf + 2 ^ f.t) 1 ((ef : Int) - f.b - f.t)
  else if ef = 2 ^ f.w - 1 then
    if tf = 0 then .inf s else .nan (code != 5 && !bitOf tf (f.t - 1))
  else if ef = 0 then .fin s tf 1 (f.emin - f.t)
  else .fin s (tf + 2 ^ f.t) 1 ((ef : Int) - f.b - f.t)

/-- The value of an encoding; `fxp` is the binary point of an FX32 operand (R163 to R166). -/
def decodeNum (code : Nat) (fxp : Int) (x : Nat) : Exact :=
  match floatFmt code with
  | some f => decodeFloat code f x
  | none =>
    if code = 7 then (if x % 256 = 255 then .nan false else .fin false 1 1 ((x % 256 : Nat) - 127))
    else if code = 8 then .ofInt (signed 8 x) 0
    else if code = 9 then .ofInt (signed 4 x) 0
    else .ofInt (signed 32 x) (-fxp)

/-- The canonical NaN of a float format (R161, R166, R182). -/
def canonNan (code : Nat) (f : FFmt) : Nat :=
  if code = 4 then 0x7F else (2 ^ f.w - 1) * 2 ^ f.t + 2 ^ (f.t - 1)

/-! ## Rounding (R172 to R175) -/

/-- Does rounding integer part `i` with remainder `r` of `d` (0 ≤ r < d) go away from zero? `word` is the drawn
word of STOCH (R174). -/
def roundsUp (mode : Nat) (neg : Bool) (word i r d : Nat) : Bool :=
  match mode with
  | 0 => d < 2 * r || d == 2 * r && i % 2 == 1
  | 1 => false
  | 2 => r != 0 && !neg
  | 3 => r != 0 && neg
  | _ => 2 ^ 32 ≤ r * 2 ^ 32 / d + word

/-- n/d × 2^e in units of 2^q: integer part, remainder and divisor. -/
def scaleTo (n d : Nat) (e q : Int) : Nat × Nat × Nat :=
  let a := n * powNum (e - q)
  let c := d * powDen (e - q)
  (a / c, a % c, c)

/-- The integer a magnitude rounds to in units of 2^q, and whether it is inexact. -/
def roundAt (mode : Nat) (neg : Bool) (word n d : Nat) (e q : Int) : Nat × Bool :=
  let (i, r, c) := scaleTo n d e q
  (if roundsUp mode neg word i r c then i + 1 else i, r != 0)

/-- Is a magnitude i × 2^q beyond the largest finite value of a format? -/
def FFmt.beyond (f : FFmt) (i : Nat) (q : Int) : Bool :=
  let qm : Int := (f.maxExp : Int) - f.t
  qm < q || q == qm && f.maxMant < i

/-- The mode whose rounding the overflow test uses beside RNE: the directed mode itself, away from zero for
STOCH (R173). -/
def dirMode (mode : Nat) (neg : Bool) : Nat := if mode = 4 then (if neg then 3 else 2) else mode

/-- The encoding of i × 2^q, at most the largest finite value, with `q` no less than the least quantum. -/
def FFmt.encode (f : FFmt) (neg : Bool) (i : Nat) (q : Int) : Nat :=
  let (i, q) := if i = 2 ^ (f.t + 1) then (2 ^ f.t, q + 1) else (i, q)
  let body := if i < 2 ^ f.t then i else (q + f.t + f.b).toNat * 2 ^ f.t + (i - 2 ^ f.t)
  b2n neg * 2 ^ (f.w + f.t) + body

/-- The encoding of the largest finite value. -/
def FFmt.largest (f : FFmt) (neg : Bool) : Nat := f.encode neg f.maxMant ((f.maxExp : Int) - f.t)

/-- What an overflow delivers away from zero without SAT (R175): an infinity, NaN by sign for E4M3, the largest
finite value for E2M1. -/
def overflowUp (code : Nat) (f : FFmt) (neg : Bool) : Nat :=
  if code = 4 then b2n neg * 128 + 0x7F
  else if code = 6 then f.largest neg
  else b2n neg * 2 ^ (f.w + f.t) + (2 ^ f.w - 1) * 2 ^ f.t

/-- Does the overflow result go up? (R175) -/
def overflowGoesUp (mode : Nat) (neg : Bool) (word n d : Nat) (e q : Int) : Bool :=
  match mode with
  | 0 => true
  | 1 => false
  | 2 => !neg
  | 3 => neg
  | _ => let (i, r, c) := scaleTo n d e q; roundsUp 4 neg word i r c

/-- Round a nonzero finite magnitude into a float format: its encoding and flags (R173 to R175, R188). -/
def roundFloat (code : Nat) (f : FFmt) (mode : Nat) (sat : Bool) (word : Nat) (neg : Bool) (n d : Nat) (e : Int) :
    Nat × Nat :=
  let ev := floorLog2 n d e
  let qu := ev - f.t
  let rne := (roundAt 0 neg word n d e qu).1
  let dir := (roundAt (dirMode mode neg) neg word n d e qu).1
  if f.beyond rne qu || f.beyond dir qu then
    let up := overflowGoesUp mode neg word n d e qu
    (if sat || !up then f.largest neg else overflowUp code f neg, flOverflow ||| flInexact)
  else
    let q := max ev f.emin - f.t
    let r := roundAt mode neg word n d e q
    let tiny := rne * powNum (qu - (f.emin - f.t)) < 2 ^ f.t * powDen (qu - (f.emin - f.t))
    (f.encode neg r.1 q, flagIf (r.2 && tiny) flUnderflow ||| flagIf r.2 flInexact)

/-- Round a finite value to an integer of `w` bits in units of 2^−fxp (R179). -/
def roundFixed (w : Nat) (fxp : Int) (mode word : Nat) (neg : Bool) (n d : Nat) (e : Int) : Nat × Nat :=
  let r := roundAt mode neg word n d (e + fxp) 0
  let z := sgn neg r.1
  let hi : Int := (2 ^ (w - 1) : Nat) - 1
  let lo : Int := -(2 ^ (w - 1) : Nat)
  if hi < z then (wrapTo w hi, flInvalid)
  else if z < lo then (wrapTo w lo, flInvalid)
  else (wrapTo w z, flagIf r.2 flInexact)

/-- Conversion to E8M0 (R180). -/
def toE8M0 : Exact → Nat × Nat
  | .nan _ => (0xFF, flInvalid)
  | .inf _ => (0xFF, flInvalid)
  | .fin neg n d e =>
    let sgnFl := flagIf neg flInexact
    if n = 0 then (0, flUnderflow ||| flInexact)
    else
      let ev := floorLog2 n d e
      if 127 < ev then (0xFE, flOverflow ||| flInexact)
      else if ev < -127 then (0, flUnderflow ||| flInexact)
      else ((ev + 127).toNat, flagIf (magLt 1 1 ev n d e) flInexact ||| sgnFl)

/-- Round an exact value into a format: its encoding and the flags that sets (R172 to R182). `fxp` is the binary
point of an FX32 destination, `word` the drawn word of STOCH. -/
def roundNum (code : Nat) (fxp : Int) (mode : Nat) (sat : Bool) (word : Nat) (x : Exact) : Nat × Nat :=
  match floatFmt code with
  | some f =>
    match x with
    | .nan s =>
      if code = 6 then (0, flInvalid) else (canonNan code f, flagIf s flInvalid)
    | .inf neg =>
      if code = 4 then (if sat then f.largest neg else overflowUp 4 f neg, flInvalid)
      else if code = 6 then (f.largest neg, flInvalid)
      else (overflowUp code f neg, 0)
    | .fin neg n d e =>
      if n = 0 then (b2n neg * 2 ^ (f.w + f.t), 0) else roundFloat code f mode sat word neg n d e
  | none =>
    if code = 7 then toE8M0 x
    else
      let w := fmtBits code
      match x with
      | .nan _ => (0, flInvalid)
      | .inf neg => (wrapTo w (if neg then -(2 ^ (w - 1) : Nat) else (2 ^ (w - 1) : Nat) - 1), flInvalid)
      | .fin neg n d e => roundFixed w (if code = 10 then fxp else 0) mode word neg n d e

/-- Conversions that R177 lists as exact for every input, and same-format moves: they draw no word. `fs` is the binary
point of the source and `fxp` that of the destination. DEDUCED (log 19): R177 names the pairs of its first row one by one and
E4M3 and E5M2 to BF16 are not among them, though BF16 has as many bits of both fields; they count as roundings, and draw. -/
def exactConv (src dst : Nat) (fs fxp : Int) : Bool :=
  src == dst && (src != 10 || fs == fxp) ||
  (match src, dst with
   | 1, 0 => true | 2, 0 => true | 3, 0 => true | 4, 0 => true | 5, 0 => true | 6, 0 => true
   | 2, 1 => true | 3, 1 => true | 4, 1 => true | 5, 1 => true | 6, 1 => true
   | 4, 2 => true | 5, 2 => true | 6, 2 => true
   | 6, 4 => true | 6, 5 => true | 6, 3 => true
   | 9, 8 => true | 9, 0 => true | 9, 1 => true | 9, 2 => true | 9, 3 => true | 9, 4 => true | 9, 5 => true
   | 8, 0 => true | 8, 1 => true | 8, 2 => true
   | 10, 0 => true
   | 7, 0 => true | 7, 1 => true | 7, 3 => true
   | 8, 10 => 0 ≤ fxp && fxp ≤ 24
   | _, 11 => true
   | _, _ => false)

/-- Does a conversion draw a word under STOCH? (R174) -/
def convDraws (src dst : Nat) (fs fxp : Int) : Bool := !exactConv src dst fs fxp && dst != 7

/-! ## MX blocks (R168 to R171) -/

/-- emax of an MX element format (R168). -/
def mxEmax : Nat → Int
  | 4 => 8
  | 5 => 15
  | 6 => 2
  | _ => 0

/-- The element value of an MX element format: INT8 elements are n × 2^−6 (R168). -/
def mxElem (code x : Nat) : Exact := if code = 8 then .ofInt (signed 8 x) (-6) else decodeNum code 0 x

/-- Multiply a value by a block scale; a scale of 0xFF makes it NaN without a flag (R170). -/
def mxScaled (scale : Nat) (x : Exact) : Exact :=
  if scale % 256 = 255 then .nan false
  else match x with
    | .fin s n d e => .fin s n d (e + ((scale % 256 : Nat) - 127))
    | y => y

/-- Convert an MX element quotient with saturation (R171). -/
def mxConvert (code mode word : Nat) (x : Exact) : Nat × Nat :=
  if code = 8 then
    match x with
    | .fin s n d e =>
      let r := roundAt mode s word n d (e + 6) 0
      let z := sgn s r.1
      if 127 < z then (127, flOverflow ||| flInexact)
      else if z < -128 then (wrapTo 8 (-128), flOverflow ||| flInexact)
      else (wrapTo 8 z, flagIf r.2 flInexact)
    | _ => (0, flInvalid)
  else roundNum code 0 mode true word x

/-- The largest magnitude of a list of finite values, as n, d, e. -/
def maxMag : List Exact → Nat × Nat × Int
  | [] => (0, 1, 0)
  | x :: l =>
    let (n, d, e) := maxMag l
    match x with
    | .fin _ m c f => if magLt n d e m c f then (m, c, f) else (n, d, e)
    | _ => (n, d, e)

/-- Quantise the values of one MX block: the scale byte, the elements and the flags (R171). `words` are the drawn
words of STOCH, one per element. -/
def mxQuantise (code mode : Nat) (words : List Nat) (vs : List Exact) : Nat × List Nat × Nat :=
  if vs.any (fun x => match x with | .fin _ _ _ _ => false | _ => true) then (0xFF, vs.map (fun _ => 0), flInvalid)
  else
    let (n, d, e) := maxMag vs
    if n = 0 then
      (0, vs.map (fun x => if code = 8 then 0 else (roundNum code 0 0 true 0 (Exact.zero.withSign x.neg)).1), 0)
    else
      let k := min (max (floorLog2 n d e - mxEmax code) (-127)) 127
      let qs := (vs.zip (words ++ List.replicate vs.length 0)).map (fun p =>
        mxConvert code mode p.2 (match p.1 with | .fin s n d e => .fin s n d (e - k) | y => y))
      ((k + 127).toNat, qs.map (·.1), (qs.map (·.2)).foldl (· ||| ·) 0)

end Sys2Proof.Machine
end

