-- ==== Sys2Proof/Machine/Func.lean ====
section
/-!
DEFINITION. The function stage of the chain (R184, R248, R249). A transcendental result is enclosed between two
neighbouring multiples of 2^−k and rounded once from there; DEDUCED (log entry 40): no argument of a lane format has a
result closer than that to a breakpoint of the format, other than the exact cases of R249.
-/
namespace Sys2Proof.Machine

/-! ## Series in fixed point, `k` fraction bits -/

/-- Σ (−1)^i p_i / (2i + 1) from term `i` on, the powers falling by n² each, `sub` the sign of the term. -/
def arctanLoop (nn : Nat) : Nat → Nat → Nat → Nat × Nat → Nat × Nat
  | 0, _, _, acc => acc
  | f + 1, i, p, (pos, neg) =>
    if p = 0 then (pos, neg)
    else arctanLoop nn f (i + 1) (p / nn)
      (if i % 2 = 0 then (pos + p / (2 * i + 1), neg) else (pos, neg + p / (2 * i + 1)))

/-- arctan(1/n). -/
def arctanInv (n k : Nat) : Nat :=
  let r := arctanLoop (n * n) (k / 2 + 8) 0 (2 ^ k / n) (0, 0)
  r.1 - r.2

/-- π by Machin's formula. -/
def piBits (k : Nat) : Nat := (16 * arctanInv 5 (k + 32) - 4 * arctanInv 239 (k + 32)) / 2 ^ 32

/-- Σ t_i / (2i + 1), the terms falling by z² each. -/
def atanhLoop (zz k : Nat) : Nat → Nat → Nat → Nat → Nat
  | 0, _, _, acc => acc
  | f + 1, i, t, acc => if t = 0 then acc else atanhLoop zz k f (i + 1) (t * zz / 2 ^ k) (acc + t / (2 * i + 1))

/-- artanh of z < 1/2. -/
def atanhBits (z k : Nat) : Nat := atanhLoop (z * z / 2 ^ k) k (k + 8) 0 z 0

/-- ln 2. -/
def ln2Bits (k : Nat) : Nat := 2 * atanhBits (2 ^ (k + 32) / 3) (k + 32) / 2 ^ 32

/-- Σ r^i / i! over every `step`-th power from term `i` on, the positive and the negative terms apart when
`alt`. -/
def powerLoop (rr k step : Nat) (alt : Bool) : Nat → Nat → Nat → Nat × Nat → Nat × Nat
  | 0, _, _, acc => acc
  | f + 1, i, t, (pos, neg) =>
    if t = 0 then (pos, neg)
    else
      let nx := t * rr / 2 ^ k / (if step = 1 then i + 1 else (i + 1) * (i + 2))
      powerLoop rr k step alt f (i + step) nx
        (if alt ∧ (i / 2) % 2 = 1 then (pos, neg + t) else (pos + t, neg))

/-- e^r for 0 ≤ r < 1. -/
def expBits (r k : Nat) : Nat := (powerLoop r k 1 false (k + 8) 0 (2 ^ k) (0, 0)).1
/-- sin r for 0 ≤ r < 1.6. -/
def sinBits (r k : Nat) : Nat := let q := powerLoop (r * r / 2 ^ k) k 2 true (k + 8) 1 r (0, 0); q.1 - q.2
/-- cos r for 0 ≤ r < 1.6. -/
def cosBits (r k : Nat) : Nat := let q := powerLoop (r * r / 2 ^ k) k 2 true (k + 8) 0 (2 ^ k) (0, 0); q.1 - q.2

/-! ## Enclosures -/

/-- Working fraction bits; the lowest 64 are guard bits. -/
def workBits : Nat := 512
/-- Fraction bits of a delivered enclosure. -/
def outBits : Nat := 448

/-- An enclosure from a working value, scaled by 2^m. -/
def enclose (neg : Bool) (w : Nat) (m : Int) : Exact := .enclosed neg false (w / 2 ^ 64) (outBits - m)

/-- A magnitude just below n/d × 2^e. -/
def justBelow (neg : Bool) (n d : Nat) (e : Int) : Exact := .fin neg (n * 2 ^ 200 - 1) d (e - 200)

/-- floor(n/d × 2^(e+k)). -/
def fixOf (n d : Nat) (e : Int) (k : Nat) : Nat := n * powNum (e + k) / (d * powDen (e + k))

/-- e^x for a finite nonzero x. -/
def expFin (neg : Bool) (n d : Nat) (e : Int) : Exact :=
  let ev := floorLog2 n d e
  if ev < -150 then (if neg then justBelow false 1 1 0 else .fin false (2 ^ 200 + 1) 1 (-200))
  else
    let k := workBits
    let x := if 16 ≤ ev then 65536 * 2 ^ k else fixOf n d e k
    let l := ln2Bits k
    let m := x / l
    if neg then
      let m := m + 1
      enclose false (expBits (m * l - x) k) (-(m : Int))
    else enclose false (expBits (x - m * l) k) m

/-- ln x for a finite positive x other than 1. -/
def logFin (n d : Nat) (e : Int) : Exact :=
  let k := workBits
  let q := floorLog2 n d e
  let m := fixOf n d (e - q) k
  let z := (m - 2 ^ k) * 2 ^ k / (m + 2 ^ k)
  let y : Int := 2 * (atanhBits z k : Int) + q * (ln2Bits k : Int)
  enclose (y < 0) y.natAbs 0

/-- |x| modulo π/2 and the quadrant. -/
def quadrant (n d : Nat) (e : Int) : Nat × Nat :=
  let ev := floorLog2 n d e
  let extra := if 0 ≤ ev then ev.toNat + 16 else 16
  let k := workBits + extra
  let half := piBits k / 2
  let x := fixOf n d e k
  (x / half % 4, x % half / 2 ^ extra)

/-- sin x for a finite nonzero x. -/
def sinFin (neg : Bool) (n d : Nat) (e : Int) : Exact :=
  if floorLog2 n d e < -150 then justBelow neg n d e
  else
    let (q, r) := quadrant n d e
    let y := if q % 2 = 0 then sinBits r workBits else cosBits r workBits
    enclose (neg != (2 ≤ q : Bool)) y 0

/-- cos x for a finite nonzero x. -/
def cosFin (n d : Nat) (e : Int) : Exact :=
  if floorLog2 n d e < -150 then justBelow false 1 1 0
  else
    let (q, r) := quadrant n d e
    let y := if q % 2 = 0 then cosBits r workBits else sinBits r workBits
    enclose (q = 1 ∨ q = 2) y 0

/-- tanh x for a finite nonzero x. -/
def tanhFin (neg : Bool) (n d : Nat) (e : Int) : Exact :=
  let ev := floorLog2 n d e
  if ev < -150 then justBelow neg n d e
  else if 8 ≤ ev then justBelow neg 1 1 0
  else
    let k := workBits
    let x := 2 * fixOf n d e k
    let l := ln2Bits k
    let m := x / l
    let g := expBits (x - m * l) k * 2 ^ m
    enclose neg ((g - 2 ^ k) * 2 ^ k / (g + 2 ^ k)) 0

/-- Is a finite value 1? -/
def isOne (n d : Nat) (e : Int) : Bool := n * powNum e == d * powDen e

/-- A function of R249, by its FUNC code of R242, or recip and rsqrt of R184, with the flags of the special cases. -/
def funcExact (fn : Nat) (x : Exact) : Exact × Nat :=
  match fn with
  | 3 => x.rsqrt 64
  | 4 => x.recip
  | _ =>
    match x with
    | .nan s => (.nan false, flagIf s flInvalid)
    | .inf neg =>
      match fn with
      | 1 => (if neg then .zero else .inf false, 0)
      | 2 => if neg then (.nan false, flInvalid) else (.inf false, 0)
      | 7 => (.fin neg 1 1 0, 0)
      | _ => (.nan false, flInvalid)
    | .fin neg n d e =>
      match fn with
      | 1 => (if n = 0 then .fin false 1 1 0 else expFin neg n d e, 0)
      | 2 =>
        if n = 0 then (.inf true, flDivzero)
        else if neg then (.nan false, flInvalid)
        else (if isOne n d e then .zero else logFin n d e, 0)
      | 5 => (if n = 0 then x else sinFin neg n d e, 0)
      | 6 => (if n = 0 then .fin false 1 1 0 else cosFin n d e, 0)
      | _ => (if n = 0 then x else tanhFin neg n d e, 0)

/-- Deliver a value of the function stage in a lane format: correctly rounded, or for exp, log, sin, cos and tanh
in FP64 and EXT80 one of the two neighbours, a free value of the operand (R248). `bits` is the operand's encoding. -/
def funcRound (fn fmt mode : Nat) (sat : Bool) (bits : Nat) (x : Exact) : Nat × Nat :=
  let md := if mode = 4 then 0 else mode
  let r := roundNum fmt 0 md sat 0 x
  if fn = 3 ∨ fn = 4 ∨ (fmt ≠ 0 ∧ fmt ≠ 11) ∨ r.2 &&& flOverflow ≠ 0 then r
  else
    let q := roundNum fmt 0 (if Sys2Proof.Config.funcUp fn fmt bits then 2 else 3) sat 0 x
    if q.2 &&& flOverflow ≠ 0 then roundNum fmt 0 1 sat 0 x else q

/-- A function of an element: its encoding and flags. -/
def funcElem (fn fmt mode : Nat) (sat : Bool) (bits : Nat) : Nat × Nat :=
  let y := funcExact fn (decodeNum fmt 0 bits)
  let r := funcRound fn fmt mode sat bits y.1
  (r.1, y.2 ||| r.2)

end Sys2Proof.Machine
end

