-- ==== Sys2Proof/Machine/Gen.lean ====
section
/-!
DEFINITION. The tile generator, Philox-4×32-10 (R258, R259). PRESUMED: the constants are those of the published
generator, which the spec names without repeating them (log entry 8).
-/
namespace Sys2Proof.Machine

/-- One round of Philox-4×32 on a counter under a key. -/
def philoxRound (c : Nat × Nat × Nat × Nat) (k0 k1 : Nat) : Nat × Nat × Nat × Nat :=
  let (c0, c1, c2, c3) := c
  let p0 := 0xD2511F53 * c0
  let p1 := 0xCD9E8D57 * c2
  ((p1 / 2 ^ 32) ^^^ c1 ^^^ k0, p1 % 2 ^ 32, (p0 / 2 ^ 32) ^^^ c3 ^^^ k1, p0 % 2 ^ 32)

/-- `n` rounds, the key bumped after each. -/
def philoxRounds : Nat → Nat × Nat × Nat × Nat → Nat → Nat → Nat × Nat × Nat × Nat
  | 0, c, _, _ => c
  | n + 1, c, k0, k1 => philoxRounds n (philoxRound c k0 k1) ((k0 + 0x9E3779B9) % 2 ^ 32) ((k1 + 0xBB67AE85) % 2 ^ 32)

/-- Philox-4×32-10 of a counter under a 64-bit key, bits [31:0] of the key first. -/
def philox (key : Nat) (c : Nat × Nat × Nat × Nat) : Nat × Nat × Nat × Nat :=
  philoxRounds 10 c (key % 2 ^ 32) (key / 2 ^ 32 % 2 ^ 32)

/-- One of the four output words. -/
def pick4 (c : Nat × Nat × Nat × Nat) (i : Nat) : Nat :=
  match i with
  | 0 => c.1
  | 1 => c.2.1
  | 2 => c.2.2.1
  | _ => c.2.2.2

/-- Word `pos` of stream `st` of tile `t` (R258). -/
def genWord (T : Tile) (t st pos : Nat) : Nat :=
  let q := pos / 4
  pick4 (philox (T.ctlWord F.VGEN_KEY_KEY.reg).toNat
    (q % 2 ^ 32, q / 2 ^ 32 % 2 ^ 32, T.fld F.VGEN_STREAM_STREAM, t + st * 2 ^ 16)) (pos % 4)

/-- The position register of a stream: the chain stream is 0, the matrix stream 1. -/
def posFld (st : Nat) : Fld := if st = 0 then F.VGEN_POS_C_POS else F.VGEN_POS_M_POS

/-- The next `n` words of a stream, and the tile with its position advanced. -/
def Tile.draw (T : Tile) (t st n : Nat) : List Nat × Tile :=
  let p := T.fld (posFld st)
  ((List.range n).map (fun i => genWord T t st ((p + i) % 2 ^ 64)), T.setFld (posFld st) (p + n))

/-- Draw `n` words where the rounding mode is STOCH, else none. -/
def Tile.drawIf (T : Tile) (mode t st n : Nat) : List Nat × Tile := if mode = 4 then T.draw t st n else ([], T)

end Sys2Proof.Machine
end

