-- ==== Sys2Proof/Machine/Lacc.lean ====
section
/-!
DEFINITION. The long accumulators: deposits, special states, clearing, settling, and the packed record (R185, R200
to R203, R222, R223).
-/
namespace Sys2Proof.Machine

/-- A cleared LACC. -/
def Lacc.zero : Lacc := ⟨0, .none⟩
/-- What an unlisted cell holds. -/
def laccDflt : Nat → Lacc := fun _ => Lacc.zero

/-- The LACC of a cell. -/
def Tile.laccAt (T : Tile) (cell : Nat) : Lacc := T.lacc.get laccDflt cell
/-- Replace the LACC of a cell. -/
def Tile.setLacc (T : Tile) (cell : Nat) (l : Lacc) : Tile := { T with lacc := T.lacc.set laccDflt cell l }
/-- Every LACC to zero in state none, with no carry pending. -/
def Tile.clearLaccs (T : Tile) : Tile := { T with lacc := [], mCarry := false }

/-- Is a value inside the range of R200? -/
def laccInRange (z : Int) : Bool := -(2 ^ 4287 : Nat) ≤ z && z < (2 ^ 4287 : Nat)

/-- Add a finite value; outside the range the LACC enters the infinity of the exact value's sign and OVERFLOW is
due (R201). A special state absorbs it. -/
def Lacc.addFin (l : Lacc) (z : Int) : Lacc × Nat :=
  match l.sp with
  | .none =>
    let y := l.z + z
    if laccInRange y then (⟨y, .none⟩, 0)
    else (⟨0, if y < 0 then .negInf else .posInf⟩, flOverflow)
  | _ => (l, 0)

/-- Add an infinity: meeting the opposite infinity gives NaN and INVALID (R185). -/
def Lacc.addInf (l : Lacc) (neg : Bool) : Lacc × Nat :=
  match l.sp with
  | .nan => (l, 0)
  | .none => (⟨0, if neg then .negInf else .posInf⟩, 0)
  | .posInf => if neg then (⟨0, .nan⟩, flInvalid) else (l, 0)
  | .negInf => if neg then (l, 0) else (⟨0, .nan⟩, flInvalid)

/-- Add an exact value (R185, R201): the product of operands, or a term of a sum. -/
def Lacc.add (l : Lacc) : Exact → Lacc × Nat
  | .nan s => (⟨0, .nan⟩, flagIf s flInvalid)
  | .inf neg => l.addInf neg
  | .fin neg n _ e => l.addFin (sgn neg (n * 2 ^ (e + 2148).toNat))

/-- The exact value a LACC drains to (R185). DESIGN CHOICE (log 98): a zero is +0 in every rounding mode. The accumulator is an
integer without a sign for zero, and R173's −0 under RDN speaks of x − x. -/
def Lacc.value (l : Lacc) : Exact :=
  match l.sp with
  | .none => .ofInt l.z (-2148)
  | .posInf => .inf false
  | .negInf => .inf true
  | .nan => .nan false

/-- The wait at a tile cycle until 68 cycles have passed since a last deposit (R202). -/
def settleFrom (last : Option Nat) (now : Nat) : Nat :=
  match last with
  | none => 0
  | some c => 68 - min 68 (now - c)

/-- The settle wait at a tile cycle (R202). -/
def Tile.settleWait (T : Tile) (now : Nat) : Nat := settleFrom T.mLast now

/-- The array has settled. -/
def Tile.settled (T : Tile) : Tile := { T with mLast := none, mCarry := false }

/-! ## Packed records (R222, R223) -/

/-- The index of the lowest nonzero word. -/
def lowWord (u : Nat) : Nat → Nat
  | 0 => 0
  | n + 1 => if u % 2 ^ 64 = 0 then 1 + lowWord (u / 2 ^ 64) n else 0

/-- The words a value needs, from word 0 up: the top word keeps the sign. -/
def wordsFor (z : Int) : Nat := let m := if z < 0 then (-z - 1).toNat else z.toNat; bitLen m / 64 + 1

/-- The header and the words of a LACC's record. -/
def Lacc.record (l : Lacc) : Nat × Nat × Nat :=
  match l.sp with
  | .posInf => (1 * 2 ^ 16, 0, 0)
  | .negInf => (2 * 2 ^ 16, 0, 0)
  | .nan => (3 * 2 ^ 16, 0, 0)
  | .none =>
    if l.z = 0 then (0, 0, 0)
    else
      let u := wrapTo 4288 l.z
      let lo := lowWord u 67
      let cnt := wordsFor l.z - lo
      (lo + cnt * 2 ^ 8 + b2n (l.z < 0) * 2 ^ 18, u / 2 ^ (64 * lo) % 2 ^ (64 * cnt), cnt)

/-- The size of a record with `cnt` words, in bytes. -/
def recSize (cnt : Nat) : Nat := 8 * (1 + cnt)

/-- Is a header with its words canonical? (R223) -/
def recCanonical (hdr words : Nat) : Bool :=
  let lo := bitsOf hdr 0 7
  let cnt := bitsOf hdr 8 7
  let sp := bitsOf hdr 16 2
  let neg := bitOf hdr 18
  let top := bitsOf words (64 * (cnt - 1)) 64
  let below := bitsOf words (64 * (cnt - 2)) 64
  bitOf hdr 7 == false && bitOf hdr 15 == false && hdr / 2 ^ 19 == 0 && lo + cnt ≤ 67 &&
  (if cnt = 0 then lo == 0 && !neg
   else sp == 0 && words % 2 ^ 64 != 0 && bitOf top 63 == neg &&
     (cnt == 1 || !(top == (if neg then 2 ^ 64 - 1 else 0) && bitOf below 63 == neg)))

/-- The value a canonical record carries. -/
def recValue (hdr words : Nat) : Exact :=
  let lo := bitsOf hdr 0 7
  let cnt := bitsOf hdr 8 7
  match bitsOf hdr 16 2 with
  | 1 => .inf false
  | 2 => .inf true
  | 3 => .nan false
  | _ =>
    let z : Int := if bitOf hdr 18 then (words : Int) - (2 ^ (64 * cnt) : Nat) else words
    .ofInt (z * (2 ^ (64 * lo) : Nat)) (-2148)

end Sys2Proof.Machine
end

