-- ==== Sys2Proof/Machine/Operands.lean ====
section
/-!
DEFINITION. The operand forms of tile instructions: the words they are encoded in (R115, R116), the registers
and immediates they name, and the reserved-field checks of R156.
-/
namespace Sys2Proof

/-- IMM16, sign-extended. -/
def FI.sext (f : FI) : Word := f.imm.signExtend 64
/-- IMM16, zero-extended. -/
def FI.zext (f : FI) : Word := f.imm.setWidth 64
/-- IMM21, sign-extended. -/
def FL.sext (f : FL) : Word := f.imm.signExtend 64

end Sys2Proof

namespace Sys2Proof.Machine

/-- A base word from MAJOR, three register fields, K and MINOR. -/
def packWord (major a b c k minor : Nat) : Nat :=
  major * 2 ^ 26 + a * 2 ^ 21 + b * 2 ^ 16 + c * 2 ^ 11 + k * 2 ^ 8 + minor

/-- The word of a layout F3 instruction. -/
def F3w (f : F3) (major minor : Nat) : Nat := packWord major f.a.toNat f.b.toNat f.c.toNat f.k.toNat minor

/-- The word of a layout FI instruction. -/
def FIw (f : FI) (major : Nat) : Nat := major * 2 ^ 26 + f.a.toNat * 2 ^ 21 + f.b.toNat * 2 ^ 16 + f.imm.toNat

/-- The word of a layout FL instruction. -/
def FLw (f : FL) (major : Nat) : Nat := major * 2 ^ 26 + f.a.toNat * 2 ^ 21 + f.imm.toNat

/-- Word 0 of a layout FX instruction. -/
def FXw (f : FX) (major minor : Nat) : Nat := packWord major f.a.toNat f.b.toNat f.c.toNat f.k.toNat minor

/-- Sub-code 2 where a condition on reserved fields fails. -/
def reservedIf (c : Bool) : Option Nat := if c then some 2 else none

/-- Sub-code 2 of an instruction all of whose fields A, B, C and K are reserved. -/
def noFields (f : F3) : Option Nat := reservedIf (f.a != 0 || f.b != 0 || f.c != 0 || f.k != 0)

/-- The first sub-code found. -/
def firstBad : List (Bool × Nat) → Option Nat
  | [] => none
  | (c, sub) :: l => if c then some sub else firstBad l

end Sys2Proof.Machine
end

