-- ==== Sys2Proof/Machine/Array.lean ====
section
/-!
DEFINITION. The matrix descriptor (R206 to R208), operand reads (R197, R207, R212), the steps of an accumulation
(R199, R204, R216), and the rounding and writing of outputs (R217 to R221).
-/
namespace Sys2Proof.Machine

/-- A field of a matrix descriptor: word, lowest bit, width (R206). -/
def mf (d : Line) (word lo w : Nat) : Nat := bitsOf d.toNat (64 * word + lo) w

/-- Rows of a shape (R215). -/
def shapeRows : Nat → Nat
  | 0 => 32 | 1 => 16 | 2 => 64 | _ => 8
/-- Columns of a shape (R215). -/
def shapeCols : Nat → Nat
  | 0 => 32 | 1 => 64 | 2 => 16 | _ => 128

/-- The cell of output (r, c), as 32 x + y (R215). -/
def cellOf (shape r c : Nat) : Nat :=
  match shape with
  | 0 => 32 * r + c
  | 1 => 32 * (r + 16 * (c / 32)) + c % 32
  | 2 => 32 * (r % 32) + (c + 16 * (r / 32))
  | _ => 32 * (r + 8 * (c / 32)) + c % 32

/-- The active outputs in row-major order (R217). -/
def outputsOf (m n : Nat) : List (Nat × Nat) :=
  (List.range m).flatMap (fun r => (List.range n).map (fun c => (r, c)))

/-! ## Checks (R208) -/

/-- Element size in bytes for alignment, 1 for 4-bit and 8-bit elements (R208); an EXT80 container has 16 (R167). -/
def alignBytes (fmt : Nat) : Nat :=
  match fmt with
  | 0 => 8 | 1 => 4 | 2 => 2 | 3 => 2 | 10 => 4 | 11 => 16 | _ => 1

/-- The formats of R196. -/
def operandFmt (f : Nat) : Bool := [0, 1, 2, 3, 4, 5, 6, 8, 9, 10].contains f
/-- The formats that take an MX scale (R168). -/
def mxFmt (f : Nat) : Bool := [4, 5, 6, 8].contains f
/-- The drain formats of R218 for a drain to the tile store, and for a drain to the chain (R293). -/
def drainFmt (dest f : Nat) : Bool :=
  if dest = 1 then [0, 1, 2, 3, 4, 5, 8, 10, 11].contains f else [0, 1, 2, 3, 4, 5, 6, 8, 9, 10].contains f

/-- Is any reserved bit of the descriptor set? (R206) -/
def mdReserved (d : Line) : Bool :=
  [(0, 22, 2), (0, 46, 2), (0, 60, 4), (1, 22, 2), (1, 46, 2), (2, 48, 16), (3, 24, 8), (3, 35, 1), (3, 51, 13),
   (4, 22, 2), (5, 23, 1), (5, 26, 6), (5, 56, 8), (6, 22, 2), (6, 28, 36), (7, 0, 64)].any
    (fun (w, lo, n) => mf d w lo n != 0)

/-- Is M_ACT in its range? -/
def mActOk (d : Line) (rows : Nat) : Bool := 1 ≤ mf d 3 36 7 && mf d 3 36 7 ≤ rows
/-- Is N_ACT in its range? -/
def nActOk (d : Line) (cols : Nat) : Bool := 1 ≤ mf d 3 43 8 && mf d 3 43 8 ≤ cols

/-- SHAPE, M_ACT and N_ACT. -/
def shapeOk (d : Line) : Bool :=
  mf d 3 32 3 ≤ 3 && mActOk d (shapeRows (mf d 3 32 3)) && nActOk d (shapeCols (mf d 3 32 3))

/-- One operand: its format, its MX use, and the alignment of its base and leading dimension. -/
def operandOk (fmt : Nat) (mx tr : Bool) (base ld : Nat) : Bool :=
  operandFmt fmt && (!mx || !tr && mxFmt fmt) && base % alignBytes fmt == 0 && ld % alignBytes fmt == 0

/-- Operand A of the descriptor. -/
def aOk (d : Line) : Bool :=
  operandOk (mf d 0 48 4) (mf d 0 56 1 == 1) (mf d 0 58 1 == 1) (mf d 0 0 22) (mf d 2 0 24)
/-- Operand B of the descriptor. -/
def bOk (d : Line) : Bool :=
  operandOk (mf d 0 52 4) (mf d 0 57 1 == 1) (mf d 0 59 1 == 1) (mf d 0 24 22) (mf d 2 24 24)

/-- The fields of W4 and W5 that a drain uses. -/
def drainOk (d : Line) : Bool :=
  let fmt := mf d 4 48 4
  let dest := mf d 5 24 2
  drainFmt dest fmt && dest ≤ 1 && mf d 4 52 3 ≤ 4 &&
  (mf d 5 22 1 == 0 || dest == 0 && mxFmt fmt) &&
  mf d 4 0 22 % alignBytes fmt == 0 && mf d 4 24 24 % alignBytes fmt == 0

/-- The snapshot fields: CKPT_K always, the others where it is nonzero. -/
def ckptOk (d : Line) : Bool :=
  let c := mf d 5 32 24
  c % 4 == 0 && (c == 0 || c < mf d 3 0 24 && drainFmt 0 (mf d 6 24 4) && mf d 4 52 3 ≤ 4 &&
    mf d 6 0 22 % alignBytes (mf d 6 24 4) == 0)

/-- The descriptor checks of `mmac`. -/
def mmacOk (d : Line) (drain : Bool) : Bool :=
  !mdReserved d && aOk d && bOk d && mf d 3 0 24 != 0 && shapeOk d && ckptOk d && (!drain || drainOk d)
/-- The descriptor checks of `mdrain`. -/
def mdrainOk (d : Line) : Bool := !mdReserved d && shapeOk d && drainOk d
/-- The descriptor checks of `mexport` and `mimport`. -/
def mexportOk (d : Line) : Bool := !mdReserved d && shapeOk d && mf d 4 0 22 % 8 == 0
/-- The descriptor checks of `mmom`: A_T must be 1, A_MX 0 and SHAPE 0 (R226). -/
def mmomOk (d : Line) : Bool :=
  !mdReserved d && aOk d && mf d 0 56 1 == 0 && mf d 0 58 1 == 1 && mf d 3 0 24 != 0 && mf d 3 32 3 == 0 && mActOk d 32
/-- The descriptor checks of `mdrmom`: FP64 to BF16, RMODE 0 to 3 (R227). -/
def mdrmomOk (d : Line) : Bool :=
  !mdReserved d && mActOk d 32 && mf d 4 48 4 ≤ 3 && mf d 4 52 3 ≤ 3 &&
  mf d 4 0 22 % alignBytes (mf d 4 48 4) == 0 && mf d 4 24 24 % alignBytes (mf d 4 48 4) == 0

/-! ## Operands -/

/-- An operand of the array: where it lies and how it is read. -/
structure Opnd where
  base : Nat
  ld : Nat
  fmt : Nat
  fxp : Int
  mx : Bool
  tr : Bool
  scale : Nat
  k : Nat

/-- Operand A. -/
def opndA (d : Line) : Opnd :=
  ⟨mf d 0 0 22, mf d 2 0 24, mf d 0 48 4, signed 8 (mf d 1 48 8), mf d 0 56 1 == 1, mf d 0 58 1 == 1, mf d 1 0 22,
   mf d 3 0 24⟩
/-- Operand B, whose stored rows are output columns. -/
def opndB (d : Line) : Opnd :=
  ⟨mf d 0 24 22, mf d 2 24 24, mf d 0 52 4, signed 8 (mf d 1 56 8), mf d 0 57 1 == 1, mf d 0 59 1 == 1, mf d 1 24 22,
   mf d 3 0 24⟩

/-- Bytes of a row of `n` elements. -/
def rowBytes (fmt n : Nat) : Nat := ceilDiv (n * fmtBits fmt) 8

/-- One past the last byte of `rows` rows. -/
def extentEnd (base ld rows bytes : Nat) : Nat := base + (rows - 1) * ld + bytes

/-- Does an operand of `rows` active rows lie in the tile store? -/
def Opnd.fits (o : Opnd) (rows : Nat) : Bool :=
  (if o.tr then extentEnd o.base o.ld o.k (rowBytes o.fmt rows) else extentEnd o.base o.ld rows (rowBytes o.fmt o.k))
    ≤ storeEnd
/-- Does its scale array? -/
def Opnd.scaleFits (o : Opnd) (rows : Nat) : Bool := !o.mx || o.scale + rows * ceilDiv o.k 32 ≤ storeEnd

/-- The ranges that it reads. -/
def Opnd.ranges (o : Opnd) (rows : Nat) : List (Bool × Nat × Nat) :=
  (false, o.base, (if o.tr then extentEnd 0 o.ld o.k (rowBytes o.fmt rows) else extentEnd 0 o.ld rows (rowBytes o.fmt o.k))) ::
    (if o.mx then [(false, o.scale, rows * ceilDiv o.k 32)] else [])

/-- Element `c` of the row at `a`, as bits; 4-bit elements are packed two to a byte (R164). -/
def Tile.elemBits (T : Tile) (a fmt c : Nat) : Nat :=
  if fmtBits fmt = 4 then (T.peek (a + c / 2) 1) / 16 ^ (c % 2) % 16
  else T.peek (a + c * (fmtBits fmt / 8)) (fmtBits fmt / 8)

/-- Does element `c` of the row at `a` hold an uncorrectable error? -/
def Tile.elemUE (T : Tile) (a fmt c : Nat) : Bool :=
  if fmtBits fmt = 4 then T.hasUE (a + c / 2) 1 else T.hasUE (a + c * (fmtBits fmt / 8)) (fmtBits fmt / 8)

/-- Element (row, k) of an operand: its value, and whether it is poisoned, when it acts as a signalling NaN (R212). -/
def Opnd.read (o : Opnd) (T : Tile) (row k : Nat) : Exact × Bool :=
  let a := o.base + (if o.tr then k else row) * o.ld
  let c := if o.tr then row else k
  let sa := o.scale + row * ceilDiv o.k 32 + k / 32
  if T.elemUE a o.fmt c || o.mx && T.hasUE sa 1 then (.nan true, true)
  else
    let x := T.elemBits a o.fmt c
    (if o.mx then mxScaled (T.peek sa 1) (mxElem o.fmt x) else decodeNum o.fmt o.fxp x, false)

/-- Limbs of a format, and whether it is narrow (R196). -/
def limbsOf (fmt : Nat) : Nat :=
  match fmt with
  | 0 => 3 | 1 => 2 | 10 => 2 | _ => 1
/-- Is a format narrow? -/
def narrowFmt (fmt : Nat) : Bool := [3, 4, 5, 6, 8, 9].contains fmt

/-- The weight of the least significant bit of an operand's significand (R197); E2M1 as its E4M3 expansion (R178). -/
def lsbWeight (fmt : Nat) : Exact → Int
  | .fin _ n d e => if fmt = 6 then floorLog2 n d e - 3 else e
  | _ => 0

/-! ## Steps -/

/-- What an accumulation carries from step to step: the tile, the flags due, the spread stalls and the steps that
took one, whether a poisoned operand was met; the tile cycle, that of the last deposit, the settle waits so far, and whether
the step has deposited (R202, R214). -/
structure Acc where
  T : Tile
  fl : Nat
  stalls : Nat
  steps : Nat
  poison : Bool
  clock : Nat
  last : Option Nat
  waits : Nat
  dep : Bool

/-- The start of an accumulation on a tile at a tile cycle, with the flags due. -/
def Acc.start (T : Tile) (clock fl : Nat) : Acc := ⟨T, fl, 0, 0, false, clock, T.mLast, 0, false⟩

/-- The spread of some LSB weights. -/
def spreadOf : List Int → Int
  | [] => 0
  | p :: ps => (ps.foldl max p) - (ps.foldl min p)

/-- The products of one output in one step, with the LSB weights of the nonzero finite ones: how they reach the
LACC, and the cycles that takes (R204). In sub-word mode a spread of at most 60 sums them in the front adder. -/
def depositAll (l : Lacc) (ps : List (Exact × Int)) (sub : Bool) : Lacc × Nat × Nat :=
  let fin := ps.filter (fun p => match p.1 with | .fin _ n _ _ => n != 0 | _ => false)
  let wide := sub && 60 < spreadOf (fin.map (·.2)) && 2 ≤ fin.length
  let one := fun (acc : Lacc × Nat) (x : Exact) => let r := acc.1.add x; (r.1, acc.2 ||| r.2)
  let start : Lacc × Nat :=
    if wide then fin.foldl (fun acc p => one acc p.1) (l, 0)
    else one (l, 0) ((fin.map (·.1)).foldl (fun a x => (a.add false x).1) .zero)
  let r := (ps.filter (fun p => match p.1 with | .fin _ _ _ _ => false | _ => true)).foldl
    (fun acc p => one acc p.1) start
  (r.1, r.2, if wide then fin.length else 1)

/-- The product of two operands with its flags and LSB weight. -/
def productOf (fa fb : Nat) (x y : Exact) : Exact × Int × Nat :=
  let p := x.mul y
  (p.1, lsbWeight fa x + lsbWeight fb y, p.2)

/-- Does a product deposit: is it finite and not zero (R197)? -/
def deposits : Exact → Bool
  | .fin _ n _ _ => n != 0
  | _ => false

/-- One output's part of a step covering the given k: reads both operands, and deposits. -/
def Acc.output (acc : Acc) (oa ob : Opnd) (sub : Bool) (cell ra rb : Nat) (ks : List Nat) : Acc × Nat :=
  let ps := ks.map (fun k =>
    let x := oa.read acc.T ra k
    let y := ob.read acc.T rb k
    (productOf oa.fmt ob.fmt x.1 y.1, x.2 || y.2))
  let r := depositAll (acc.T.laccAt cell) (ps.map (fun p => (p.1.1, p.1.2.1))) sub
  ({ acc with T := acc.T.setLacc cell r.1, fl := acc.fl ||| r.2.1 ||| (ps.map (·.1.2.2)).foldl (· ||| ·) 0,
              poison := acc.poison || ps.any (·.2), dep := acc.dep || ps.any (fun p => deposits p.1.1) }, r.2.2)

/-- A step of `passes` passes ends (R199, R214): its cycles beyond the first are spread stalls (R205), and where it has
deposited, that is the last deposit (R202). -/
def Acc.count (acc : Acc) (passes cycles : Nat) : Acc :=
  let clock := acc.clock + passes + (cycles - 1)
  { acc with stalls := acc.stalls + (cycles - 1), steps := acc.steps + b2n (1 < cycles), clock := clock, dep := false,
             last := if acc.dep then some clock else acc.last }

/-- One step over every active output, in `passes` passes. -/
def Acc.step (acc : Acc) (oa ob : Opnd) (sub : Bool) (passes shape : Nat) (outs : List (Nat × Nat)) (ks : List Nat) : Acc :=
  let r := outs.foldl (fun (a : Acc × Nat) rc =>
    let q := a.1.output oa ob sub (cellOf shape rc.1 rc.2) rc.1 rc.2 ks
    (q.1, max a.2 q.2)) (acc, 1)
  r.1.count passes r.2

/-- What an accumulation leaves in the tile: the poison and the last deposit. -/
def Acc.done (acc : Acc) (before : Tile) : Tile :=
  let T := if acc.poison then { acc.T.setFld F.MSTATUS_POISON 1 with marked := true } else acc.T
  { T with mLast := acc.last, mCarry := T.mCarry || acc.last != before.mLast }

/-- The k of step `i` of a reduction of length `K`: four in sub-word mode, else one (R204, R216). -/
def stepKs (sub : Bool) (K i : Nat) : List Nat :=
  if sub then (List.range 4).filterMap (fun j => if 4 * i + j < K then some (4 * i + j) else none)
  else [i]

/-! ## Writing outputs -/

/-- Pack elements of `w` bits into a number, the first least significant. -/
def packElems (w : Nat) : List Nat → Nat
  | [] => 0
  | x :: xs => x % 2 ^ w + 2 ^ w * packElems w xs

/-- Split a list into runs of 32, the last possibly shorter (R169). -/
def blocks32 {α : Type} : Nat → List α → List (List α)
  | 0, _ => []
  | n + 1, l => if l.isEmpty then [] else l.take 32 :: blocks32 n (l.drop 32)

/-- How outputs are rounded: format, binary point, mode, saturation. -/
structure Rnd where
  fmt : Nat
  fxp : Int
  mode : Nat
  sat : Bool

/-- Round values, one drawn word each where there are words. -/
def Rnd.all (q : Rnd) (words : List Nat) (vs : List Exact) : List Nat × Nat :=
  let r := (vs.zip (words ++ List.replicate vs.length 0)).map (fun p => roundNum q.fmt q.fxp q.mode q.sat p.2 p.1)
  (r.map (·.1), (r.map (·.2)).foldl (· ||| ·) 0)

/-- Write a row of elements at an address. -/
def Tile.writeRow (T : Tile) (a fmt : Nat) (es : List Nat) : Tile :=
  T.poke a (rowBytes fmt es.length) (packElems (fmtBits fmt) es)

/-- Round and write the outputs of one row. -/
def Tile.writeOutRow (T : Tile) (q : Rnd) (a : Nat) (words : List Nat) (vs : List Exact) : Tile × Nat :=
  let r := q.all words vs
  (T.writeRow a q.fmt r.1, r.2)

/-- Round one row to MX blocks: the scale bytes, the elements and the flags (R219). -/
def mxRow (fmt mode : Nat) (words : List Nat) (vs : List Exact) : List Nat × List Nat × Nat :=
  let bs := (blocks32 vs.length vs).zip (blocks32 vs.length (words ++ List.replicate vs.length 0))
  let rs := bs.map (fun b => mxQuantise fmt mode b.2 b.1)
  (rs.map (·.1), rs.flatMap (·.2.1), (rs.map (·.2.2)).foldl (· ||| ·) 0)

/-- Write the active outputs of the array, row by row, rounded once each (R217 to R219); `words` are the drawn
words in row-major order. -/
def Tile.writeOuts (T : Tile) (q : Rnd) (mx : Bool) (shape n base ld scale : Nat) : Nat → List Nat → Nat → Tile × Nat
  | 0, _, _ => (T, 0)
  | m + 1, words, r =>
    let vs := (List.range n).map (fun c => (T.laccAt (cellOf shape r c)).value)
    let (T1, fl) :=
      if mx then
        let (sc, es, fl) := mxRow q.fmt q.mode (words.take n) vs
        ((T.writeRow (base + r * ld) q.fmt es).poke (scale + r * ceilDiv n 32) sc.length (packElems 8 sc), fl)
      else T.writeOutRow q (base + r * ld) (words.take n) vs
    let (T2, fl2) := T1.writeOuts q mx shape n base ld scale m (words.drop n) (r + 1)
    (T2, fl ||| fl2)

end Sys2Proof.Machine
end

