-- ==== Sys2Proof/Machine/Root.lean ====
section
/-!
DEFINITION. The reduction tree (R250 to R253): its two roots, what arrives at them, and the spread stalls.
-/
namespace Sys2Proof.Machine

/-- The initial value of a kind (R251). -/
def kindInit (kind : Nat) : Lacc :=
  match kind with
  | 1 => ⟨0, .negInf⟩
  | 2 => ⟨0, .posInf⟩
  | _ => Lacc.zero

/-- A root of a tile, by number. -/
def Tile.root (T : Tile) (r : Nat) : Root := if r = 0 then T.root0 else T.root1
/-- Replace a root. -/
def Tile.setRoot (T : Tile) (r : Nat) (x : Root) : Tile := if r = 0 then { T with root0 := x } else { T with root1 := x }

/-- Set a root to the initial value of a kind. -/
def Tile.initRoot (T : Tile) (r kind : Nat) : Tile := T.setRoot r { T.root r with acc := kindInit kind, kind := kind, nz := false }

/-- A base reduction of another kind first sets the root to the initial value of its own (R251). -/
def Tile.kindRoot (T : Tile) (r kind : Nat) : Tile := if (T.root r).kind = kind then T else T.initRoot r kind

/-- A value as it reaches a root: what lies below 2^−2148 is rounded off under RNE, with UNDERFLOW and INEXACT
(R250). -/
def toRootGrid : Exact → Exact × Nat
  | .fin s n d e =>
    let r := roundAt 0 s 0 n d e (-2148)
    (.fin s r.1 1 (-2148), flagIf r.2 (flUnderflow ||| flInexact))
  | x => (x, 0)

/-- A winner held by a root of kind max, min or amax; out of range it is the infinity of its sign (R201, R250). -/
def winner : Exact → Lacc × Nat
  | .nan s => (⟨0, .nan⟩, flagIf s flInvalid)
  | .inf s => (⟨0, if s then .negInf else .posInf⟩, 0)
  | .fin s n d e => Lacc.zero.add (.fin s n d e)

/-- The value a root holds: a winner that is −0 keeps its sign (R250). -/
def Root.value (R : Root) : Exact := if R.nz then .fin true 0 1 0 else R.acc.value

/-- One value arrives at a root (R250). Of two zeros a min root keeps −0 and a max root +0 (R184). -/
def Root.arrive (R : Root) (x : Exact) : Root × Nat :=
  let q := toRootGrid x
  if R.kind = 0 then
    let r := R.acc.add q.1
    ({ R with acc := r.1, nz := false }, q.2 ||| r.2)
  else
    let y := if R.kind = 3 then q.1.withSign false else q.1
    match R.acc.sp with
    | .nan => (R, flagIf y.isSig flInvalid)
    | _ =>
      if y.isZero && R.value.isZero then
        ({ R with nz := if R.kind = 2 then y.neg || R.nz else y.neg && R.nz }, q.2)
      else if y.isNan || (if R.kind = 2 then y.lt R.value else R.value.lt y) then
        let r := winner y
        ({ R with acc := r.1, nz := y.isZero && y.neg }, q.2 ||| r.2)
      else (R, q.2)

/-- One value arrives at a root at a tile cycle; the flags that causes. -/
def Tile.deposit (T : Tile) (r now : Nat) (x : Exact) : Tile × Nat :=
  let q := (T.root r).arrive x
  (T.setRoot r { q.1 with last := some now }, q.2)

/-- The settle wait of a root (R253). -/
def Root.settleWait (R : Root) (now : Nat) : Nat :=
  match R.last with
  | none => 0
  | some c => 68 - min 68 (now - c)

/-- After a drain or export the settling is over. -/
def Tile.settledRoot (T : Tile) (r : Nat) : Tile := T.setRoot r { T.root r with last := none }

/-! ## Spread stalls (R252) -/

/-- Is a value one that spreads: finite and nonzero? -/
def spreads : Exact → Bool
  | .fin _ n _ _ => n != 0
  | _ => false

/-- Cycles of one group of 8, from the LSB weights of its nonzero finite values. -/
def groupCycles (ps : List Int) : Nat := if ps.length < 2 || spreadOf ps ≤ 64 then 1 else ps.length

/-- Spread stalls of a reduction: `ps` holds the index and LSB weight of each nonzero finite value; the eight groups
of 64 consecutive indices advance together. -/
def spreadStalls (n : Nat) (ps : List (Nat × Int)) : Nat :=
  ((List.range (ceilDiv n 64)).map (fun b =>
    ((List.range 8).map (fun g =>
      groupCycles ((ps.filter (fun p => p.1 / 8 == 8 * b + g)).map (·.2)))).foldl max 1 - 1)).foldl (· + ·) 0

end Sys2Proof.Machine
end

