-- ==== Sys2Proof/Machine/Lanes.lean ====
section
/-!
DEFINITION. The lanes of the chain: VTYPE, the formats that operations accept, element widths, write masks (R234 to
R237), and what an instruction of the chain works with and gives back.
-/
namespace Sys2Proof.Machine

/-! ## VTYPE -/

/-- The fields of VTYPE (R277). -/
structure VT where
  vl : Nat
  fmt : Nat
  mode : Nat
  sat : Bool
  mz : Bool
  tan : Bool
  fxp : Int
  deriving DecidableEq, Repr

/-- VTYPE as it stands. -/
def Tile.vt (T : Tile) : VT :=
  ⟨T.fld F.VTYPE_VL, T.fld F.VTYPE_FMT, T.fld F.VTYPE_RMODE, T.fld F.VTYPE_SAT == 1, T.fld F.VTYPE_MZ == 1,
   T.fld F.VTYPE_TAN == 1, signed 8 (T.fld F.VTYPE_FXP)⟩

/-- Width of a lane in bits: EXT80 lanes are 128 bits wide (R283), a 4-bit format counts as 8 (R235). -/
def laneW (fmt : Nat) : Nat := if fmt = 11 then 128 else max 8 (fmtBits fmt)

/-- Lanes of one element: two in tangent mode (R255). -/
def VT.parts (v : VT) : Nat := if v.tan then 2 else 1

/-- The formats that VTYPE.FMT accepts (R234). -/
def vtypeFmts : List Nat := [0, 1, 2, 3, 4, 5, 7, 8, 10, 11]

/-- The classes of operations by the formats that R234 accepts for them. -/
inductive OpClass where
  | move | arith | fma | func | compare | select | bitwise | shift | index | cvt | reduce | reddot | drain | drainv
  | random | widen | dot
  deriving DecidableEq, Repr

/-- The lane formats that a class accepts (R234, R245, R246). -/
def OpClass.fmts : OpClass → List Nat
  | .move => [0, 1, 2, 3, 11, 10, 8, 4, 5]
  | .arith => [0, 1, 2, 3, 11, 10]
  | .fma => [0, 1, 2, 3, 11]
  | .func => [0, 1, 2, 3, 11]
  | .compare => [0, 1, 2, 3, 11, 10, 8]
  | .select => [0, 1, 2, 3, 10, 8, 4, 5]
  | .bitwise => [0, 1, 2, 3, 10, 8, 4, 5]
  | .shift => [10, 8]
  | .index => [10]
  | .cvt => vtypeFmts
  | .reduce => [0, 1, 2, 3, 11, 10, 8]
  | .reddot => [0, 1, 2, 3, 10, 8, 4, 5]
  | .drain => [0, 1, 2, 3, 10, 8, 4, 5]
  | .drainv => [0, 1, 2, 3, 11]
  | .random => [0, 1, 2, 3, 10]
  | .widen => [1, 2, 3]
  | .dot => [1, 2, 3, 4, 5, 8]

/-- The classes that accept TAN = 1 (R256, R257); `vredsum` alone of the reductions is judged where it is defined. -/
def OpClass.tangent : OpClass → Bool
  | .move | .arith | .fma | .func | .compare | .select | .cvt => true
  | _ => false

/-- Is an operation accepted under a VTYPE? (R239) -/
def VT.accepts (v : VT) (c : OpClass) : Bool := c.fmts.contains v.fmt && (!v.tan || c.tangent)

/-! ## Environment and result -/

/-- What an instruction of the chain runs in: its tile's index, the tile cycle, the scalar operands captured at
dispatch or read from the frame of a tile program, and that program's window as base and size (R287, R301). -/
structure CEnv where
  t : Nat
  now : Nat
  sa : Word
  sb : Word
  sc : Word
  win : Option (Nat × Nat)

/-- The operand fields of an instruction of the chain; `p` is the part of `cvt`, or MINOR of `vchain`. -/
structure CF where
  a : Nat
  b : Nat
  c : Nat
  k : Nat
  p : Nat
  w1 : Nat

/-- What an instruction of the chain gives: the tile, the flags due, its cycles and stalls, the value for a scalar
destination, and the fault that stopped it: VCAUSE, ELEM, address, and the element to resume from. -/
structure CRes where
  T : Tile
  fl : Nat := 0
  cycles : Nat := 0
  spread : Nat := 0
  bank : Nat := 0
  sout : Option Word := none
  fault : Option (Nat × Nat × Nat × Nat) := none

/-- The body of an instruction of the chain: from the tile, the environment and the element to start at. -/
abbrev CBody := Tile → CEnv → Nat → CRes

/-- A fault before anything has changed (R261). -/
def CRes.refuse (T : Tile) (vcause addr : Nat) : CRes := { T := T, fault := some (vcause, 0, addr, 0) }

/-- Run a body only where an operation of the class is accepted: else CHAIN with VCAUSE 6 (R239). -/
def accepted (c : OpClass) (body : CBody) : CBody := fun T env start =>
  if T.vt.accepts c then body T env start else .refuse T 6 0

/-! ## Lanes and masks -/

/-- Lane `n` of `w` bits of a register. -/
def lane (v : Vec) (w n : Nat) : Nat := bitsOf v.toNat (n * w) w

/-- A register with lane `n` replaced. -/
def setLane (v : Vec) (w n x : Nat) : Vec := BitVec.ofNat 4096 (setBits v.toNat (n * w) w x)

/-- The value of a lane of a format; the padding of an EXT80 container is ignored (R283). -/
def laneVal (fmt : Nat) (fxp : Int) (v : Vec) (n : Nat) : Exact :=
  decodeNum fmt fxp (lane v (laneW fmt) n % 2 ^ fmtBits fmt)

/-- Elements of an instruction of element width `ew` (R235). -/
def elems (vl ew : Nat) : Nat := min vl (4096 / ew)

/-- Is element `n` active under a mask register? (R237) -/
def activeIn (mask : Line) (ew n : Nat) : Bool := mask.getLsbD (n * ew / 8)

/-- Cycles of an element-wise instruction (R268). -/
def opCycles (lat n rate stalls : Nat) : Nat := lat + (ceilDiv (max n 1) rate - 1) + stalls

/-- The words that element `n` of an instruction drawing `d` words per element takes, the instruction having started
at element `start` (R259). -/
def drawsAt (T : Tile) (t start d n : Nat) : List Nat :=
  (List.range d).map (fun i => genWord T t 0 ((T.fld F.VGEN_POS_C_POS + (n - start) * d + i) % 2 ^ 64))

/-- Advance the chain stream by the draws of `n` elements. -/
def Tile.drawn (T : Tile) (d n : Nat) : Tile := if d = 0 then T else T.setFld F.VGEN_POS_C_POS (T.fld F.VGEN_POS_C_POS + d * n)

/-- The indices from `start` up to `n` − 1. -/
def idxFrom (start n : Nat) : List Nat := (List.range (n - start)).map (· + start)

/-- Write the elements of a vector destination: `f` gives the bits and flags of an active element from its drawn
words; an inactive one keeps its value or becomes zero under MZ (R237). -/
def mapLanes (T : Tile) (env : CEnv) (start a k ew wd n draws : Nat) (f : Nat → List Nat → Nat × Nat) : Tile × Nat :=
  let mask := T.kreg k
  let mz := T.vt.mz
  let r := (idxFrom start n).foldl (fun (acc : Vec × Nat) i =>
    if activeIn mask ew i then
      let q := f i (drawsAt T env.t start draws i)
      (setLane acc.1 wd i q.1, acc.2 ||| q.2)
    else if mz then (setLane acc.1 wd i 0, acc.2)
    else acc) (T.vreg a, 0)
  ((T.setV a r.1).drawn draws (n - start), r.2)

/-- Set the mask bits of an element (R237). -/
def setMaskBits (m : Line) (ew n : Nat) (b : Bool) : Line :=
  BitVec.ofNat 512 (setBits m.toNat (n * ew / 8) (ew / 8) (if b then 2 ^ (ew / 8) - 1 else 0))

/-- Write the elements of a mask destination. -/
def mapMask (T : Tile) (start a k ew n : Nat) (f : Nat → Bool × Nat) : Tile × Nat :=
  let mask := T.kreg k
  let mz := T.vt.mz
  let r := (idxFrom start n).foldl (fun (acc : Line × Nat) i =>
    if activeIn mask ew i then
      let q := f i
      (setMaskBits acc.1 ew i q.1, acc.2 ||| q.2)
    else if mz then (setMaskBits acc.1 ew i false, acc.2)
    else acc) (T.kreg a, 0)
  (T.setK a r.1, r.2)

/-! ## Elements that may be pairs -/

/-- The parts of element `n`: one value, or value and derivative (R255). -/
def partsOf (v : VT) (r : Vec) (n : Nat) : List Exact :=
  if v.tan then [laneVal v.fmt v.fxp r (2 * n), laneVal v.fmt v.fxp r (2 * n + 1)] else [laneVal v.fmt v.fxp r n]

/-- The first part. -/
def part0 (l : List Exact) : Exact := l.headD .zero
/-- The second part. -/
def part1 (l : List Exact) : Exact := (l.drop 1).headD .zero

/-- Round the parts of an element, a drawn word each, and pack them. -/
def roundParts (fmt : Nat) (fxp : Int) (mode : Nat) (sat : Bool) : List Nat → List Exact → Nat × Nat
  | _, [] => (0, 0)
  | ws, x :: xs =>
    let r := roundNum fmt fxp mode sat (ws.headD 0) x
    let q := roundParts fmt fxp mode sat (ws.drop 1) xs
    (r.1 + 2 ^ laneW fmt * q.1, r.2 ||| q.2)

/-- Words that rounding every part of an element draws under a mode. -/
def VT.draws (v : VT) : Nat := if v.mode = 4 then v.parts else 0

end Sys2Proof.Machine
end

