-- ==== Sys2Proof/Machine/ChainOps.lean ====
section
/-!
DEFINITION. The bodies of the chain's base operations that work on registers, masks and roots (R236 to R240, R245,
R246, R250 to R254, R256, R259).
-/
namespace Sys2Proof.Machine

/-! ## Rates (R267) -/

/-- Elements per cycle at 4,096 bits of lanes. -/
def bitRate (w : Nat) : Nat := max 1 (4096 / w)
/-- Elements per cycle of the scale and FMA stages: EXT80 takes 16. -/
def fmaRate (v : VT) : Nat := (if v.fmt = 11 then 16 else 4096 / laneW v.fmt) / v.parts
/-- Elements per cycle of the function stage. -/
def funcRate (fmt parts : Nat) : Nat :=
  (match fmt with
   | 0 => 16 | 1 => 32 | 11 => 4 | _ => 64) / parts

/-- The element width of a base operation on lanes of VTYPE.FMT. -/
def VT.ew (v : VT) : Nat := laneW v.fmt * v.parts
/-- N of such an operation. -/
def VT.n (v : VT) : Nat := elems v.vl v.ew

/-! ## Shapes -/

/-- An element-wise base operation with a vector destination in the lane format. -/
def elemBody (cls : OpClass) (lat : Nat) (rate draws : VT → Nat) (cf : CF) (f : VT → Tile → Nat → List Nat → Nat × Nat) :
    CBody := accepted cls fun T env start =>
  let v := T.vt
  let r := mapLanes T env start cf.a cf.k v.ew v.ew v.n (draws v) (f v T)
  { T := r.1, fl := r.2, cycles := opCycles lat v.n (rate v) 0 }

/-- No words drawn. -/
def noDraws : VT → Nat := fun _ => 0
/-- Elements per cycle through registers alone. -/
def regRate (v : VT) : Nat := bitRate v.ew

/-- A move of whole elements. -/
def moveBody (cf : CF) (f : VT → Tile → CEnv → Nat → Nat) : CBody := fun T env start =>
  elemBody .move 2 regRate noDraws cf (fun v T n _ => (f v T env n, 0)) T env start

/-- An operation that reads and writes no lanes, or one: 2 cycles and no flag. -/
def shortBody (f : Tile → CEnv → Tile × Option Word) : CBody := fun T env _ =>
  let r := f T env
  { T := r.1, sout := r.2, cycles := 2 }

/-! ## Length and type (R236) -/

/-- The VTYPE that an image leads to, and whether anything in it was rejected. -/
def newVtype (old : Word) (img : Nat) : Nat × Bool :=
  let o := old.toNat
  let fmt := bitsOf img 10 4
  let tan := bitOf img 19
  let isTanFmt := fun (x : Nat) => decide (x ≤ 1)
  let fmtBad := !vtypeFmts.contains fmt || tan && !isTanFmt fmt
  let fmt' := if fmtBad then bitsOf o 10 4 else fmt
  let tanBad := tan && (if vtypeFmts.contains fmt then !isTanFmt fmt else !isTanFmt fmt')
  let tan' := if tanBad then bitOf o 19 else tan
  let modeBad := decide (4 < bitsOf img 14 3)
  let mode' := if modeBad then bitsOf o 14 3 else bitsOf img 14 3
  (fmt' * 2 ^ 10 + mode' * 2 ^ 14 + bitsOf img 17 2 * 2 ^ 17 + b2n tan' * 2 ^ 19 + bitsOf img 20 8 * 2 ^ 20,
   fmtBad || tanBad || modeBad || img / 2 ^ 28 != 0)

/-- `vsetvl` (R236). -/
def vsetvlBody (_ : CF) : CBody := shortBody fun T env =>
  let q := newVtype (T.ctlWord F.VTYPE_VL.reg) env.sc.toNat
  let T1 := T.setCtl F.VTYPE_VL.reg (BitVec.ofNat 64 q.1)
  let vl := min env.sb.toNat (4096 / T1.vt.ew)
  let T2 := T1.setFld F.VTYPE_VL vl
  (if q.2 then T2.cfgReject F.VTYPE_VL.reg 0 else T2, some (BitVec.ofNat 64 vl))

/-! ## Moves -/

/-- `vmv`. -/
def vmvBody (cf : CF) : CBody := moveBody cf (fun v T _ n => lane (T.vreg cf.b) v.ew n)
/-- `vbcast`: the value from sB; in tangent mode a derivative of +0 (R256). -/
def vbcastBody (cf : CF) : CBody := moveBody cf (fun v _ env _ => env.sb.toNat % 2 ^ laneW v.fmt)
/-- `vidx`. -/
def vidxBody (cf : CF) : CBody := elemBody .index 2 regRate noDraws cf (fun _ _ n _ => (n, 0))
/-- `vextr`; of a wider element bits [63:0] (R283). -/
def vextrBody (cf : CF) : CBody := accepted .move (shortBody fun T env =>
  let v := T.vt
  (T, some (if env.sc.toNat < v.n then BitVec.ofNat 64 (lane (T.vreg cf.b) v.ew env.sc.toNat) else 0)))
/-- `vins`. -/
def vinsBody (cf : CF) : CBody := accepted .move (shortBody fun T env =>
  let v := T.vt
  (if env.sc.toNat < v.n then T.setV cf.a (setLane (T.vreg cf.a) v.ew env.sc.toNat (env.sb.toNat % 2 ^ v.ew)) else T, none))
/-- `vsel`: K is a selector, every element is written. -/
def vselBody (cf : CF) : CBody := fun T env start =>
  let sel := T.kreg cf.k
  elemBody .select 3 regRate noDraws { cf with k := 0 }
    (fun v T n _ => (lane (T.vreg (if activeIn sel v.ew n then cf.b else cf.c)) v.ew n, 0)) T env start

/-! ## Arithmetic (R184, R256) -/

/-- A sum with the flags of both sides. -/
def addFl (rdn : Bool) (x y : Exact × Nat) : Exact × Nat :=
  let r := x.1.add rdn y.1
  (r.1, x.2 ||| y.2 ||| r.2)

/-- The product of two elements. -/
def mulParts (rdn : Bool) (b c : List Exact) : List (Exact × Nat) :=
  match b, c with
  | [b0, b1], [c0, c1] => [b0.mul c0, addFl rdn (b1.mul c0) (b0.mul c1)]
  | _, _ => [(part0 b).mul (part0 c)]

/-- Values without flags of their own. -/
def plain (l : List Exact) : List (Exact × Nat) := l.map (fun x => (x, 0))

/-- Sums part by part. -/
def addParts (rdn : Bool) (x y : List (Exact × Nat)) : List (Exact × Nat) :=
  (x.zip y).map (fun p => addFl rdn p.1 p.2)

/-- `vadd` to `vfnma`, by MINOR, exactly. -/
def arithParts (minor : Nat) (rdn : Bool) (a b c : List Exact) : List (Exact × Nat) :=
  match minor with
  | 0x08 => addParts rdn (plain b) (plain c)
  | 0x09 => addParts rdn (plain b) (plain (c.map Exact.negate))
  | 0x0A => mulParts rdn b c
  | 0x0B => addParts rdn (mulParts rdn b c) (plain a)
  | _ => addParts rdn (mulParts rdn (b.map Exact.negate) c) (plain a)

/-- Round the parts of an element that carry flags. -/
def finishParts (fmt : Nat) (fxp : Int) (mode : Nat) (sat : Bool) (ws : List Nat) (xs : List (Exact × Nat)) : Nat × Nat :=
  let r := roundParts fmt fxp mode sat ws (xs.map (·.1))
  (r.1, (xs.map (·.2)).foldl (· ||| ·) r.2)

/-- `vadd` to `vfnma` (R238). -/
def arithBody (cls : OpClass) (minor : Nat) (cf : CF) : CBody := elemBody cls 6 fmaRate VT.draws cf fun v T n ws =>
  finishParts v.fmt v.fxp v.mode v.sat ws
    (arithParts minor (v.mode == 3) (partsOf v (T.vreg cf.a) n) (partsOf v (T.vreg cf.b) n) (partsOf v (T.vreg cf.c) n))

/-- Does `min` or `max` select its second operand? A NaN operand is selected before a number. -/
def selectsSecond (isMax : Bool) (x y : Exact) : Bool :=
  if x.isNan then false else if y.isNan then true else if isMax then x.lt y else y.lt x

/-- `min` or `max` of two values (R184). -/
def minMax (isMax : Bool) (x y : Exact) : Exact × Nat :=
  if x.isNan || y.isNan then (.nan false, flagIf (x.isSig || y.isSig) flInvalid)
  else if x.isZero && y.isZero then (Exact.zero.withSign (if isMax then x.neg && y.neg else x.neg || y.neg), 0)
  else (if selectsSecond isMax x y then y else x, 0)

/-- `vmin`, `vmax`: in tangent mode with the derivative of the selected operand (R256). -/
def minMaxBody (isMax : Bool) (cf : CF) : CBody := elemBody .arith 6 fmaRate noDraws cf fun v T n _ =>
  let b := partsOf v (T.vreg cf.b) n
  let c := partsOf v (T.vreg cf.c) n
  let d := if selectsSecond isMax (part0 b) (part0 c) then c else b
  finishParts v.fmt v.fxp v.mode v.sat [] (minMax isMax (part0 b) (part0 c) :: plain (d.drop 1))

/-- `vabs` (R184, R256). -/
def vabsBody (cf : CF) : CBody := elemBody .arith 6 fmaRate noDraws cf fun v T n _ =>
  let b := partsOf v (T.vreg cf.b) n
  finishParts v.fmt v.fxp v.mode v.sat []
    (plain ((part0 b).withSign false :: (b.drop 1).map (fun y => if (part0 b).neg then y.negate else y)))

/-- `vneg` (R184, R256). -/
def vnegBody (cf : CF) : CBody := elemBody .arith 6 fmaRate noDraws cf fun v T n _ =>
  finishParts v.fmt v.fxp v.mode v.sat [] (plain ((partsOf v (T.vreg cf.b) n).map Exact.negate))

/-! ## The function stage (R248, R256) -/

/-- 4E / (E + 1)² for E = e^2|x|: the derivative of tanh. -/
def sechSq : Exact → Exact
  | .fin _ n d e =>
    if n = 0 then .fin false 1 1 0
    else if 16 ≤ floorLog2 n d e then justBelow false 1 1 (-70000)
    else
      let E := expFin false n d (e + 1)
      let D := (E.add false (.fin false 1 1 0)).1
      (((E.mul (.fin false 4 1 0)).1).mul ((D.mul D).1.recip).1).1
  | .inf _ => .zero
  | x => x

/-- The derivative of a function, and the function it is delivered as (R256). -/
def derivExact (fn : Nat) (x : Exact) : Exact × Nat × Nat :=
  match fn with
  | 1 => let r := funcExact 1 x; (r.1, r.2, 1)
  | 2 => let r := x.recip; (r.1, r.2, 4)
  | 3 =>
    let r := (((x.mul x).1.mul x).1).rsqrt 64
    (((r.1.mul (.fin true 1 1 (-1))).1), r.2, 3)
  | 4 => let r := (x.mul x).1.recip; (r.1.negate, r.2, 4)
  | 5 => let r := funcExact 6 x; (r.1, r.2, 6)
  | 6 => let r := funcExact 5 x; (r.1.negate, r.2, 5)
  | _ => (sechSq x, flagIf x.isSig flInvalid, 16)

/-- A value to the precision of a lane format, its exponent range unbounded, and whether that is inexact. FP64 results of
exp, log, sin, cos and tanh are either of the two neighbours, a free value of the operand (R248). -/
def precRound (fn fmt md bits : Nat) : Exact → Exact × Bool
  | .fin neg n d e =>
    match floatFmt fmt with
    | some f =>
      if n = 0 then (.fin neg n d e, false)
      else
        let q := floorLog2 n d e - f.t
        let faithful := fn ≠ 3 ∧ fn ≠ 4 ∧ (fmt = 0 ∨ fmt = 11)
        let r := roundAt (if faithful then (if Sys2Proof.Config.funcUp fn fmt bits then 2 else 3) else md) neg 0 n d e q
        (.fin neg r.1 1 q, r.2)
    | none => (.fin neg n d e, false)
  | x => (x, false)

/-- The derivative part of a function: f′(b) to the accuracy of R248, times b′, rounded once (R256). The range of the format
applies to the product alone, which keeps it within 2 units in the last place. -/
def derivElem (fn fmt mode : Nat) (sat : Bool) (bits : Nat) (x dx : Exact) : Nat × Nat :=
  let md := if mode = 4 then 0 else mode
  let g := derivExact fn x
  let r := precRound g.2.2 fmt md bits g.1
  let p := r.1.mul dx
  let q := roundNum fmt 0 md sat 0 p.1
  let lost := r.2 && match p.1 with
    | .fin _ n _ _ => n != 0
    | _ => false
  (q.1, g.2.1 ||| flagIf lost flInexact ||| p.2 ||| q.2)

/-- A function of an element that may be a pair: `bits` are its encodings, `xs` its parts. -/
def funcParts (fn fmt mode : Nat) (sat : Bool) (bits : Nat) (xs : List Exact) : Nat × Nat :=
  let r := funcElem fn fmt mode sat bits
  match xs with
  | [x, dx] =>
    let q := derivElem fn fmt mode sat bits x dx
    (r.1 + 2 ^ laneW fmt * q.1, r.2 ||| q.2)
  | _ => r

/-- `vrecip` to `vtanh`, by FUNC code. -/
def funcBody (fn : Nat) (cf : CF) : CBody := elemBody .func 16 (fun v => funcRate v.fmt v.parts) noDraws cf fun v T n _ =>
  funcParts fn v.fmt v.mode v.sat (lane (T.vreg cf.b) (laneW v.fmt) (v.parts * n) % 2 ^ fmtBits v.fmt)
    (partsOf v (T.vreg cf.b) n)

/-! ## Compares, bits, shifts, masks -/

/-- A compare by its CMP code of R242 (R184). -/
def compare (code : Nat) (x y : Exact) : Bool × Nat :=
  if x.isNan || y.isNan then
    (code == 2, flagIf (x.isSig || y.isSig || 3 ≤ code) flInvalid)
  else
    (match code with
     | 1 => x.eqv y
     | 2 => !x.eqv y
     | 3 => x.lt y
     | 4 => !y.lt x
     | 5 => y.lt x
     | _ => !x.lt y, 0)

/-- `vceq` to `vcge`: values alone are compared (R256). -/
def compareBody (code : Nat) (cf : CF) : CBody := accepted .compare fun T _ start =>
  let v := T.vt
  let r := mapMask T start cf.a cf.k v.ew v.n (fun n =>
    compare code (part0 (partsOf v (T.vreg cf.b) n)) (part0 (partsOf v (T.vreg cf.c) n)))
  { T := r.1, fl := r.2, cycles := opCycles 3 v.n (regRate v) 0 }

/-- A bitwise operation or a shift of elements. -/
def bitBody (cls : OpClass) (cf : CF) (f : Nat → Nat → Nat → Nat) : CBody := elemBody cls 3 regRate noDraws cf fun v T n _ =>
  (f v.ew (lane (T.vreg cf.b) v.ew n) (lane (T.vreg cf.c) v.ew n), 0)

/-- The shift amount: bits [5:0], modulo ew. -/
def shAmt (w c : Nat) : Nat := c % 64 % w

/-- `vshl`. -/
def vshlBody (cf : CF) : CBody := bitBody .shift cf (fun w b c => b * 2 ^ shAmt w c % 2 ^ w)
/-- `vshr`. -/
def vshrBody (cf : CF) : CBody := bitBody .shift cf (fun w b c => b / 2 ^ shAmt w c)
/-- `vsar`. -/
def vsarBody (cf : CF) : CBody := bitBody .shift cf (fun w b c => wrapTo w (signed w b / (2 ^ shAmt w c : Nat)))
/-- `vand`. -/
def vandBody (cf : CF) : CBody := bitBody .bitwise cf (fun _ b c => b &&& c)
/-- `vor`. -/
def vorBody (cf : CF) : CBody := bitBody .bitwise cf (fun _ b c => b ||| c)
/-- `vxor`. -/
def vxorBody (cf : CF) : CBody := bitBody .bitwise cf (fun _ b c => b ^^^ c)

/-- A mask operation on all 512 bits. -/
def maskBody (cf : CF) (f : Line → Line → Line) : CBody := shortBody fun T _ =>
  (T.setK cf.a (f (T.kreg cf.b) (T.kreg cf.c)), none)

/-- The elements whose bit in kB is 1. -/
def maskElems (T : Tile) (b : Nat) : List Nat := (List.range T.vt.n).filter (activeIn (T.kreg b) T.vt.ew)

/-- `kpop`. -/
def kpopBody (cf : CF) : CBody := shortBody fun T _ => (T, some (BitVec.ofNat 64 (maskElems T cf.b).length))
/-- `kfirst`. -/
def kfirstBody (cf : CF) : CBody := shortBody fun T _ =>
  (T, some (BitVec.ofNat 64 ((maskElems T cf.b).headD T.vt.n)))

/-! ## cvt (R240) -/

/-- `cvt`: from format C[3:0] to VTYPE.FMT, part `p`. -/
def cvtBody (cf : CF) : CBody := accepted .cvt fun T env start =>
  let v := T.vt
  let src := cf.c % 16
  let p := 8 * (cf.c / 16) + cf.p
  let ws := laneW src
  let wd := laneW v.fmt
  if v.tan && 1 < src || max ws wd / min ws wd ≤ p then .refuse T 6 0
  else
    let ew := max ws wd * v.parts
    let n := elems v.vl ew
    let off := fun (w i : Nat) => if w < max ws wd then p * n + i else i
    let vs : VT := { v with fmt := src }
    let draws := if v.mode = 4 ∧ convDraws src v.fmt v.fxp v.fxp then v.parts else 0
    let B := T.vreg cf.b
    let mask := T.kreg cf.k
    let r := (idxFrom start n).foldl (fun (acc : Vec × Nat) i =>
      if activeIn mask ew i then
        let q := roundParts v.fmt v.fxp v.mode v.sat (drawsAt T env.t start draws i) (partsOf vs B (off ws i))
        (setLane acc.1 (wd * v.parts) (off wd i) q.1, acc.2 ||| q.2)
      else if v.mz then (setLane acc.1 (wd * v.parts) (off wd i) 0, acc.2)
      else acc) (T.vreg cf.a, 0)
    { T := (T.setV cf.a r.1).drawn draws (n - start), fl := r.2, cycles := opCycles 5 n (bitRate ew) 0 }

/-! ## Widening and dot products (R245, R246) -/

/-- Destination format of the widening and dot operations. -/
def wideFmt (src : Nat) : Nat :=
  match src with
  | 1 => 0 | 8 => 10 | _ => 1

/-- `vwmul` and its variants: `high` takes source elements N + n, `add` adds the destination element. -/
def widenBody (high add : Bool) (cf : CF) : CBody := accepted .widen fun T env start =>
  let v := T.vt
  let df := wideFmt v.fmt
  let n := elems v.vl (laneW df)
  let draws := if v.mode = 4 ∧ (add ∨ v.fmt = 3) then 1 else 0
  let r := mapLanes T env start cf.a cf.k (laneW df) (laneW df) n draws (fun i ws =>
    let j := if high then n + i else i
    let m := (laneVal v.fmt 0 (T.vreg cf.b) j).mul (laneVal v.fmt 0 (T.vreg cf.c) j)
    let s := if add then addFl (v.mode == 3) m (laneVal df 0 (T.vreg cf.a) i, 0) else m
    finishParts df 0 v.mode v.sat ws [s])
  { T := r.1, fl := r.2, cycles := opCycles 6 n (bitRate (laneW df)) 0 }

/-- `vdot`. -/
def vdotBody (cf : CF) : CBody := accepted .dot fun T env start =>
  let v := T.vt
  let df := wideFmt v.fmt
  let n := elems v.vl (laneW df)
  let g := laneW df / laneW v.fmt
  let draws := if v.mode = 4 ∧ v.fmt ≠ 8 then 1 else 0
  let r := mapLanes T env start cf.a cf.k (laneW df) (laneW df) n draws (fun i ws =>
    let s := (List.range g).foldl (fun (acc : Exact × Nat) j =>
      addFl (v.mode == 3) acc ((laneVal v.fmt 0 (T.vreg cf.b) (g * i + j)).mul (laneVal v.fmt 0 (T.vreg cf.c) (g * i + j))))
      (laneVal df 0 (T.vreg cf.a) i, 0)
    finishParts df 0 v.mode v.sat ws [s])
  { T := r.1, fl := r.2, cycles := opCycles 7 n (bitRate (laneW df)) 0 }

/-! ## Reductions (R250 to R252) -/

/-- Deposit items at a root in order: each has an index, a value, its flags and its LSB weight. -/
def Tile.depositItems (T : Tile) (r now n : Nat) (items : List (Nat × (Exact × Nat) × Int)) : Tile × Nat × Nat :=
  let q := items.foldl (fun (acc : Tile × Nat) it =>
    let d := acc.1.deposit r now it.2.1.1
    (d.1, acc.2 ||| d.2 ||| it.2.1.2)) (T, 0)
  let ps := items.filterMap (fun it => if spreads it.2.1.1 then some (it.1, it.2.2) else none)
  (q.1, q.2, if (T.root r).kind = 0 then spreadStalls n ps else 0)

/-- The active elements of a source as items. -/
def itemsOf (T : Tile) (v : VT) (b k part : Nat) : List (Nat × (Exact × Nat) × Int) :=
  ((List.range v.n).filter (activeIn (T.kreg k) v.ew)).map (fun n =>
    let x := laneVal v.fmt v.fxp (T.vreg b) (v.parts * n + part)
    (n, (x, 0), lsbWeight v.fmt x))

/-- `vredsum` to `vredamax`. In tangent mode `vredsum` alone, on root 0, its derivatives going to root 1 (R257). -/
def reduceBody (kind : Nat) (cf : CF) : CBody := fun T env _ =>
  let v := T.vt
  if !(OpClass.fmts .reduce).contains v.fmt then .refuse T 6 0
  else if v.tan && !(kind == 0 && cf.a == 0) then .refuse T 6 0
  else
    let r0 := (T.kindRoot cf.a kind).depositItems cf.a env.now v.n (itemsOf T v cf.b cf.k 0)
    let r1 := if v.tan then (r0.1.kindRoot 1 0).depositItems 1 env.now v.n (itemsOf T v cf.b cf.k 1) else (r0.1, 0, 0)
    let st := max r0.2.2 r1.2.2
    { T := r1.1, fl := r0.2.1 ||| r1.2.1, cycles := opCycles 7 v.n 64 st, spread := st }

/-- `vreddot` (R246). -/
def vreddotBody (cf : CF) : CBody := accepted .reddot fun T env _ =>
  let v := T.vt
  let items := ((List.range v.n).filter (activeIn (T.kreg cf.k) v.ew)).map (fun n =>
    let x := laneVal v.fmt v.fxp (T.vreg cf.b) n
    let y := laneVal v.fmt v.fxp (T.vreg cf.c) n
    (n, x.mul y, lsbWeight v.fmt x + lsbWeight v.fmt y))
  let r := (T.kindRoot cf.a 0).depositItems cf.a env.now v.n items
  { T := r.1, fl := r.2.1, cycles := opCycles 11 v.n (min 64 (regRate v)) r.2.2, spread := r.2.2 }

/-- `vrclr` (R251). -/
def vrclrBody (cf : CF) : CBody := shortBody fun T _ => (T.initRoot cf.a cf.c, none)

/-- The root rounded once to VTYPE.FMT, and the tile with its word drawn and the root kept or cleared (R253). -/
def drainRoot (T : Tile) (env : CEnv) (r : Nat) (keep : Bool) : (Nat × Nat) × Tile :=
  let v := T.vt
  let R := T.root r
  let w := drawsAt T env.t 0 (if v.mode = 4 then 1 else 0) 0
  let T1 := (T.drawn (if v.mode = 4 then 1 else 0) 1).settledRoot r
  (roundNum v.fmt v.fxp v.mode v.sat (w.headD 0) R.value, if keep then T1 else T1.initRoot r R.kind)

/-- `vrdrain` (R253). -/
def vrdrainBody (cf : CF) : CBody := accepted .drain fun T env _ =>
  let q := drainRoot T env cf.b (cf.c == 1)
  { T := q.2, fl := q.1.2, cycles := (T.root cf.b).settleWait env.now + 8, sout := some (BitVec.ofNat 64 q.1.1) }

/-- `vrdrainv` (R253). -/
def vrdrainvBody (cf : CF) : CBody := accepted .drainv fun T env _ =>
  let q := drainRoot T env cf.b (cf.c == 1)
  { T := q.2.setV cf.a (setLane (q.2.vreg cf.a) (laneW T.vt.fmt) 0 q.1.1), fl := q.1.2,
    cycles := (T.root cf.b).settleWait env.now + 8 }

/-! ## The generator (R259) -/

/-- `vrand`: one word of the chain stream per element, 32 bits wide. -/
def vrandBody (cf : CF) : CBody := accepted .random fun T env start =>
  let n := elems T.vt.vl 32
  let r := mapLanes T env start cf.a cf.k 32 32 n 1 (fun _ ws => (ws.headD 0, 0))
  { T := r.1, cycles := opCycles 8 n 128 0 }

/-- One group of `vphilox`. -/
def philoxGroup (key g : Nat) : Nat :=
  let r := philox key (bitsOf g 0 32, bitsOf g 32 32, bitsOf g 64 32, bitsOf g 96 32)
  r.1 + 2 ^ 32 * r.2.1 + 2 ^ 64 * r.2.2.1 + 2 ^ 96 * r.2.2.2

/-- `vphilox`: 32 groups of 128 bits, whatever VL and the mask. -/
def vphiloxBody (cf : CF) : CBody := accepted .random fun T env _ =>
  let B := T.vreg cf.b
  let v := (List.range 32).foldl (fun (acc : Vec) g => setLane acc 128 g (philoxGroup env.sc.toNat (lane B 128 g))) 0
  { T := T.setV cf.a v, cycles := 8 }

end Sys2Proof.Machine
end

