-- ==== Sys2Proof/Machine/ChainMem.lean ====
section
/-!
DEFINITION. The chain's accesses to the tile store: loads, stores, gather and scatter (R238), records of roots (R254),
and configured chains (R241 to R244). In the C queue a failing element stops the instruction (R261, R262); inside a
tile program it is skipped and recorded (R301).
-/
namespace Sys2Proof.Machine

/-! ## One access -/

/-- What an access of an element comes to. -/
inductive Acc1 where
  | ok
  | poison
  | skip
  | fault (vcause : Nat)
  deriving DecidableEq, Repr

/-- Is a range inside the window of a tile program? -/
def inWindow (w : Nat × Nat) (a n : Nat) : Bool := w.1 ≤ a && a + n ≤ w.1 + w.2

/-- Judge an access of `n` bytes aligned to `al`: VCAUSE 1, 2 and 3 in the C queue (R261), skipped or poisoned inside a
tile program (R301). An aligned pair whose second lane lies beyond the store takes VCAUSE 1 (log entry 26). -/
def judge (T : Tile) (env : CEnv) (a n al : Nat) (isRead : Bool) : Acc1 :=
  match env.win with
  | none =>
    if storeEnd ≤ a then .fault 1
    else if a % al ≠ 0 then .fault 2
    else if storeEnd < a + n then .fault 1
    else if isRead && T.hasUE a n then .fault 3
    else .ok
  | some w =>
    if storeEnd < a + n || a % al != 0 || !inWindow w a n then .skip
    else if isRead && T.hasUE a n then .poison
    else .ok

/-- Does the tile hold back partial effects? (R262, R263) -/
def Tile.holdsBack (T : Tile) : Bool := T.fld F.TILE_STATUS_OPSTATE != 0

/-- Record an element that was not accessed (R301). -/
def Tile.addrErr (T : Tile) (a : Nat) : Tile :=
  if T.fld F.TPROG_STATUS_ADDR_ERR = 1 then T
  else (T.setFld F.TPROG_STATUS_ADDR_ERR 1).setFld F.TPROG_STATUS_ERR_AT a

/-- Record a poisoned read of a tile program (R301). -/
def Tile.progPoison (T : Tile) : Tile := { T.setFld F.TPROG_STATUS_POISON 1 with marked := true }

/-- The bits a poisoned element is moved with (R301): a signalling NaN of a float format that has one, its payload a
free value; in any other format a free value. -/
def poisonOf (fmt : Nat) : Nat :=
  match floatFmt fmt with
  | some f =>
    if fmt = 4 ∨ fmt = 5 ∨ fmt = 6 then canonNan fmt f
    else (2 ^ f.w - 1) * 2 ^ f.t + 1 + Sys2Proof.Config.poisonBits fmt % (2 ^ (f.t - 1) - 1)
  | none => Sys2Proof.Config.poisonBits fmt % 2 ^ fmtBits fmt

/-- The bits of a poisoned element: in every part of a pair (R255, R301). -/
def poisonElem (fmt parts : Nat) : Nat := packElems (laneW fmt) (List.replicate parts (poisonOf fmt))

/-! ## The element loop -/

/-- What the element loop carries: the tile, the flags of the elements done, and the LSB weights that reached a
root. -/
structure CS where
  T : Tile
  fl : Nat := 0
  ps : List (Nat × Int) := []
  ps1 : List (Nat × Int) := []

/-- What an element gives: done, or a fault at an element with VCAUSE and address. -/
inductive ERes where
  | done (s : CS)
  | stop (elem vcause addr : Nat)

/-- Run units of elements in ascending order; a unit that stops has no effect. Answers the unit that stopped with its
element, VCAUSE and address. -/
def elemLoop (f : Nat → CS → ERes) : Nat → Nat → CS → CS × Option (Nat × Nat × Nat × Nat)
  | 0, _, s => (s, none)
  | fuel + 1, i, s =>
    match f i s with
    | .done s' => elemLoop f fuel (i + 1) s'
    | .stop e vc a => (s, some (i, e, vc, a))

/-- The result of a loop over single elements. -/
def loopRes (r : CS × Option (Nat × Nat × Nat × Nat)) (draws start n cycles spread bank : Nat) : CRes :=
  match r.2 with
  | none => { T := r.1.T.drawn draws (n - start), fl := r.1.fl, cycles := cycles, spread := spread, bank := bank }
  | some (i, e, vc, a) => { T := r.1.T.drawn draws (i - start), fl := r.1.fl, fault := some (vc, e, a, i) }

/-! ## Loads and stores -/

/-- A source register as an instruction sees it: if it is the destination too and the instruction was stopped, what
it held when the instruction began (R264). -/
def Tile.srcV (T : Tile) (start r : Nat) : Vec :=
  match T.cPre with
  | some (a, before, after) => if start ≠ 0 ∧ a = r ∧ T.vreg r = after then before else T.vreg r
  | none => T.vreg r

/-- Address of an element, modulo 2^64. -/
def addrOf (x : Int) : Nat := wrapTo 64 x

/-- BANK stall cycles of the active elements' addresses, in groups of 8 consecutive indices (R268). -/
def bankStalls (n : Nat) (as : List (Nat × Nat)) : Nat :=
  ((List.range (ceilDiv n 8)).map (fun g =>
    let l := (as.filter (fun p => p.1 / 8 == g)).map (fun p => p.2 / 0x60000)
    ((List.range 8).map (fun b => (l.filter (· == b)).length)).foldl max 1 - 1)).foldl (· + ·) 0

/-- A load of elements: `addr` gives the address of each. -/
def loadBody (cf : CF) (ew : VT → Nat) (lat : Nat) (unit : Bool) (addr : Tile → CEnv → Nat → Nat → Nat) : CBody :=
  accepted .move fun T env start =>
    let v := T.vt
    let w := v.ew / 8
    let al := laneW v.fmt / 8
    let n := elems v.vl (ew v)
    let mask := T.kreg cf.k
    let step := fun (i : Nat) (s : CS) =>
      if activeIn mask (ew v) i then
        let a := addr T env start i
        match judge s.T env a w al true with
        | .fault vc => ERes.stop i vc a
        | .skip => .done { s with T := (s.T.setV cf.a (setLane (s.T.vreg cf.a) v.ew i 0)).addrErr a }
        | .poison => .done { s with T := (s.T.setV cf.a (setLane (s.T.vreg cf.a) v.ew i (poisonElem v.fmt v.parts))).progPoison }
        | .ok => .done { s with T := s.T.setV cf.a (setLane (s.T.vreg cf.a) v.ew i (s.T.peek a w)) }
      else if v.mz then .done { s with T := s.T.setV cf.a (setLane (s.T.vreg cf.a) v.ew i 0) }
      else .done s
    let bank := if unit then 0 else
      bankStalls n (((List.range n).filter (fun i => start ≤ i && activeIn mask (ew v) i)).map (fun i => (i, addr T env start i)))
    let rate := if unit then min (512 / w) (bitRate v.ew) else 8
    loopRes (elemLoop step (n - start) start { T := T }) 0 start n (opCycles lat n rate bank) 0 bank

/-- A store of elements. -/
def storeBody (cf : CF) (ew : VT → Nat) (lat : Nat) (unit : Bool) (addr : Tile → CEnv → Nat → Nat → Nat) : CBody :=
  accepted .move fun T env start =>
    let v := T.vt
    let w := v.ew / 8
    let al := laneW v.fmt / 8
    let n := elems v.vl (ew v)
    let mask := T.kreg cf.k
    let A := T.vreg cf.a
    let step := fun (i : Nat) (s : CS) =>
      if activeIn mask (ew v) i then
        let a := addr T env start i
        match judge s.T env a w al false with
        | .fault vc => ERes.stop i vc a
        | .skip => .done { s with T := s.T.addrErr a }
        | _ => .done { s with T := s.T.poke a w (lane A v.ew i) }
      else .done s
    let bank := if unit then 0 else
      bankStalls n (((List.range n).filter (fun i => start ≤ i && activeIn mask (ew v) i)).map (fun i => (i, addr T env start i)))
    let rate := if unit then min (512 / w) (bitRate v.ew) else 8
    loopRes (elemLoop step (n - start) start { T := T }) 0 start n (opCycles lat n rate bank) 0 bank

/-- Unit stride. -/
def unitAddr (T : Tile) (env : CEnv) (_ n : Nat) : Nat := addrOf (env.sb.toNat + n * (T.vt.ew / 8) : Nat)
/-- A signed byte stride. -/
def strideAddr (_ : Tile) (env : CEnv) (_ n : Nat) : Nat := addrOf (env.sb.toNat + n * env.sc.toInt)
/-- A 32-bit signed index per element. -/
def indexAddr (c : Nat) (T : Tile) (env : CEnv) (start n : Nat) : Nat :=
  addrOf (env.sb.toNat + signed 32 (lane (T.srcV start c) 32 n) * (T.vt.ew / 8 : Nat))

/-- `vld`. -/
def vldBody (cf : CF) : CBody := loadBody cf VT.ew 5 true unitAddr
/-- `vlds`. -/
def vldsBody (cf : CF) : CBody := loadBody cf VT.ew 5 false strideAddr
/-- `vst`. -/
def vstBody (cf : CF) : CBody := storeBody cf VT.ew 3 true unitAddr
/-- `vsts`. -/
def vstsBody (cf : CF) : CBody := storeBody cf VT.ew 3 false strideAddr
/-- `vgather`. -/
def vgatherBody (cf : CF) : CBody := loadBody cf (fun v => max v.ew 32) 5 false (indexAddr cf.c)
/-- `vscatter`: the highest element prevails, stores being made in ascending order. -/
def vscatterBody (cf : CF) : CBody := storeBody cf (fun v => max v.ew 32) 3 false (indexAddr cf.c)

/-! ## Records (R254) -/

/-- The first failing check of a record access. Inside a tile program an address that fails is recorded, and the instruction
goes on as `skip` says; any other cause has no effect there (R301). -/
def recordFail (T : Tile) (env : CEnv) (vc a : Nat) (skip : Tile → CRes) : CRes :=
  match env.win with
  | none => .refuse T vc a
  | some _ => if vc = 2 ∨ vc = 5 then skip (T.addrErr a) else { T := T, cycles := 2 }

/-- `vrexport`. A record that a tile program may not write is not written; its byte count is delivered all the same
(DEDUCED, log entry 27). -/
def vrexportBody (cf : CF) : CBody := fun T env _ =>
  let R := T.root cf.b
  let a := env.sc.toNat
  let (hdr, words, cnt) := R.acc.record
  let done := fun (T : Tile) =>
    ({ T := T.settledRoot cf.b, sout := some (BitVec.ofNat 64 (recSize cnt)),
       cycles := R.settleWait env.now + 2 + ceilDiv (recSize cnt) 64 } : CRes)
  if R.kind ≠ 0 then .refuse T 6 0
  else if a % 8 ≠ 0 then recordFail T env 2 a done
  else if storeEnd < a + 544 then recordFail T env 5 a done
  else if (env.win.map (fun w => !inWindow w a (recSize cnt))).getD false then recordFail T env 5 a done
  else done (T.poke a (recSize cnt) (hdr + 2 ^ 64 * words))

/-- A read of record bytes: VCAUSE 5 beyond the store, 3 on an uncorrectable error. -/
def recordRead (T : Tile) (env : CEnv) (a n : Nat) : Option Nat :=
  if storeEnd < a + n then some 5
  else if (env.win.map (fun w => !inWindow w a n)).getD false then some 5
  else if T.hasUE a n then some 3
  else none

/-- Add a record's value to a root (R225), or load it (R254). -/
def importRoot (T : Tile) (now r : Nat) (acc : Bool) (x : Exact) : Tile × Nat :=
  let T1 := if acc then T else T.initRoot r 0
  T1.deposit r now x

/-- `vrimport`. Inside a tile program an uncorrectable error makes the record a signalling NaN, and a record that is not
accessed reads as zero bits, which is the record of zero (R301). -/
def vrimportBody (cf : CF) : CBody := fun T env _ =>
  let a := env.sb.toNat
  let acc := cf.c == 1
  let load := fun (T : Tile) (x : Exact) =>
    let q := importRoot T env.now cf.a acc x
    ({ T := q.1, fl := q.2, cycles := 6 } : CRes)
  let bad := fun (vc : Nat) =>
    if vc = 3 ∧ env.win.isSome then load T.progPoison (.nan true)
    else recordFail T env vc a (fun T => load T .zero)
  if acc && (T.root cf.a).kind != 0 then .refuse T 6 0
  else if a % 8 ≠ 0 then bad 2
  else
    match recordRead T env a 8 with
    | some vc => bad vc
    | none =>
      let hdr := T.peek a 8
      let cnt := bitsOf hdr 8 7
      match recordRead T env a (recSize cnt) with
      | some vc => bad vc
      | none =>
        let words := T.peek (a + 8) (8 * cnt)
        if !recCanonical hdr words then bad 4
        else
          let q := importRoot T env.now cf.a acc (recValue hdr words)
          { T := q.1, fl := q.2, cycles := 4 + 2 * ceilDiv (recSize cnt) 64 }

end Sys2Proof.Machine
end

