-- ==== Sys2Proof/Machine/ChainCfg.lean ====
section
/-!
DEFINITION. Configured chains (R241 to R244, R257, R262): the stages an element passes, and the instruction over all
elements.
-/
namespace Sys2Proof.Machine

/-- A chain configuration (R242) with the operand fields of word 1 and MINOR of the instruction (R241). -/
structure CC where
  lfmt : Nat
  afmt : Nat
  qfmt : Nat
  lmx : Bool
  qmx : Bool
  scl : Nat
  fma : Nat
  func : Nat
  cmp : Nat
  sel : Nat
  armode : Nat
  qrmode : Nat
  qsat : Bool
  asat : Bool
  red : Nat
  rtap : Bool
  lfxp : Int
  qfxp : Int
  lscale : Nat
  qscale : Nat
  afxp : Int
  sop : Nat
  mop : Nat
  aop : Nat
  cop : Nat
  selop : Nat
  kout : Nat
  root : Nat
  src : Nat
  dst : Nat
  racc : Bool
  tan : Bool

/-- The configuration that a `vchain` names, as it stands. -/
def ccOf (T : Tile) (cf : CF) : CC :=
  let n := 2 * bitsOf cf.w1 0 3
  let g := fun (f : Fld) => T.fld (f.at n)
  { lfmt := g F.CHAIN_CFGA_LFMT, afmt := g F.CHAIN_CFGA_AFMT, qfmt := g F.CHAIN_CFGA_QFMT,
    lmx := g F.CHAIN_CFGA_LMX == 1, qmx := g F.CHAIN_CFGA_QMX == 1, scl := g F.CHAIN_CFGA_SCL,
    fma := g F.CHAIN_CFGA_FMA, func := g F.CHAIN_CFGA_FUNC, cmp := g F.CHAIN_CFGA_CMP, sel := g F.CHAIN_CFGA_SEL,
    armode := g F.CHAIN_CFGA_ARMODE, qrmode := g F.CHAIN_CFGA_QRMODE, qsat := g F.CHAIN_CFGA_QSAT == 1,
    asat := g F.CHAIN_CFGA_ASAT == 1, red := g F.CHAIN_CFGA_RED, rtap := g F.CHAIN_CFGA_RTAP == 1,
    lfxp := signed 8 (g F.CHAIN_CFGA_LFXP), qfxp := signed 8 (g F.CHAIN_CFGA_QFXP), lscale := g F.CHAIN_CFGB_LSCALE,
    qscale := g F.CHAIN_CFGB_QSCALE, afxp := signed 8 (g F.CHAIN_CFGB_AFXP),
    sop := bitsOf cf.w1 3 5, mop := bitsOf cf.w1 8 5, aop := bitsOf cf.w1 13 5, cop := bitsOf cf.w1 18 5,
    selop := bitsOf cf.w1 23 5, kout := bitsOf cf.w1 28 3, root := bitsOf cf.w1 31 1,
    src := cf.p % 4, dst := cf.p / 4 % 4, racc := bitOf cf.p 4, tan := T.vt.tan }

/-- The cases of R244 in which a configured chain is not accepted. -/
def CC.refused (c : CC) (k : Nat) : Bool :=
  c.lmx && (c.src != 1 || !mxFmt c.lfmt) ||
  c.qmx && (c.dst != 1 || k != 0 || !mxFmt c.qfmt) ||
  fmtBits c.lfmt == 4 && c.src == 0 || fmtBits c.qfmt == 4 && c.dst != 1 ||
  c.func != 0 && c.afmt == 10 ||
  c.fma == 4 && (c.red == 0 || c.rtap || c.func != 0 || c.cmp != 0) ||
  c.sel != 0 && c.cmp == 0 ||
  c.tan && (1 < c.lfmt || 1 < c.afmt || 1 < c.qfmt || c.lmx || c.qmx || c.fma == 4 || 1 < c.red || c.root == 1)

/-- Lanes of one element. -/
def CC.parts (c : CC) : Nat := if c.tan then 2 else 1
/-- The element width (R235): of the lanes that the chain reads or writes. A chain without a vector output writes none in
QFMT. -/
def CC.ew (c : CC) : Nat := max (max (laneW c.lfmt) (laneW c.afmt)) (if c.dst = 2 then 0 else laneW c.qfmt) * c.parts
/-- Does a chain copy EXT80 containers bit for bit between the tile store and a register or the store (R284)? No stage of it
then computes. -/
def CC.copies (c : CC) : Bool :=
  c.lfmt == 11 && c.afmt == 11 && c.qfmt == 11 && (c.src == 1 || c.dst == 1) && c.scl == 0 && c.fma == 0 && c.func == 0

/-! ## Draws (R259) -/

/-- Words of the load-convert stage per part; the scaled elements of an MX source are a conversion that R177 does not
list. -/
def CC.drawL (c : CC) : Nat := if c.armode = 4 ∧ (c.lmx ∨ convDraws c.lfmt c.afmt c.lfxp c.afxp) then 1 else 0
/-- Words of a stage that rounds under ARMODE, per part. -/
def CC.drawA (c : CC) (on : Bool) : Nat := if c.armode = 4 ∧ on then 1 else 0
/-- Words of the quantise stage per part. -/
def CC.drawQ (c : CC) : Nat := if c.qrmode = 4 ∧ (c.qmx ∨ c.fma = 4 ∨ convDraws c.afmt c.qfmt c.afxp c.qfxp) then 1 else 0
/-- Words per element. -/
def CC.draws (c : CC) : Nat :=
  c.parts * (c.drawL + c.drawA (c.scl != 0) + c.drawA (c.fma != 0 && c.fma != 4) + c.drawQ)

/-! ## The stages before quantise -/

/-- The parts of an element on its way, the flags so far, the words not yet used, the compare's result, the LSB
weight of a MULX product, and the container of an EXT80 element that is copied. -/
structure EV where
  xs : List Exact
  fl : Nat
  ws : List Nat
  cmp : Bool := false
  mulp : Option Int := none
  raw : Option Nat := none

/-- Round every part under ARMODE into AFMT, taking `d` words each. -/
def EV.round (c : CC) (e : EV) (d : Nat) (ys : List (Exact × Nat)) : EV :=
  let us := if d = 0 then List.replicate ys.length 0 else e.ws ++ List.replicate ys.length 0
  let rs := (ys.zip us).map (fun p => roundNum c.afmt c.afxp c.armode c.asat p.2 p.1.1)
  { e with xs := rs.map (fun r => decodeNum c.afmt c.afxp r.1),
           fl := (rs.map (·.2)).foldl (· ||| ·) ((ys.map (·.2)).foldl (· ||| ·) e.fl),
           ws := e.ws.drop (d * ys.length) }

/-- An operand register's element in AFMT. -/
def CC.operand (c : CC) (T : Tile) (start r n : Nat) : List Exact :=
  (List.range c.parts).map (fun i => laneVal c.afmt c.afxp (T.srcV start r) (c.parts * n + i))

/-- Scale by 2^k, k the low 32 bits of the operand's element; beyond 2^±70000 nothing changes further. -/
def CC.pow2 (c : CC) (T : Tile) (start n : Nat) (x : Exact) : Exact :=
  let w := min 32 (laneW c.afmt)
  let k := signed w (lane (T.srcV start c.sop) (laneW c.afmt) (c.parts * n))
  let k := max (-70000) (min 70000 k)
  match x with
  | .fin s m d e => .fin s m d (e + k)
  | y => y

/-- The scale stage. -/
def CC.scaleStage (c : CC) (T : Tile) (start n : Nat) (e : EV) : EV :=
  if c.scl = 0 then e
  else
    let rdn := c.armode == 3
    e.round c (c.drawA true)
      (match c.scl with
       | 1 => mulParts rdn e.xs (c.operand T start c.sop n)
       | 2 => addParts rdn (plain e.xs) (plain (c.operand T start c.sop n))
       | _ => plain (e.xs.map (c.pow2 T start n)))

/-- The FMA stage; MULX passes the exact product on. -/
def CC.fmaStage (c : CC) (T : Tile) (start n : Nat) (e : EV) : EV :=
  let rdn := c.armode == 3
  let m := c.operand T start c.mop n
  let a := c.operand T start c.aop n
  match c.fma with
  | 0 => e
  | 1 => e.round c (c.drawA true) (addParts rdn (mulParts rdn e.xs m) (plain a))
  | 2 => e.round c (c.drawA true) (addParts rdn (mulParts rdn e.xs m) (plain (a.map Exact.negate)))
  | 3 => e.round c (c.drawA true) (addParts rdn (mulParts rdn (e.xs.map Exact.negate) m) (plain a))
  | _ =>
    let p := (part0 e.xs).mul (part0 m)
    { e with xs := [p.1], fl := e.fl ||| p.2, mulp := some (lsbWeight c.afmt (part0 e.xs) + lsbWeight c.afmt (part0 m)) }

/-- The function stage. -/
def CC.funcStage (c : CC) (e : EV) : EV :=
  if c.func = 0 then e
  else
    let bits := (roundNum c.afmt c.afxp 0 false 0 (part0 e.xs)).1
    let r := funcParts c.func c.afmt c.armode c.asat bits e.xs
    { e with xs := (List.range c.parts).map (fun i => decodeNum c.afmt c.afxp (bitsOf r.1 (i * laneW c.afmt) (fmtBits c.afmt))),
             fl := e.fl ||| r.2 }

/-- Compare and select. -/
def CC.selStage (c : CC) (T : Tile) (start n : Nat) (e : EV) : EV :=
  if c.cmp = 0 then e
  else
    let r := compare c.cmp (part0 e.xs) (part0 (c.operand T start c.cop n))
    let xs := match c.sel with
      | 1 => if r.1 then e.xs else c.operand T start c.selop n
      | 2 => if r.1 then e.xs else List.replicate c.parts .zero
      | _ => e.xs
    { e with xs := xs, fl := e.fl ||| r.2, cmp := r.1, raw := if c.sel = 0 ∨ r.1 then e.raw else none }

/-- From the source values of an element to tap 0; `bits` are its encoding. -/
def CC.stages (c : CC) (T : Tile) (start n : Nat) (ws : List Nat) (src : List Exact) (bits : Nat) : EV :=
  let e : EV := { xs := src, fl := 0, ws := ws }
  if c.copies then c.selStage T start n { e with raw := some bits }
  else
    let e := e.round c c.drawL (plain src)
    c.selStage T start n (c.funcStage (c.fmaStage T start n (c.scaleStage T start n e)))

/-! ## Source and destination -/

/-- Bytes of an element in the tile store. -/
def storeBytes (fmt parts : Nat) : Nat := laneW fmt / 8 * parts
/-- Address of element `n` in the tile store from a base; 4-bit elements are packed. -/
def elemAddr (base fmt parts n : Nat) : Nat :=
  addrOf (base + (if fmtBits fmt = 4 then n / 2 else n * storeBytes fmt parts) : Nat)

/-- What reading a source element gives: the tile, the element's values and its bits, or a fault with VCAUSE and address. -/
inductive Src where
  | vals (T : Tile) (xs : List Exact) (bits : Nat)
  | fault (vcause addr : Nat)

/-- The parts of an element from its bits. -/
def CC.decode (c : CC) (bits : Nat) : List Exact :=
  (List.range c.parts).map (fun i =>
    if c.lmx then mxElem c.lfmt bits else decodeNum c.lfmt c.lfxp (bitsOf bits (i * laneW c.lfmt) (fmtBits c.lfmt)))

/-- A source element from the tile store as `D` holds it. -/
def CC.fromStore (c : CC) (D T : Tile) (env : CEnv) (n : Nat) : Src :=
  let w := storeBytes c.lfmt c.parts
  let a := elemAddr env.sb.toNat c.lfmt c.parts n
  let poison := Src.vals T.progPoison (List.replicate c.parts (.nan true)) (poisonElem c.lfmt c.parts)
  match judge D env a w (laneW c.lfmt / 8) true with
  | .fault vc => .fault vc a
  | .skip => .vals (T.addrErr a) (c.decode 0) 0
  | .poison => poison
  | .ok =>
    let bits := if fmtBits c.lfmt = 4 then D.peek a 1 / 16 ^ (n % 2) % 16 else D.peek a w
    if !c.lmx then .vals T (c.decode bits) bits
    else
      let s := c.lscale + n / 32
      match judge D env s 1 1 true with
      | .fault vc => .fault vc s
      | .skip => .vals (T.addrErr s) (c.decode 0) 0
      | .poison => poison
      | .ok => .vals T ((c.decode bits).map (mxScaled (D.peek s 1))) bits

/-- A source element. `T0` is the tile as the instruction found it: source registers hold there what the instruction reads, and
where the effects are held back until it completes, so does the tile store (R263, R264). -/
def CC.source (c : CC) (T0 T : Tile) (env : CEnv) (start b n : Nat) : Src :=
  if c.src = 1 then c.fromStore (if T0.holdsBack then T0 else T) T env n
  else
    let v := T0.srcV start b
    .vals T ((List.range c.parts).map (fun i => laneVal c.lfmt c.lfxp v (c.parts * n + i)))
      (lane v (laneW c.lfmt * c.parts) n)

/-- May element `n` be written to the tile store? -/
def CC.judgeDst (c : CC) (T : Tile) (env : CEnv) (n : Nat) : Acc1 :=
  if c.dst = 1 then
    judge T env (elemAddr env.sa.toNat c.qfmt c.parts n) (storeBytes c.qfmt c.parts) (laneW c.qfmt / 8) false
  else .ok

/-- Write the output bits of element `n` of `N`. The unused half of the last byte of an odd count of 4-bit elements is written
as 0 (R164). -/
def CC.write (c : CC) (T : Tile) (env : CEnv) (a N n bits : Nat) : Tile :=
  match c.dst with
  | 0 => T.setV a (setLane (T.vreg a) (laneW c.qfmt * c.parts) n bits)
  | 1 =>
    let at' := elemAddr env.sa.toNat c.qfmt c.parts n
    match c.judgeDst T env n with
    | .skip => T.addrErr at'
    | _ =>
      if fmtBits c.qfmt = 4 then
        T.poke at' 1 (if n % 2 = 0 ∧ n + 1 = N then bits % 16 else setBits (T.peek at' 1) (4 * (n % 2)) 4 bits)
      else T.poke at' (storeBytes c.qfmt c.parts) bits
  | _ => T

/-- Pass values to the roots from a tap (R243, R257). -/
def CC.tap (c : CC) (env : CEnv) (n : Nat) (s : CS) (fmt : Nat) (xs : List Exact) (mulp : Option Int) : CS :=
  if c.red = 0 then s
  else
    let d0 := s.T.deposit c.root env.now (part0 xs)
    let ps := if spreads (part0 xs) then s.ps ++ [(n, mulp.getD (lsbWeight fmt (part0 xs)))] else s.ps
    if c.tan then
      let d1 := d0.1.deposit 1 env.now (part1 xs)
      let ps1 := if spreads (part1 xs) then s.ps1 ++ [(n, lsbWeight fmt (part1 xs))] else s.ps1
      { T := d1.1, fl := s.fl ||| d0.2 ||| d1.2, ps := ps, ps1 := ps1 }
    else { s with T := d0.1, fl := s.fl ||| d0.2, ps := ps }

/-- Write the compare's result of element `n`. -/
def CC.writeK (c : CC) (T : Tile) (n : Nat) (b : Bool) : Tile :=
  if c.kout = 0 ∨ c.cmp = 0 then T else T.setK c.kout (setMaskBits (T.kreg c.kout) c.ew n b)

/-- One element of a chain that does not write MX blocks. -/
def CC.element (c : CC) (cf : CF) (env : CEnv) (T0 : Tile) (start N n : Nat) (s : CS) : ERes :=
  if activeIn (T0.kreg cf.k) c.ew n then
    match c.source T0 s.T env start cf.b n with
    | .fault vc a => .stop n vc a
    | .vals T xs bits =>
      match c.judgeDst T env n with
      | .fault vc => .stop n vc (elemAddr env.sa.toNat c.qfmt c.parts n)
      | _ =>
        let e := c.stages T0 start n (drawsAt T0 env.t start c.draws n) xs bits
        let s1 : CS := { s with T := c.writeK T n e.cmp, fl := s.fl ||| e.fl }
        let s2 := if c.rtap then s1 else c.tap env n s1 c.afmt e.xs e.mulp
        let q := match e.raw with
          | some b => (b, 0)
          | none => roundParts c.qfmt c.qfxp c.qrmode c.qsat e.ws e.xs
        let ys := (List.range c.parts).map (fun i => decodeNum c.qfmt c.qfxp (bitsOf q.1 (i * laneW c.qfmt) (fmtBits c.qfmt)))
        let s3 := if c.rtap then c.tap env n s2 c.qfmt ys none else s2
        .done { s3 with T := c.write s3.T env cf.a N n q.1, fl := s3.fl ||| q.2 }
  else
    let T1 := if T0.vt.mz then c.writeK s.T n false else s.T
    .done { s with T := if T0.vt.mz && c.dst == 0 then c.write T1 env cf.a N n 0 else T1 }

/-- The elements of an MX block up to tap 0: the state, the values and the words left of each, or the fault. -/
def CC.blockIn (c : CC) (cf : CF) (env : CEnv) (T0 : Tile) (start : Nat) :
    List Nat → CS → List (Nat × EV) → Sum (CS × List (Nat × EV)) (Nat × Nat × Nat)
  | [], s, l => .inl (s, l)
  | n :: ns, s, l =>
    match c.source T0 s.T env start cf.b n with
    | .fault vc a => .inr (n, vc, a)
    | .vals T xs bits =>
      match c.judgeDst T env n with
      | .fault vc => .inr (n, vc, elemAddr env.sa.toNat c.qfmt c.parts n)
      | _ =>
        let e := c.stages T0 start n (drawsAt T0 env.t start c.draws n) xs bits
        let s1 : CS := { s with T := c.writeK T n e.cmp, fl := s.fl ||| e.fl }
        c.blockIn cf env T0 start ns (if c.rtap then s1 else c.tap env n s1 c.afmt e.xs e.mulp) (l ++ [(n, e)])

/-- One MX block: quantised under R171 and written with its scale, or stopped whole (R262). -/
def CC.block (c : CC) (cf : CF) (env : CEnv) (T0 : Tile) (start N j : Nat) (s : CS) : ERes :=
  let ns := (idxFrom (max start (32 * j)) (min N (32 * j + 32)))
  match c.blockIn cf env T0 start ns s [] with
  | .inr (n, vc, a) => .stop n vc a
  | .inl (s1, l) =>
    let sa := c.qscale + j
    match judge s1.T env sa 1 1 false with
    | .fault vc => .stop (max start (32 * j)) vc sa
    | jd =>
      let (sc, es, fl) := mxQuantise c.qfmt c.qrmode (l.map (fun p => p.2.ws.headD 0)) (l.map (fun p => part0 p.2.xs))
      let T1 := if jd = .skip then s1.T.addrErr sa else s1.T.poke sa 1 sc
      let s2 : CS := { s1 with T := T1, fl := s1.fl ||| fl }
      .done ((l.zip es).foldl (fun (s : CS) p =>
        let s := if c.rtap then c.tap env p.1.1 s c.qfmt [mxScaled sc (mxElem c.qfmt p.2)] none else s
        { s with T := c.write s.T env cf.a N p.1.1 p.2 }) s2)

/-! ## The instruction -/

/-- Latency of the longest path (R268). An element passes the quantise stage whatever DST is (log entry 25), so that path is
never shorter than that of a compare to KOUT. -/
def CC.latency (c : CC) : Nat :=
  let st := (if c.src = 1 then 4 else 1) + (if c.scl = 0 then 0 else 2) + (if c.fma = 0 then 0 else 4) +
    (if c.func = 0 then 0 else 14) + (if c.cmp = 0 then 0 else 1) + (if c.sel = 0 then 0 else 1)
  max (st + 3 + (match c.dst with
      | 0 => 1
      | 1 => 2
      | _ => 0))
    (if c.red = 0 then 0 else st + 6 + (if c.rtap then 3 else 0))

/-- The lowest rate of the stages used (R267). -/
def CC.rate (c : CC) : Nat :=
  let aw := laneW c.afmt * c.parts
  let l := [if c.src = 1 then 512 / storeBytes c.lfmt c.parts else bitRate (laneW c.lfmt * c.parts), bitRate aw] ++
    (if c.scl = 0 ∧ c.fma = 0 then [] else [(if c.afmt = 11 then 16 else 4096 / laneW c.afmt) / c.parts]) ++
    (if c.func = 0 then [] else [funcRate c.afmt c.parts]) ++
    (if c.red = 0 then [] else [64]) ++
    (match c.dst with
     | 0 => [bitRate (laneW c.qfmt * c.parts)]
     | 1 => [512 / storeBytes c.qfmt c.parts]
     | _ => [])
  l.foldl min 512

/-- The roots a chain starts from (R241, R251). -/
def CC.initRoots (c : CC) (T : Tile) : Tile :=
  if c.red = 0 then T
  else
    let T1 := if c.racc then T.kindRoot c.root (c.red - 1) else T.initRoot c.root (c.red - 1)
    if c.tan then (if c.racc then T1.kindRoot 1 0 else T1.initRoot 1 0) else T1

/-- `vchain` (R243). -/
def vchainBody (cf : CF) : CBody := fun T env start =>
  let c := ccOf T cf
  if c.refused cf.k then .refuse T 6 0
  else
    let n := elems T.vt.vl c.ew
    let s0 : CS := { T := if start = 0 then c.initRoots T else T }
    let r :=
      if c.qmx then
        let q := elemLoop (c.block cf env T start n) (ceilDiv n 32 - start / 32) (start / 32) s0
        (q.1, q.2.map (fun x => (max start (32 * x.1), x.2)))
      else elemLoop (c.element cf env T start n) (n - start) start s0
    let st := if c.red = 1 then max (spreadStalls n r.1.ps) (spreadStalls n r.1.ps1) else 0
    loopRes r c.draws start n (opCycles c.latency n c.rate st) st 0

end Sys2Proof.Machine
end

