-- ==== Sys2Proof/Machine/Chain.lean ====
section
/-!
DEFINITION. The instructions of the vector chain (R238, R241): the roles of their fields, how the C queue runs them, and
what a fault inside one leaves (R261 to R264).
-/
namespace Sys2Proof.Machine

/-! ## Fields (R238) -/

/-- The role of a register field. -/
inductive Role where
  | v | s | k | root | kind | flag | fmt | zero
  deriving DecidableEq, Repr

/-- Is a field's value outside its range? (sub-code 2) -/
def Role.reserved (r : Role) (x : Nat) : Bool :=
  match r with
  | .root | .flag => 1 < x
  | .kind => 3 < x
  | .zero => x != 0
  | .fmt => !vtypeFmts.contains (x % 16)
  | _ => false

/-- Does it name a mask register beyond k7? (sub-code 3) -/
def Role.beyond (r : Role) (x : Nat) : Bool := r == .k && 8 ≤ x

/-- The roles of A, B and C of a MINOR of MAJOR 0x31, and whether K is a mask. -/
def chainRoles (minor : Nat) : Option (Role × Role × Role × Bool) :=
  match minor with
  | 0x0 => some (.s, .s, .s, false)
  | 0x1 => some (.v, .v, .zero, true)
  | 0x2 => some (.v, .s, .zero, true)
  | 0x3 => some (.s, .v, .s, false)
  | 0x4 => some (.v, .s, .s, false)
  | 0x5 => some (.v, .zero, .zero, true)
  | 0x8 => some (.v, .v, .v, true)
  | 0x9 => some (.v, .v, .v, true)
  | 0xa => some (.v, .v, .v, true)
  | 0xb => some (.v, .v, .v, true)
  | 0xc => some (.v, .v, .v, true)
  | 0xd => some (.v, .v, .v, true)
  | 0xe => some (.v, .v, .v, true)
  | 0xf => some (.v, .v, .zero, true)
  | 0x10 => some (.v, .v, .zero, true)
  | 0x11 => some (.v, .v, .zero, true)
  | 0x12 => some (.v, .v, .zero, true)
  | 0x13 => some (.v, .v, .zero, true)
  | 0x14 => some (.v, .v, .zero, true)
  | 0x15 => some (.v, .v, .zero, true)
  | 0x16 => some (.v, .v, .zero, true)
  | 0x17 => some (.v, .v, .zero, true)
  | 0x18 => some (.k, .v, .v, true)
  | 0x19 => some (.k, .v, .v, true)
  | 0x1a => some (.k, .v, .v, true)
  | 0x1b => some (.k, .v, .v, true)
  | 0x1c => some (.k, .v, .v, true)
  | 0x1d => some (.k, .v, .v, true)
  | 0x1e => some (.v, .v, .v, true)
  | 0x20 => some (.k, .k, .k, false)
  | 0x21 => some (.k, .k, .k, false)
  | 0x22 => some (.k, .k, .k, false)
  | 0x23 => some (.k, .k, .zero, false)
  | 0x24 => some (.s, .k, .zero, false)
  | 0x25 => some (.s, .k, .zero, false)
  | 0x28 => some (.v, .v, .v, true)
  | 0x29 => some (.v, .v, .v, true)
  | 0x2a => some (.v, .v, .v, true)
  | 0x2b => some (.v, .v, .v, true)
  | 0x2c => some (.v, .v, .v, true)
  | 0x2d => some (.v, .v, .v, true)
  | 0x38 => some (.v, .v, .v, true)
  | 0x39 => some (.v, .v, .v, true)
  | 0x3a => some (.v, .v, .v, true)
  | 0x3b => some (.v, .v, .v, true)
  | 0x3c => some (.v, .v, .v, true)
  | 0x3d => some (.root, .v, .v, true)
  | 0x40 => some (.root, .v, .zero, true)
  | 0x41 => some (.root, .v, .zero, true)
  | 0x42 => some (.root, .v, .zero, true)
  | 0x43 => some (.root, .v, .zero, true)
  | 0x44 => some (.root, .zero, .kind, false)
  | 0x45 => some (.s, .root, .flag, false)
  | 0x46 => some (.v, .root, .flag, false)
  | 0x47 => some (.s, .root, .s, false)
  | 0x48 => some (.root, .s, .flag, false)
  | 0x50 => some (.v, .s, .zero, true)
  | 0x51 => some (.v, .s, .s, true)
  | 0x52 => some (.v, .s, .zero, true)
  | 0x53 => some (.v, .s, .s, true)
  | 0x54 => some (.v, .s, .v, true)
  | 0x55 => some (.v, .s, .v, true)
  | 0x58 => some (.v, .zero, .zero, true)
  | 0x59 => some (.v, .v, .s, false)
  | _ => if 0x30 ≤ minor && minor ≤ 0x37 then some (.v, .v, .fmt, true) else none

/-- The sub-code of the first reserved field of a base operation (R156, R238). -/
def chainBad (r : Role × Role × Role × Bool) (a b c k : Nat) : Option Nat :=
  let (ra, rb, rc, mask) := r
  firstBad [(ra.reserved a || rb.reserved b || rc.reserved c || !mask && k != 0, 2),
    (ra.beyond a || rb.beyond b || rc.beyond c, 3)]

/-- The scalar registers that the fields name. -/
def chainRegs (r : Role × Role × Role × Bool) (a b c : Nat) : List Nat :=
  (if r.1 = .s then [a] else []) ++ (if r.2.1 = .s then [b] else []) ++ (if r.2.2.1 = .s then [c] else [])

/-! ## In the C queue -/

/-- EXC_INFO of CHAIN (R261). -/
def chainInfo (vcause elem addr : Nat) : Word :=
  BitVec.ofNat 64 (vcause + elem % 2 ^ 10 * 2 ^ 4 + addr % 2 ^ 22 * 2 ^ 14)

/-- What a chain instruction leaves when it completes: its flags, VOP_CYCLES and VOP_STALLS, and VRES cleared (R190,
R264, R279). -/
def Tile.chainDone (T : Tile) (r : CRes) : Tile :=
  let T := T.orFlags vflagsAddr r.fl
  let T := T.setFld F.VOP_CYCLES_CYCLES (satTo 40 r.cycles)
  let T := T.setFld F.VOP_STALLS_SPREAD (satTo 32 r.spread)
  let T := T.setFld F.VOP_STALLS_BANK (satTo 32 r.bank)
  let T := T.setFld F.VRES_VALID 0
  { T.setFld F.VRES_RESTART 0 with cPre := none }

/-- Count the cycles of a chain instruction (R643): spread stalls, bank stalls and the rest. -/
def Tile.chainCycles (T : Tile) (r : CRes) : Tile :=
  ((T.addFld F.C_SPREAD_COUNT r.spread).addFld F.C_BANK_COUNT r.bank).addFld F.C_ACTIVE_COUNT (r.cycles - (r.spread + r.bank))

/-- What a stopped chain instruction leaves: in normal service the elements below the faulting one complete, in the
other operating states only their flags; and VRES (R262, R263). -/
def Tile.chainStop (T : Tile) (a : Nat) (r : CRes) (vcause resume : Nat) : Tile :=
  let before := match T.cPre with
    | some p => p.2.1
    | none => T.vreg a
  let T1 := if T.holdsBack then T else { r.T with cPre := some (a, before, r.T.vreg a) }
  let T2 := { T1.orFlags vflagsAddr r.fl with marked := T1.marked || vcause == 3 }
  let T3 := T2.setFld F.VRES_ELEM resume
  (T3.setFld F.VRES_VALID 1).setFld F.VRES_RESTART (b2n T.holdsBack)

/-! ### What an instruction touches (R106, R107) -/

/-- The mask registers that the fields of a base operation name: whether it writes, the register. -/
def chainMasks (r : Role × Role × Role × Bool) (a b c k : Nat) : List (Bool × Nat) :=
  (if r.1 = .k then [(true, a)] else []) ++ (if r.2.1 = .k then [(false, b)] else []) ++
    (if r.2.2.1 = .k then [(false, c)] else []) ++ (if r.2.2.2 then [(false, k)] else [])

/-- The range from the lowest to the highest of `n` elements of `w` bytes at a stride. -/
def strideRange (write : Bool) (base : Nat) (stride : Int) (n w : Nat) : List (Bool × Nat × Nat) :=
  let far : Int := base + (n - 1 : Nat) * stride
  if n = 0 then [] else [(write, (min (base : Int) far).toNat, (max (base : Int) far + w - min (base : Int) far).toNat)]

/-- The ranges of the tile store that a base operation touches. The addresses of `vgather` and `vscatter` are known only when
it executes, so its range is the store. So are the elements, where an instruction before it in the queue may change VTYPE. -/
def chainRanges (T : Tile) (minor : Nat) (sb sc : Word) : List (Bool × Nat × Nat) :=
  let w := T.vt.ew / 8
  let n := elems T.vt.vl T.vt.ew
  let known := T.cq == []
  let unit := fun (write : Bool) => if known then strideRange write sb.toNat w n w else [(write, sb.toNat, 512)]
  let strided := fun (write : Bool) => if known then strideRange write sb.toNat sc.toInt n w else [(write, 0, storeEnd)]
  match minor with
  | 0x47 => [(true, sc.toNat, 544)]
  | 0x48 => [(false, sb.toNat, 544)]
  | 0x50 => unit false
  | 0x51 => strided false
  | 0x52 => unit true
  | 0x53 => strided true
  | 0x54 => [(false, 0, storeEnd)]
  | 0x55 => [(true, 0, storeEnd)]
  | _ => []

/-- The ranges of a configured chain; where an instruction before it in the queue may change VTYPE, those of the most elements
that fit. -/
def vchainRanges (T : Tile) (cf : CF) (sa sb : Word) : List (Bool × Nat × Nat) :=
  let c := ccOf T cf
  let known := T.cq == []
  let n := if known then elems T.vt.vl c.ew else 512
  let parts := if known then c.parts else 2
  (if c.src = 1 then (false, sb.toNat, n * storeBytes c.lfmt parts) ::
    (if c.lmx then [(false, c.lscale, ceilDiv n 32)] else []) else []) ++
  (if c.dst = 1 then (true, sa.toNat, n * storeBytes c.qfmt parts) ::
    (if c.qmx then [(true, c.qscale, ceilDiv n 32)] else []) else [])

/-- The element width of a chain instruction, by its words (R235); of one that reads and writes no lanes, that of VTYPE. -/
def ewOf (T : Tile) (w0 w1 : Nat) : Nat :=
  let v := T.vt
  let minor := w0 % 256
  if w0 / 2 ^ 26 % 64 = 0x32 then
    (ccOf T ⟨0, 0, 0, 0, minor % 32, w1⟩).ew
  else
    match minor with
    | 0x38 | 0x39 | 0x3a | 0x3b | 0x3c => laneW (wideFmt v.fmt)
    | 0x54 | 0x55 => max v.ew 32
    | 0x58 => 32
    | _ => if 0x30 ≤ minor && minor ≤ 0x37 then max (laneW (bitsOf w0 11 4)) (laneW v.fmt) * v.parts else v.ew

/-- Run a chain instruction in the C queue. One that is re-issued starts at VRES.ELEM unless VRES.RESTART says from element 0;
where ELEM is N or more it completes with no effect (R264). -/
def runChain (t now : Nat) (cf : CF) (body : CBody) (T : Tile) (e : QEntry) : QRes :=
  let resumed := e.again && T.fld F.VRES_RESTART == 0
  let start := if resumed then T.fld F.VRES_ELEM else 0
  let r := if resumed && elems T.vt.vl (ewOf T e.w0 e.w1) ≤ start then { T := T }
    else body T ⟨t, now, e.sa, e.sb, e.sc, none⟩ start
  match r.fault with
  | none =>
    let T1 := match r.sout with
      | some w => r.T.setS cf.a w
      | none => r.T
    .ok ((T1.chainDone r).chainCycles r)
  | some (vc, elem, addr, resume) => .fault (T.chainStop cf.a r vc resume) 0x11 (chainInfo vc elem addr)

/-- A base operation of the chain (MAJOR 0x31). -/
def Tile.chainOp (T : Tile) (t now : Nat) (i : Instr) (f : F3) (minor p : Nat) (body : CF → CBody) : Tile :=
  let cf : CF := ⟨f.a.toNat, f.b.toNat, f.c.toNat, f.k.toNat, p, 0⟩
  match chainRoles minor with
  | none => T
  | some r =>
    T.queueOp 3 4 (chainRegs r cf.a cf.b cf.c)
      (T.entry i (F3w f 0x31 minor) 0 (T.sreg cf.a) (T.sreg cf.b) (T.sreg cf.c) 0 (if r.1 = .s then cf.a else 0)
        (chainRanges T minor (T.sreg cf.b) (T.sreg cf.c)) (chainMasks r cf.a cf.b cf.c cf.k))
      false (chainBad r cf.a cf.b cf.c cf.k) noCheck (runChain t now cf (body cf))

/-- The body of `vadd`. -/
def vaddBody (cf : CF) : CBody := arithBody .arith 0x08 cf
/-- The body of `vsub`. -/
def vsubBody (cf : CF) : CBody := arithBody .arith 0x09 cf
/-- The body of `vmul`. -/
def vmulBody (cf : CF) : CBody := arithBody .arith 0x0A cf
/-- The body of `vfma`. -/
def vfmaBody (cf : CF) : CBody := arithBody .fma 0x0B cf
/-- The body of `vfnma`. -/
def vfnmaBody (cf : CF) : CBody := arithBody .fma 0x0C cf
/-- The body of `vmin`. -/
def vminBody (cf : CF) : CBody := minMaxBody false cf
/-- The body of `vmax`. -/
def vmaxBody (cf : CF) : CBody := minMaxBody true cf
/-- The body of `vrecip`. -/
def vrecipBody (cf : CF) : CBody := funcBody 4 cf
/-- The body of `vrsqrt`. -/
def vrsqrtBody (cf : CF) : CBody := funcBody 3 cf
/-- The body of `vexp`. -/
def vexpBody (cf : CF) : CBody := funcBody 1 cf
/-- The body of `vlog`. -/
def vlogBody (cf : CF) : CBody := funcBody 2 cf
/-- The body of `vsin`. -/
def vsinBody (cf : CF) : CBody := funcBody 5 cf
/-- The body of `vcos`. -/
def vcosBody (cf : CF) : CBody := funcBody 6 cf
/-- The body of `vtanh`. -/
def vtanhBody (cf : CF) : CBody := funcBody 7 cf
/-- The body of `vceq`. -/
def vceqBody (cf : CF) : CBody := compareBody 1 cf
/-- The body of `vcne`. -/
def vcneBody (cf : CF) : CBody := compareBody 2 cf
/-- The body of `vclt`. -/
def vcltBody (cf : CF) : CBody := compareBody 3 cf
/-- The body of `vcle`. -/
def vcleBody (cf : CF) : CBody := compareBody 4 cf
/-- The body of `vcgt`. -/
def vcgtBody (cf : CF) : CBody := compareBody 5 cf
/-- The body of `vcge`. -/
def vcgeBody (cf : CF) : CBody := compareBody 6 cf
/-- The body of `kand`. -/
def kandBody (cf : CF) : CBody := maskBody cf (fun b c => b &&& c)
/-- The body of `kor`. -/
def korBody (cf : CF) : CBody := maskBody cf (fun b c => b ||| c)
/-- The body of `kxor`. -/
def kxorBody (cf : CF) : CBody := maskBody cf (fun b c => b ^^^ c)
/-- The body of `knot`. -/
def knotBody (cf : CF) : CBody := maskBody cf (fun b _ => ~~~b)
/-- The body of `vwmul`. -/
def vwmulBody (cf : CF) : CBody := widenBody false false cf
/-- The body of `vwmulh`. -/
def vwmulhBody (cf : CF) : CBody := widenBody true false cf
/-- The body of `vwfma`. -/
def vwfmaBody (cf : CF) : CBody := widenBody false true cf
/-- The body of `vwfmah`. -/
def vwfmahBody (cf : CF) : CBody := widenBody true true cf
/-- The body of `vredsum`. -/
def vredsumBody (cf : CF) : CBody := reduceBody 0 cf
/-- The body of `vredmax`. -/
def vredmaxBody (cf : CF) : CBody := reduceBody 1 cf
/-- The body of `vredmin`. -/
def vredminBody (cf : CF) : CBody := reduceBody 2 cf
/-- The body of `vredamax`. -/
def vredamaxBody (cf : CF) : CBody := reduceBody 3 cf

/-- The body of a MINOR of MAJOR 0x31, for a tile program (R286). -/
def chainBodyOf (minor : Nat) (cf : CF) : Option CBody :=
  match minor with
  | 0x0 => some (vsetvlBody cf)
  | 0x1 => some (vmvBody cf)
  | 0x2 => some (vbcastBody cf)
  | 0x3 => some (vextrBody cf)
  | 0x4 => some (vinsBody cf)
  | 0x5 => some (vidxBody cf)
  | 0x8 => some (vaddBody cf)
  | 0x9 => some (vsubBody cf)
  | 0xa => some (vmulBody cf)
  | 0xb => some (vfmaBody cf)
  | 0xc => some (vfnmaBody cf)
  | 0xd => some (vminBody cf)
  | 0xe => some (vmaxBody cf)
  | 0xf => some (vabsBody cf)
  | 0x10 => some (vnegBody cf)
  | 0x11 => some (vrecipBody cf)
  | 0x12 => some (vrsqrtBody cf)
  | 0x13 => some (vexpBody cf)
  | 0x14 => some (vlogBody cf)
  | 0x15 => some (vsinBody cf)
  | 0x16 => some (vcosBody cf)
  | 0x17 => some (vtanhBody cf)
  | 0x18 => some (vceqBody cf)
  | 0x19 => some (vcneBody cf)
  | 0x1a => some (vcltBody cf)
  | 0x1b => some (vcleBody cf)
  | 0x1c => some (vcgtBody cf)
  | 0x1d => some (vcgeBody cf)
  | 0x1e => some (vselBody cf)
  | 0x20 => some (kandBody cf)
  | 0x21 => some (korBody cf)
  | 0x22 => some (kxorBody cf)
  | 0x23 => some (knotBody cf)
  | 0x24 => some (kpopBody cf)
  | 0x25 => some (kfirstBody cf)
  | 0x28 => some (vshlBody cf)
  | 0x29 => some (vshrBody cf)
  | 0x2a => some (vsarBody cf)
  | 0x2b => some (vandBody cf)
  | 0x2c => some (vorBody cf)
  | 0x2d => some (vxorBody cf)
  | 0x38 => some (vwmulBody cf)
  | 0x39 => some (vwmulhBody cf)
  | 0x3a => some (vwfmaBody cf)
  | 0x3b => some (vwfmahBody cf)
  | 0x3c => some (vdotBody cf)
  | 0x3d => some (vreddotBody cf)
  | 0x40 => some (vredsumBody cf)
  | 0x41 => some (vredmaxBody cf)
  | 0x42 => some (vredminBody cf)
  | 0x43 => some (vredamaxBody cf)
  | 0x44 => some (vrclrBody cf)
  | 0x45 => some (vrdrainBody cf)
  | 0x46 => some (vrdrainvBody cf)
  | 0x47 => some (vrexportBody cf)
  | 0x48 => some (vrimportBody cf)
  | 0x50 => some (vldBody cf)
  | 0x51 => some (vldsBody cf)
  | 0x52 => some (vstBody cf)
  | 0x53 => some (vstsBody cf)
  | 0x54 => some (vgatherBody cf)
  | 0x55 => some (vscatterBody cf)
  | 0x58 => some (vrandBody cf)
  | 0x59 => some (vphiloxBody cf)
  | _ => if 0x30 ≤ minor && minor ≤ 0x37 then some (cvtBody { cf with p := minor - 0x30 }) else none

/-! ## Meanings -/

/-- `vsetvl` (R236). -/
def execVsetvl (t : TileIx) (f : F3) (s : State) : Host.Outcome State Fault Refusal :=
  .next (s.onTile t (fun T => T.chainOp t (s.tileCycle t) (.vsetvl t f) f 0x0 0 vsetvlBody))

/-- `vmv` (R238). -/
def execVmv (t : TileIx) (f : F3) (s : State) : Host.Outcome State Fault Refusal :=
  .next (s.onTile t (fun T => T.chainOp t (s.tileCycle t) (.vmv t f) f 0x1 0 vmvBody))

/-- `vbcast` (R238). -/
def execVbcast (t : TileIx) (f : F3) (s : State) : Host.Outcome State Fault Refusal :=
  .next (s.onTile t (fun T => T.chainOp t (s.tileCycle t) (.vbcast t f) f 0x2 0 vbcastBody))

/-- `vextr` (R238). -/
def execVextr (t : TileIx) (f : F3) (s : State) : Host.Outcome State Fault Refusal :=
  .next (s.onTile t (fun T => T.chainOp t (s.tileCycle t) (.vextr t f) f 0x3 0 vextrBody))

/-- `vins` (R238). -/
def execVins (t : TileIx) (f : F3) (s : State) : Host.Outcome State Fault Refusal :=
  .next (s.onTile t (fun T => T.chainOp t (s.tileCycle t) (.vins t f) f 0x4 0 vinsBody))

/-- `vidx` (R238). -/
def execVidx (t : TileIx) (f : F3) (s : State) : Host.Outcome State Fault Refusal :=
  .next (s.onTile t (fun T => T.chainOp t (s.tileCycle t) (.vidx t f) f 0x5 0 vidxBody))

/-- `vadd` (R238). -/
def execVadd (t : TileIx) (f : F3) (s : State) : Host.Outcome State Fault Refusal :=
  .next (s.onTile t (fun T => T.chainOp t (s.tileCycle t) (.vadd t f) f 0x8 0 vaddBody))

/-- `vsub` (R238). -/
def execVsub (t : TileIx) (f : F3) (s : State) : Host.Outcome State Fault Refusal :=
  .next (s.onTile t (fun T => T.chainOp t (s.tileCycle t) (.vsub t f) f 0x9 0 vsubBody))

/-- `vmul` (R238). -/
def execVmul (t : TileIx) (f : F3) (s : State) : Host.Outcome State Fault Refusal :=
  .next (s.onTile t (fun T => T.chainOp t (s.tileCycle t) (.vmul t f) f 0xa 0 vmulBody))

/-- `vfma` (R238). -/
def execVfma (t : TileIx) (f : F3) (s : State) : Host.Outcome State Fault Refusal :=
  .next (s.onTile t (fun T => T.chainOp t (s.tileCycle t) (.vfma t f) f 0xb 0 vfmaBody))

/-- `vfnma` (R238). -/
def execVfnma (t : TileIx) (f : F3) (s : State) : Host.Outcome State Fault Refusal :=
  .next (s.onTile t (fun T => T.chainOp t (s.tileCycle t) (.vfnma t f) f 0xc 0 vfnmaBody))

/-- `vmin` (R238). -/
def execVmin (t : TileIx) (f : F3) (s : State) : Host.Outcome State Fault Refusal :=
  .next (s.onTile t (fun T => T.chainOp t (s.tileCycle t) (.vmin t f) f 0xd 0 vminBody))

/-- `vmax` (R238). -/
def execVmax (t : TileIx) (f : F3) (s : State) : Host.Outcome State Fault Refusal :=
  .next (s.onTile t (fun T => T.chainOp t (s.tileCycle t) (.vmax t f) f 0xe 0 vmaxBody))

/-- `vabs` (R238). -/
def execVabs (t : TileIx) (f : F3) (s : State) : Host.Outcome State Fault Refusal :=
  .next (s.onTile t (fun T => T.chainOp t (s.tileCycle t) (.vabs t f) f 0xf 0 vabsBody))

/-- `vneg` (R238). -/
def execVneg (t : TileIx) (f : F3) (s : State) : Host.Outcome State Fault Refusal :=
  .next (s.onTile t (fun T => T.chainOp t (s.tileCycle t) (.vneg t f) f 0x10 0 vnegBody))

/-- `vrecip` (R238). -/
def execVrecip (t : TileIx) (f : F3) (s : State) : Host.Outcome State Fault Refusal :=
  .next (s.onTile t (fun T => T.chainOp t (s.tileCycle t) (.vrecip t f) f 0x11 0 vrecipBody))

/-- `vrsqrt` (R238). -/
def execVrsqrt (t : TileIx) (f : F3) (s : State) : Host.Outcome State Fault Refusal :=
  .next (s.onTile t (fun T => T.chainOp t (s.tileCycle t) (.vrsqrt t f) f 0x12 0 vrsqrtBody))

/-- `vexp` (R238). -/
def execVexp (t : TileIx) (f : F3) (s : State) : Host.Outcome State Fault Refusal :=
  .next (s.onTile t (fun T => T.chainOp t (s.tileCycle t) (.vexp t f) f 0x13 0 vexpBody))

/-- `vlog` (R238). -/
def execVlog (t : TileIx) (f : F3) (s : State) : Host.Outcome State Fault Refusal :=
  .next (s.onTile t (fun T => T.chainOp t (s.tileCycle t) (.vlog t f) f 0x14 0 vlogBody))

/-- `vsin` (R238). -/
def execVsin (t : TileIx) (f : F3) (s : State) : Host.Outcome State Fault Refusal :=
  .next (s.onTile t (fun T => T.chainOp t (s.tileCycle t) (.vsin t f) f 0x15 0 vsinBody))

/-- `vcos` (R238). -/
def execVcos (t : TileIx) (f : F3) (s : State) : Host.Outcome State Fault Refusal :=
  .next (s.onTile t (fun T => T.chainOp t (s.tileCycle t) (.vcos t f) f 0x16 0 vcosBody))

/-- `vtanh` (R238). -/
def execVtanh (t : TileIx) (f : F3) (s : State) : Host.Outcome State Fault Refusal :=
  .next (s.onTile t (fun T => T.chainOp t (s.tileCycle t) (.vtanh t f) f 0x17 0 vtanhBody))

/-- `vceq` (R238). -/
def execVceq (t : TileIx) (f : F3) (s : State) : Host.Outcome State Fault Refusal :=
  .next (s.onTile t (fun T => T.chainOp t (s.tileCycle t) (.vceq t f) f 0x18 0 vceqBody))

/-- `vcne` (R238). -/
def execVcne (t : TileIx) (f : F3) (s : State) : Host.Outcome State Fault Refusal :=
  .next (s.onTile t (fun T => T.chainOp t (s.tileCycle t) (.vcne t f) f 0x19 0 vcneBody))

/-- `vclt` (R238). -/
def execVclt (t : TileIx) (f : F3) (s : State) : Host.Outcome State Fault Refusal :=
  .next (s.onTile t (fun T => T.chainOp t (s.tileCycle t) (.vclt t f) f 0x1a 0 vcltBody))

/-- `vcle` (R238). -/
def execVcle (t : TileIx) (f : F3) (s : State) : Host.Outcome State Fault Refusal :=
  .next (s.onTile t (fun T => T.chainOp t (s.tileCycle t) (.vcle t f) f 0x1b 0 vcleBody))

/-- `vcgt` (R238). -/
def execVcgt (t : TileIx) (f : F3) (s : State) : Host.Outcome State Fault Refusal :=
  .next (s.onTile t (fun T => T.chainOp t (s.tileCycle t) (.vcgt t f) f 0x1c 0 vcgtBody))

/-- `vcge` (R238). -/
def execVcge (t : TileIx) (f : F3) (s : State) : Host.Outcome State Fault Refusal :=
  .next (s.onTile t (fun T => T.chainOp t (s.tileCycle t) (.vcge t f) f 0x1d 0 vcgeBody))

/-- `vsel` (R238). -/
def execVsel (t : TileIx) (f : F3) (s : State) : Host.Outcome State Fault Refusal :=
  .next (s.onTile t (fun T => T.chainOp t (s.tileCycle t) (.vsel t f) f 0x1e 0 vselBody))

/-- `kand` (R238). -/
def execKand (t : TileIx) (f : F3) (s : State) : Host.Outcome State Fault Refusal :=
  .next (s.onTile t (fun T => T.chainOp t (s.tileCycle t) (.kand t f) f 0x20 0 kandBody))

/-- `kor` (R238). -/
def execKor (t : TileIx) (f : F3) (s : State) : Host.Outcome State Fault Refusal :=
  .next (s.onTile t (fun T => T.chainOp t (s.tileCycle t) (.kor t f) f 0x21 0 korBody))

/-- `kxor` (R238). -/
def execKxor (t : TileIx) (f : F3) (s : State) : Host.Outcome State Fault Refusal :=
  .next (s.onTile t (fun T => T.chainOp t (s.tileCycle t) (.kxor t f) f 0x22 0 kxorBody))

/-- `knot` (R238). -/
def execKnot (t : TileIx) (f : F3) (s : State) : Host.Outcome State Fault Refusal :=
  .next (s.onTile t (fun T => T.chainOp t (s.tileCycle t) (.knot t f) f 0x23 0 knotBody))

/-- `kpop` (R238). -/
def execKpop (t : TileIx) (f : F3) (s : State) : Host.Outcome State Fault Refusal :=
  .next (s.onTile t (fun T => T.chainOp t (s.tileCycle t) (.kpop t f) f 0x24 0 kpopBody))

/-- `kfirst` (R238). -/
def execKfirst (t : TileIx) (f : F3) (s : State) : Host.Outcome State Fault Refusal :=
  .next (s.onTile t (fun T => T.chainOp t (s.tileCycle t) (.kfirst t f) f 0x25 0 kfirstBody))

/-- `vshl` (R238). -/
def execVshl (t : TileIx) (f : F3) (s : State) : Host.Outcome State Fault Refusal :=
  .next (s.onTile t (fun T => T.chainOp t (s.tileCycle t) (.vshl t f) f 0x28 0 vshlBody))

/-- `vshr` (R238). -/
def execVshr (t : TileIx) (f : F3) (s : State) : Host.Outcome State Fault Refusal :=
  .next (s.onTile t (fun T => T.chainOp t (s.tileCycle t) (.vshr t f) f 0x29 0 vshrBody))

/-- `vsar` (R238). -/
def execVsar (t : TileIx) (f : F3) (s : State) : Host.Outcome State Fault Refusal :=
  .next (s.onTile t (fun T => T.chainOp t (s.tileCycle t) (.vsar t f) f 0x2a 0 vsarBody))

/-- `vand` (R238). -/
def execVand (t : TileIx) (f : F3) (s : State) : Host.Outcome State Fault Refusal :=
  .next (s.onTile t (fun T => T.chainOp t (s.tileCycle t) (.vand t f) f 0x2b 0 vandBody))

/-- `vor` (R238). -/
def execVor (t : TileIx) (f : F3) (s : State) : Host.Outcome State Fault Refusal :=
  .next (s.onTile t (fun T => T.chainOp t (s.tileCycle t) (.vor t f) f 0x2c 0 vorBody))

/-- `vxor` (R238). -/
def execVxor (t : TileIx) (f : F3) (s : State) : Host.Outcome State Fault Refusal :=
  .next (s.onTile t (fun T => T.chainOp t (s.tileCycle t) (.vxor t f) f 0x2d 0 vxorBody))

/-- `vwmul` (R238). -/
def execVwmul (t : TileIx) (f : F3) (s : State) : Host.Outcome State Fault Refusal :=
  .next (s.onTile t (fun T => T.chainOp t (s.tileCycle t) (.vwmul t f) f 0x38 0 vwmulBody))

/-- `vwmulh` (R238). -/
def execVwmulh (t : TileIx) (f : F3) (s : State) : Host.Outcome State Fault Refusal :=
  .next (s.onTile t (fun T => T.chainOp t (s.tileCycle t) (.vwmulh t f) f 0x39 0 vwmulhBody))

/-- `vwfma` (R238). -/
def execVwfma (t : TileIx) (f : F3) (s : State) : Host.Outcome State Fault Refusal :=
  .next (s.onTile t (fun T => T.chainOp t (s.tileCycle t) (.vwfma t f) f 0x3a 0 vwfmaBody))

/-- `vwfmah` (R238). -/
def execVwfmah (t : TileIx) (f : F3) (s : State) : Host.Outcome State Fault Refusal :=
  .next (s.onTile t (fun T => T.chainOp t (s.tileCycle t) (.vwfmah t f) f 0x3b 0 vwfmahBody))

/-- `vdot` (R238). -/
def execVdot (t : TileIx) (f : F3) (s : State) : Host.Outcome State Fault Refusal :=
  .next (s.onTile t (fun T => T.chainOp t (s.tileCycle t) (.vdot t f) f 0x3c 0 vdotBody))

/-- `vreddot` (R238). -/
def execVreddot (t : TileIx) (f : F3) (s : State) : Host.Outcome State Fault Refusal :=
  .next (s.onTile t (fun T => T.chainOp t (s.tileCycle t) (.vreddot t f) f 0x3d 0 vreddotBody))

/-- `vredsum` (R238). -/
def execVredsum (t : TileIx) (f : F3) (s : State) : Host.Outcome State Fault Refusal :=
  .next (s.onTile t (fun T => T.chainOp t (s.tileCycle t) (.vredsum t f) f 0x40 0 vredsumBody))

/-- `vredmax` (R238). -/
def execVredmax (t : TileIx) (f : F3) (s : State) : Host.Outcome State Fault Refusal :=
  .next (s.onTile t (fun T => T.chainOp t (s.tileCycle t) (.vredmax t f) f 0x41 0 vredmaxBody))

/-- `vredmin` (R238). -/
def execVredmin (t : TileIx) (f : F3) (s : State) : Host.Outcome State Fault Refusal :=
  .next (s.onTile t (fun T => T.chainOp t (s.tileCycle t) (.vredmin t f) f 0x42 0 vredminBody))

/-- `vredamax` (R238). -/
def execVredamax (t : TileIx) (f : F3) (s : State) : Host.Outcome State Fault Refusal :=
  .next (s.onTile t (fun T => T.chainOp t (s.tileCycle t) (.vredamax t f) f 0x43 0 vredamaxBody))

/-- `vrclr` (R238). -/
def execVrclr (t : TileIx) (f : F3) (s : State) : Host.Outcome State Fault Refusal :=
  .next (s.onTile t (fun T => T.chainOp t (s.tileCycle t) (.vrclr t f) f 0x44 0 vrclrBody))

/-- `vrdrain` (R238). -/
def execVrdrain (t : TileIx) (f : F3) (s : State) : Host.Outcome State Fault Refusal :=
  .next (s.onTile t (fun T => T.chainOp t (s.tileCycle t) (.vrdrain t f) f 0x45 0 vrdrainBody))

/-- `vrdrainv` (R238). -/
def execVrdrainv (t : TileIx) (f : F3) (s : State) : Host.Outcome State Fault Refusal :=
  .next (s.onTile t (fun T => T.chainOp t (s.tileCycle t) (.vrdrainv t f) f 0x46 0 vrdrainvBody))

/-- `vrexport` (R238). -/
def execVrexport (t : TileIx) (f : F3) (s : State) : Host.Outcome State Fault Refusal :=
  .next (s.onTile t (fun T => T.chainOp t (s.tileCycle t) (.vrexport t f) f 0x47 0 vrexportBody))

/-- `vrimport` (R238). -/
def execVrimport (t : TileIx) (f : F3) (s : State) : Host.Outcome State Fault Refusal :=
  .next (s.onTile t (fun T => T.chainOp t (s.tileCycle t) (.vrimport t f) f 0x48 0 vrimportBody))

/-- `vld` (R238). -/
def execVld (t : TileIx) (f : F3) (s : State) : Host.Outcome State Fault Refusal :=
  .next (s.onTile t (fun T => T.chainOp t (s.tileCycle t) (.vld t f) f 0x50 0 vldBody))

/-- `vlds` (R238). -/
def execVlds (t : TileIx) (f : F3) (s : State) : Host.Outcome State Fault Refusal :=
  .next (s.onTile t (fun T => T.chainOp t (s.tileCycle t) (.vlds t f) f 0x51 0 vldsBody))

/-- `vst` (R238). -/
def execVst (t : TileIx) (f : F3) (s : State) : Host.Outcome State Fault Refusal :=
  .next (s.onTile t (fun T => T.chainOp t (s.tileCycle t) (.vst t f) f 0x52 0 vstBody))

/-- `vsts` (R238). -/
def execVsts (t : TileIx) (f : F3) (s : State) : Host.Outcome State Fault Refusal :=
  .next (s.onTile t (fun T => T.chainOp t (s.tileCycle t) (.vsts t f) f 0x53 0 vstsBody))

/-- `vgather` (R238). -/
def execVgather (t : TileIx) (f : F3) (s : State) : Host.Outcome State Fault Refusal :=
  .next (s.onTile t (fun T => T.chainOp t (s.tileCycle t) (.vgather t f) f 0x54 0 vgatherBody))

/-- `vscatter` (R238). -/
def execVscatter (t : TileIx) (f : F3) (s : State) : Host.Outcome State Fault Refusal :=
  .next (s.onTile t (fun T => T.chainOp t (s.tileCycle t) (.vscatter t f) f 0x55 0 vscatterBody))

/-- `vrand` (R238). -/
def execVrand (t : TileIx) (f : F3) (s : State) : Host.Outcome State Fault Refusal :=
  .next (s.onTile t (fun T => T.chainOp t (s.tileCycle t) (.vrand t f) f 0x58 0 vrandBody))

/-- `vphilox` (R238). -/
def execVphilox (t : TileIx) (f : F3) (s : State) : Host.Outcome State Fault Refusal :=
  .next (s.onTile t (fun T => T.chainOp t (s.tileCycle t) (.vphilox t f) f 0x59 0 vphiloxBody))

/-- `cvt` (R240): `p` is MINOR[2:0]. -/
def execCvt (t : TileIx) (f : F3) (p : BitVec 3) (s : State) : Host.Outcome State Fault Refusal :=
  .next (s.onTile t (fun T => T.chainOp t (s.tileCycle t) (.cvt t f p) f (0x30 + p.toNat) p.toNat cvtBody))

/-- `vchain` (R241, R243): `minor` is MINOR[4:0]. SRC 2 and 3 and DST 3 are undefined. -/
def execVchain (t : TileIx) (f : FX) (minor : BitVec 5) (s : State) : Host.Outcome State Fault Refusal :=
  .next (s.onTile t (fun T =>
    let cf : CF := ⟨f.a.toNat, f.b.toNat, f.c.toNat, f.k.toNat, minor.toNat, f.w1.toNat⟩
    T.queueOp 3 8 ((if cf.p % 4 = 1 then [cf.b] else []) ++ (if cf.p / 4 % 4 = 1 then [cf.a] else []))
      (T.entry (.vchain t f minor) (FXw f 0x32 minor.toNat) f.w1.toNat (T.sreg cf.a) (T.sreg cf.b) 0 0 0
        (vchainRanges T cf (T.sreg cf.a) (T.sreg cf.b)) [(false, cf.k), (true, bitsOf cf.w1 28 3)])
      false (firstBad [(1 < cf.p % 4 || cf.p / 4 % 4 == 3, 1), (cf.c != 0, 2)]) noCheck
      (runChain t (s.tileCycle t) cf (vchainBody cf))))

end Sys2Proof.Machine
end

