-- ==== Sys2Proof/Machine/Words.lean ====
section
/-!
DEFINITION. Instruction words (R115 to R120, R156): what MAJOR says of a word, and the first of the fault rows of R156 that the
word meets by itself.
-/
namespace Sys2Proof.Machine

/-- Is a MAJOR defined? (R117) -/
def majorDefined (m : Nat) : Bool :=
  1 ≤ m && m ≤ 0x0B || 0x10 ≤ m && m ≤ 0x16 || 0x18 ≤ m && m ≤ 0x1B || 0x20 ≤ m && m ≤ 0x2B || 0x30 ≤ m && m ≤ 0x35
/-- Is it an extended form? (R117) -/
def majorExtended (m : Nat) : Bool := m == 0x30 || m == 0x32 || m == 0x34

/-- The MAJOR of a word. -/
def majorOf (w : Nat) : Nat := w / 2 ^ 26 % 64
/-- The fields A, B, C and K of a word of layout F3, with MINOR. -/
def fieldsOf (w : Nat) : Nat × Nat × Nat × Nat × Nat := (bitsOf w 21 5, bitsOf w 16 5, bitsOf w 11 5, bitsOf w 8 3, w % 256)
/-- The length of the instruction that a word begins, in bytes: MAJOR alone decides it (R115). -/
def wordLen (w : Nat) : Nat := if majorExtended (majorOf w) then 8 else 4

/-- The MINOR values that a MAJOR of layout F3 or FX defines (R118 to R120, R132, R209, R238, R241, R288, R320, R388). -/
def minorDefined (major minor : Nat) : Bool :=
  match major with
  | 0x01 => minor ≤ 0x0D || 0x10 ≤ minor && minor ≤ 0x12 || 0x14 ≤ minor && minor ≤ 0x1A
  | 0x28 => 1 ≤ minor && minor ≤ 6
  | 0x2B => minor ≤ 1 || 0x10 ≤ minor && minor ≤ 0x18 || minor == 0x20 || minor == 0x21
  | 0x30 => minor ≤ 6 || minor == 8
  | 0x31 => (chainRoles minor).isSome
  | 0x32 => if minor < 32 then minor % 4 ≤ 1 && minor / 4 % 4 != 3 else 0x40 ≤ minor && minor ≤ 0x44
  | 0x33 => minor ≤ 6
  | 0x34 => minor == 0 || minor == 0x10 || minor == 0x11 || minor == 0x20
  | 0x35 => minor ≤ 3
  | _ => true

/-- The bits of word 1 that a matrix instruction uses, and whether C names a register (R209). -/
def matrixBits (minor : Nat) : List Nat × Bool :=
  match minor with
  | 0 | 8 => ([0, 1, 2], false)
  | 1 => ([2], false)
  | 3 => ([2], true)
  | 4 | 5 => ([0], false)
  | 6 => ([3], false)
  | _ => ([], false)

/-- A field that must be 0, or a reserved value in one, by MAJOR. -/
def fieldBad (w w1 : Nat) : Bool :=
  let (a, b, c, k, minor) := fieldsOf w
  let imm := w % 2 ^ 16
  match majorOf w with
  | 0x01 => k != 0 || 0x18 ≤ minor && c != 0
  | 0x06 => imm / 256 != 0
  | 0x28 =>
    b != 0 || c != 0 || k != 0 ||
      (if minor = 2 then a / 8 != 0 || a == 0 else minor != 4 && a != 0)
  | 0x29 => a != 0 || imm / 4 != 0 || imm == 3
  | 0x2A => imm / 4096 == 0 && b != 0
  | 0x2B => k != 0 || minor == 0 && c != 0
  | 0x30 =>
    let q := matrixBits minor
    b != 0 || !q.2 && c != 0 || k != 0 || (minor == 0 || minor == 8) && bitOf w1 2 && !bitOf w1 1 ||
      (List.range 32).any (fun j => w1.testBit j && !q.1.contains j)
  | 0x31 => (chainRoles minor).any (fun r => chainBad r a b c k == some 2)
  | 0x32 =>
    if minor < 32 then c != 0
    else
      match minor with
      | 0x40 => k != 0 || w1 != 0
      | 0x41 => b != 0 || c != 0 || w1 / 64 != 0
      | 0x42 => 1 < a || b != 0 || k != 0 || 3 < c || w1 / 4 != 0
      | 0x43 => 1 < b || c != 0 || !mxFmt (w1 % 16) || w1 / 2 ^ 10 != 0
      | _ => a != 0 || b != 0 || c != 0 || k != 0 || w1 != 0
  | 0x33 => c != 0 || k != 0
  | 0x34 =>
    3 ≤ k || !bitOf w1 12 && bitsOf w1 0 12 != 0 ||
      (match minor with
       | 0x00 => k != 0 || bitOf w1 14 || bitsOf w1 15 17 == 0
       | 0x10 => k != 0 || bitOf w1 19 || bitsOf w1 20 12 == 0
       | 0x11 => k != 0 || w1 != 0
       | _ => k == 0 || bitsOf w1 18 14 != 0)
  | 0x35 => c != 0 || k != 0
  | _ => false

/-- A register index beyond its file, by MAJOR. -/
def indexBad (w : Nat) : Bool :=
  let (a, b, c, k, minor) := fieldsOf w
  match majorOf w with
  | 0x30 => 16 ≤ a
  | 0x31 => (chainRoles minor).any (fun r => chainBad r a b c k == some 3)
  | 0x35 => (if minor < 2 then 16 else 8) ≤ a
  | _ => false

/-- The ILLEGAL sub-code that a word raises by itself: the first of the first four rows of R156 that applies. Word 1 of a base
word is not looked at. -/
def wordBad (w w1 : Nat) : Option Nat :=
  let m := majorOf w
  firstBad [(!majorDefined m, 0), (!minorDefined m (w % 256) || m == 0x2A && 4 ≤ w % 2 ^ 16 / 4096, 1), (fieldBad w w1, 2),
    (indexBad w, 3)]

end Sys2Proof.Machine
end

