-- ==== Sys2Proof/Machine/ProgCheck.lean ====
section
/-!
DEFINITION. The checks of a tile program trigger (R285 to R288, R294, R295).
-/
namespace Sys2Proof.Machine

/-- The header of a program (R285). -/
structure Header where
  len : Nat
  pre : Nat
  g : Nat
  epilogue : Bool
  iter : Nat
  rest : Nat
  deriving DecidableEq, Repr

/-- The header at a local address. -/
def Tile.header (T : Tile) (a : Nat) : Header :=
  let h := T.peek a 8
  ⟨bitsOf h 0 12, bitsOf h 12 12, bitsOf h 24 7, bitOf h 31, bitsOf h 32 13, h / 2 ^ 45⟩

/-- Is a header free of reserved values, and of the kind asked for? -/
def Header.ok (h : Header) (epilogue : Bool) : Bool :=
  1 ≤ h.len && h.len ≤ 2048 && h.pre ≤ h.len && 1 ≤ h.g && h.g ≤ 64 && h.epilogue == epilogue &&
  (if epilogue then h.iter == 0 else 1 ≤ h.iter && h.iter ≤ 4096) && h.rest == 0

/-- The instructions of a body: the index of the first word, and the words (word 1 is 0 in a base word). None where an
extended form crosses the end or `pre` splits one. -/
def Tile.bodyOf (T : Tile) (a len pre : Nat) : Nat → Nat → Option (List (Nat × Nat × Nat))
  | 0, _ => some []
  | fuel + 1, i =>
    if len ≤ i then some []
    else
      let w := T.peek (a + 8 + 4 * i) 4
      if majorExtended (majorOf w) then
        if len ≤ i + 1 || pre == i + 1 then none
        else (T.bodyOf a len pre fuel (i + 2)).map (fun l => (i, w, T.peek (a + 12 + 4 * i) 4) :: l)
      else (T.bodyOf a len pre fuel (i + 1)).map (fun l => (i, w, 0) :: l)

/-- The sub-code that an instruction of a body raises: what R156 says of the word comes first, then what R286 to R288 say of
it in a body (R294). `after` says that a `vaccrel` has come before. -/
def bodyBad (h : Header) (inPre after : Bool) (w w1 : Nat) : Option Nat :=
  let (a, _, _, _, minor) := fieldsOf w
  (wordBad w w1).or
    (match majorOf w with
     | 0x31 => firstBad [(minor == 0x54 || minor == 0x55, 1),
         ((chainRoles minor).any (fun r => r.1 == .s) && !(16 ≤ a && a ≤ 23), 2)]
     | 0x32 =>
       if minor < 32 then none
       else
         match minor with
         | 0x41 => firstBad [(!h.epilogue, 1), (after || h.g ≤ w1 % 64, 2)]
         | 0x42 => firstBad [(!h.epilogue, 1), (after || inPre && w1 % 2 == 0, 2)]
         | 0x43 => reservedIf (bitsOf w1 5 5 < 16 || 23 < bitsOf w1 5 5)
         | 0x44 => firstBad [(!h.epilogue, 1), (after, 2)]
         | _ => some 1
     | _ => some 1)

/-- The first instruction of a body that fails: its index, its words and the sub-code. -/
def firstWordBad (h : Header) : Bool → List (Nat × Nat × Nat) → Option (Nat × Nat × Nat × Nat)
  | _, [] => none
  | after, (i, w, w1) :: l =>
    match bodyBad h (i < h.pre) after w w1 with
    | some sub => some (i, w, w1, sub)
    | none => firstWordBad h (after || majorOf w == 0x32 && w % 256 == 0x44) l

/-- The checks of a trigger (R294): the cause as code, sub-code and EXC_INFO, and the address of a failing body word. A
set latch skips the last two. -/
def Tile.progFault (T : Tile) (epilogue : Bool) (prog frame win size w0 w1 : Nat) (latched : Bool) :
    Option ((Nat × Nat × Word) × Option Nat) :=
  let h := T.header prog
  let fetch := some ((2, 0, BitVec.ofNat 64 prog), none)
  let bytes := 8 + 4 * h.len
  if prog % 8 ≠ 0 || storeEnd < prog + 8 then fetch
  else if storeEnd < prog + bytes then fetch
  else if frame % 8 ≠ 0 || storeEnd < frame + 256 then some ((3, 0, BitVec.ofNat 64 frame), none)
  else if storeEnd < win + size then some ((3, 0, BitVec.ofNat 64 win), none)
  else if T.hasUE prog bytes then some ((6, 0, T.firstUE prog bytes), none)
  else if T.hasUE frame 256 then some ((6, 0, T.firstUE frame 256), none)
  else if latched then none
  else
    match h.ok epilogue, T.bodyOf prog h.len h.pre h.len 0 with
    | true, some l =>
      (firstWordBad h false l).map (fun x => ((1, x.2.2.2, illegalInfo x.2.1 x.2.2.1), some (prog + 8 + 4 * x.1)))
    | _, _ => some ((1, 2, illegalInfo w0 w1), none)

/-- What a check leaves in TPROG_STATUS. -/
def Tile.checked (T : Tile) (r : Option ((Nat × Nat × Word) × Option Nat)) : Tile :=
  match r with
  | some (_, some a) => T.setFld F.TPROG_STATUS_CHECK_AT a
  | _ => T

/-- The checks of an epilogue trigger; passing sets the latch of the binding (R294, R295). -/
def Tile.epilogueCheck (T : Tile) (w0 w1 : Nat) : Tile × Option (Nat × Nat × Word) :=
  if T.fld F.TPROG_EPI_EN = 0 then (T, some (1, 2, illegalInfo w0 w1))
  else
    let prog := T.fld F.TPROG_EPI_PROG
    let r := T.progFault true prog (T.fld F.TPROG_EPI_FRAME) (T.fld F.TPROG_WIN_BASE) (T.fld F.TPROG_WIN_SIZE) w0 w1
      T.checkedEpi.isSome
    let T1 := T.checked r
    (if r.isNone then { T1 with checkedEpi := some (prog, prog + 8 + 4 * (T.header prog).len) } else T1, r.map (·.1))

/-- The checks of `tprog`; passing sets the latch of its program address. A check that fails leaves the latch (R295). -/
def Tile.tprogCheck (T : Tile) (win prog frame : Word) (w0 w1 : Nat) : Tile × Option (Nat × Nat × Word) :=
  let a := prog.toNat
  let r := T.progFault false a frame.toNat (wordField win 0 22) (wordField win 24 22) w0 w1
    ((T.checkedTp.map (·.1)) == some a)
  let T1 := T.checked r
  (if r.isNone then { T1 with checkedTp := some (a, a + 8 + 4 * (T.header a).len) } else T1, r.map (·.1))

end Sys2Proof.Machine
end

