-- ==== Sys2Proof/Machine/Matrix.lean ====
section
/-!
DEFINITION. The matrix instructions (R209 to R227). An instruction executes whole when it starts, in the tile cycle `now`;
MOP_CYCLES is counted by R214.
-/
namespace Sys2Proof.Machine

/-! ## Shared parts -/

/-- A MATRIX exception (R211): EXC_INFO from MCAUSE, descriptor index, address and record index. -/
def matrixInfo (mcause dreg addr index : Nat) : Word :=
  BitVec.ofNat 64 (mcause + dreg * 2 ^ 4 + addr % 2 ^ 22 * 2 ^ 8 + index % 2 ^ 32 * 2 ^ 32)

/-- The first extent that fails, as its MCAUSE and base. -/
def firstExtent : List (Bool × Nat × Nat) → Option (Nat × Nat)
  | [] => none
  | (ok, mc, base) :: l => if ok then firstExtent l else some (mc, base)

/-- Where the outputs of a drain go: in the tile store, rows and scale bytes (R207, R211). -/
def drainFits (d : Line) : Bool × Bool :=
  let m := mf d 3 36 7
  let n := mf d 3 43 8
  (mf d 5 24 2 == 1 || extentEnd (mf d 4 0 22) (mf d 4 24 24) m (rowBytes (mf d 4 48 4) n) ≤ storeEnd,
   mf d 5 22 1 == 0 || mf d 5 0 22 + m * ceilDiv n 32 ≤ storeEnd)

/-- How the descriptor rounds a drain. -/
def drainRnd (d : Line) : Rnd := ⟨mf d 4 48 4, signed 8 (mf d 4 56 8), mf d 4 52 3, mf d 4 55 1 == 1⟩

/-- Count the cycles of a matrix instruction by what the array does in them (R643): spread stalls, settling, holding for
an epilogue, and the rest. -/
def Tile.matrixCycles (T : Tile) (total spread settle held : Nat) : Tile :=
  (((T.addFld F.M_SPREAD_COUNT spread).addFld F.M_SETTLE_COUNT settle).addFld F.M_HELD_COUNT held).addFld F.M_ACTIVE_COUNT
    (total - (spread + settle + held))

/-- The ranges that a drain writes. -/
def drainRanges (d : Line) : List (Bool × Nat × Nat) :=
  let m := mf d 3 36 7
  let n := mf d 3 43 8
  if mf d 5 24 2 = 1 then []
  else (true, mf d 4 0 22, extentEnd 0 (mf d 4 24 24) m (rowBytes (mf d 4 48 4) n)) ::
    (if mf d 5 22 1 = 1 then [(true, mf d 5 0 22, m * ceilDiv n 32)] else [])

/-- The ranges of the epilogue run that a drain triggers, with TPROG_EPI and TPROG_WIN as captured (R293, R299). -/
def epilogueRanges (T : Tile) : List (Bool × Nat × Nat) :=
  let p := T.fld F.TPROG_EPI_PROG
  [(true, T.fld F.TPROG_WIN_BASE, T.fld F.TPROG_WIN_SIZE), (true, T.fld F.TPROG_EPI_FRAME + 128, 96),
   (false, T.fld F.TPROG_EPI_FRAME, 256), (false, p, 8 + 4 * (T.header p).len)]

/-- The tile cycle at which an `mmac` starts and the start cycles that it spends: those that remain when the `mmac` before
it completes (R214). -/
def Tile.mmacStart (T : Tile) (now : Nat) : Nat × Nat :=
  match T.mDone with
  | some d => if now < d then (d, 8 - min 8 (d - now)) else (now, 8)
  | none => (now, 8)

/-- Completion of a matrix instruction: flags, MOP_CYCLES and MOP_SPREAD (R190, R231). -/
def Tile.mopDone (T : Tile) (fl cycles stalls steps : Nat) : Tile :=
  let T := { T.orFlags mflagsAddr fl with mDone := none }
  let T := T.setFld F.MOP_CYCLES_CYCLES (satTo 40 cycles)
  let T := T.setFld F.MOP_SPREAD_STALLS (satTo 32 stalls)
  T.setFld F.MOP_SPREAD_STEPS (satTo 32 steps)

/-- ACC = 0 clears every LACC (R209). -/
def Tile.accStart (T : Tile) (acc : Bool) : Tile := if acc then T else T.clearLaccs

/-- Set MSTATUS.SHAPE (R210); an instruction other than `mmom` that does so clears MOMENTS (R226). -/
def Tile.setShape (T : Tile) (shape : Nat) (moments : Bool) : Tile :=
  (T.setFld F.MSTATUS_SHAPE shape).setFld F.MSTATUS_MOMENTS (b2n moments)

/-- Draw for and write a drain of the active outputs, then apply KEEP (R218 to R220). -/
def Tile.drainOuts (T : Tile) (t : Nat) (d : Line) (keep : Bool) : Tile × Nat :=
  let m := mf d 3 36 7
  let n := mf d 3 43 8
  let q := drainRnd d
  let (words, T) := T.drawIf q.mode t 1 (m * n)
  let (T, fl) := T.writeOuts q (mf d 5 22 1 == 1) (mf d 3 32 3) n (mf d 4 0 22) (mf d 4 24 24) (mf d 5 0 22) m words 0
  (if keep then T else T.clearLaccs, fl)

/-- Cycles of a drain to the tile store (R214). -/
def drainCycles (d : Line) (wait : Nat) : Nat :=
  wait + ceilDiv (mf d 3 36 7 * mf d 3 43 8) 32 + 4 + (if mf d 5 22 1 = 1 then 4 else 0)

/-- Word 1 bits of a matrix instruction (R209), numbered from bit 32. -/
def mBit (f : FX) (i : Nat) : Bool := f.w1.toNat.testBit i

/-- Dispatch of a matrix instruction: reserved fields, the descriptor's index, then the descriptor (R156, R208,
R209). `usedBits` are the word 1 bits the MINOR uses; `cUsed` where C names the register that it writes. A trigger captures
TPROG_EPI and TPROG_WIN, and is not dispatched before earlier writes to its program and frame have completed (R293, R294). -/
def Tile.matrixOp (T : Tile) (i : Instr) (f : FX) (minor : Nat) (usedBits : List Nat) (cUsed : Bool)
    (badBits : Bool) (descOk : Line → Bool) (ranges : Tile → Line → List (Bool × Nat × Nat))
    (body : Tile → QEntry → QRes) : Tile :=
  let w0 := FXw f 0x30 minor
  let d := T.dreg f.a.toNat
  let e := T.entry i w0 f.w1.toNat (T.ctlWord F.TPROG_EPI_PROG.reg) (T.ctlWord F.TPROG_WIN_BASE.reg) 0 d
    (if cUsed then f.c.toNat else 0) (ranges T d) []
  let e := if e.trigger then { e with ranges := e.ranges ++ epilogueRanges T } else e
  T.queueOp 2 8 [] e (e.trigger && rangesMeet (epilogueRanges T).tail.tail T.openRanges)
    (firstBad [(f.b != 0 || !cUsed && f.c != 0 || f.k != 0 || badBits ||
        (List.range 32).any (fun j => f.w1.toNat.testBit j && !usedBits.contains j), 2),
      (16 ≤ f.a.toNat, 3), (!descOk d, 2)])
    (fun T => if e.trigger then T.epilogueCheck w0 f.w1.toNat else (T, none)) body

/-- Start the epilogue run of a DEST = 1 drain: the array is held until the run (R293, R297). -/
def Tile.startEpilogue (T : Tile) (e : QEntry) (d : Line) (keep : Bool) (fl cycles stalls steps spread settle : Nat) : Tile :=
  let r : ProgRun :=
    { entry := e, epilogue := true, prog := wordField e.sa F.TPROG_EPI_PROG.lo F.TPROG_EPI_PROG.width,
      frame := wordField e.sa F.TPROG_EPI_FRAME.lo F.TPROG_EPI_FRAME.width,
      win := wordField e.sb F.TPROG_WIN_BASE.lo F.TPROG_WIN_BASE.width,
      winSize := wordField e.sb F.TPROG_WIN_SIZE.lo F.TPROG_WIN_SIZE.width, desc := d, keep := keep, released := false,
      fl := fl, cycles := cycles, stalls := stalls, steps := steps }
  { (T.settled.matrixCycles cycles spread settle 0) with run := some r, mDone := none }

/-! ## mmac -/

/-- Write snapshot `j` of the active outputs (R221). -/
def Tile.snapshot (T : Tile) (t : Nat) (d : Line) (j : Nat) : Tile × Nat :=
  let m := mf d 3 36 7
  let n := mf d 3 43 8
  let q : Rnd := ⟨mf d 6 24 4, signed 8 (mf d 4 56 8), mf d 4 52 3, mf d 4 55 1 == 1⟩
  let rb := rowBytes q.fmt n
  let (words, T) := T.drawIf q.mode t 1 (m * n)
  T.writeOuts q false (mf d 3 32 3) n (mf d 6 0 22 + j * m * rb) rb 0 m words 0

/-- The array pauses after a step and writes a snapshot, once it has settled (R214, R221). -/
def Acc.pause (acc : Acc) (t : Nat) (d : Line) (j outs : Nat) : Acc :=
  let r := acc.T.snapshot t d j
  let w := settleFrom acc.last acc.clock
  { acc with T := r.1, fl := acc.fl ||| r.2, waits := acc.waits + w, clock := acc.clock + w + ceilDiv outs 32 + 4 }

/-- Passes of a product of two formats (R199): one in sub-word mode. -/
def passesOf (sub : Bool) (fa fb : Nat) : Nat := if sub then 1 else limbsOf fa * limbsOf fb

/-- The steps of an `mmac`, with a snapshot after every CKPT_K values of k below K (R216, R221). -/
def mmacSteps (t : Nat) (d : Line) (sub : Bool) (outs : List (Nat × Nat)) : Nat → Nat → Acc → Acc
  | 0, _, acc => acc
  | n + 1, i, acc =>
    let K := mf d 3 0 24
    let acc := acc.step (opndA d) (opndB d) sub (passesOf sub (mf d 0 48 4) (mf d 0 52 4)) (mf d 3 32 3) outs (stepKs sub K i)
    let k := if sub then 4 * (i + 1) else i + 1
    let c := mf d 5 32 24
    let acc :=
      if c ≠ 0 ∧ k % c = 0 ∧ k < K then acc.pause t d (k / c - 1) outs.length else acc
    mmacSteps t d sub outs n (i + 1) acc

/-- Snapshots an `mmac` writes (R221). -/
def snapCount (d : Line) : Nat := if mf d 5 32 24 = 0 then 0 else ceilDiv (mf d 3 0 24) (mf d 5 32 24) - 1

/-- The extents of an `mmac` (R211). DESIGN CHOICE (log 93): where several fail, the first in the order A, B, A's scale
array, B's scale array, drain, C_SCALE, snapshots is reported; R211 gives no order. -/
def mmacExtents (d : Line) (drain : Bool) : Option (Nat × Nat) :=
  let m := mf d 3 36 7
  let n := mf d 3 43 8
  let oa := opndA d
  let ob := opndB d
  let fits := drainFits d
  let cf := mf d 6 24 4
  firstExtent
    [(oa.fits m, 1, oa.base), (ob.fits n, 2, ob.base), (oa.scaleFits m, 3, oa.scale), (ob.scaleFits n, 3, ob.scale),
     (!drain || fits.1, 4, mf d 4 0 22), (!drain || fits.2, 4, mf d 5 0 22),
     (mf d 5 32 24 == 0 || mf d 6 0 22 + snapCount d * m * rowBytes cf n ≤ storeEnd, 5, mf d 6 0 22)]

/-- The ranges of an `mmac`. -/
def mmacRanges (d : Line) (drain : Bool) : List (Bool × Nat × Nat) :=
  let m := mf d 3 36 7
  let n := mf d 3 43 8
  (opndA d).ranges m ++ (opndB d).ranges n ++ (if drain then drainRanges d else []) ++
    (if mf d 5 32 24 = 0 then [] else [(true, mf d 6 0 22, snapCount d * m * rowBytes (mf d 6 24 4) n)])

/-- How an accumulation ends (R214, R297): without a drain, with a drain to the tile store, or with the start of an epilogue
run. `first` is the tile cycle at which the instruction started; `stalls` and `steps` are what MOP_SPREAD reports. The tile
and the tile cycle of its completion. -/
def Acc.finish (acc : Acc) (before : Tile) (t first : Nat) (e : QEntry) (d : Line) (drain keep : Bool) (stalls steps : Nat) :
    Tile × Nat :=
  let T := acc.done before
  let cyc := acc.clock - first
  let wait := settleFrom acc.last acc.clock
  if !drain then ((T.mopDone acc.fl cyc stalls steps).matrixCycles cyc acc.stalls acc.waits 0, first + cyc)
  else if mf d 5 24 2 = 1 then
    (T.startEpilogue e d keep acc.fl (cyc + wait) stalls steps acc.stalls (acc.waits + wait), first + cyc + wait)
  else
    let q := T.drainOuts t d keep
    let all := cyc + drainCycles d wait
    ((q.1.settled.mopDone (acc.fl ||| q.2) all stalls steps).matrixCycles all acc.stalls (acc.waits + wait) 0, first + all)

/-- The body of `mmac`. -/
def Tile.mmacBody (T : Tile) (t now : Nat) (e : QEntry) (dreg : Nat) (d : Line) (acc drain keep : Bool) : QRes :=
  match mmacExtents d drain with
  | some (mc, base) => .fault T 0x10 (matrixInfo mc dreg base 0)
  | none =>
    let sub := narrowFmt (mf d 0 48 4) && narrowFmt (mf d 0 52 4)
    let K := mf d 3 0 24
    let S := if sub then ceilDiv K 4 else K
    let outs := outputsOf (mf d 3 36 7) (mf d 3 43 8)
    let T0 := if acc then T else (T.accStart acc).setShape (mf d 3 32 3) false
    let st := T.mmacStart now
    let r := mmacSteps t d sub outs S 0 (Acc.start T0 (st.1 + st.2) 0)
    let q := r.finish T0 t st.1 e d drain keep r.stalls r.steps
    .ok { q.1 with mDone := if drain && mf d 5 24 2 == 1 then none else some q.2 }

/-- `mmac` (R210): KEEP must be 0 where DRAIN is 0 (R209). -/
def Tile.mmac (T : Tile) (t : TileIx) (now : Nat) (f : FX) : Tile :=
  T.matrixOp (.mmac t f) f 0 [0, 1, 2] false (mBit f 2 && !mBit f 1)
    (fun d => mmacOk d (mBit f 1)) (fun _ d => mmacRanges d (mBit f 1))
    (fun T e => T.mmacBody t now e f.a.toNat e.desc (mBit f 0) (mBit f 1) (mBit f 2))

/-! ## mdrain, mclear -/

/-- The body of `mdrain` (R218 to R220). -/
def Tile.mdrainBody (T : Tile) (t now : Nat) (e : QEntry) (dreg : Nat) (d : Line) (keep : Bool) : QRes :=
  let fits := drainFits d
  match firstExtent [(fits.1, 4, mf d 4 0 22), (fits.2, 4, mf d 5 0 22)] with
  | some (mc, base) => .fault T 0x10 (matrixInfo mc dreg base 0)
  | none =>
    let w := T.settleWait now
    if mf d 5 24 2 = 1 then .ok (T.startEpilogue e d keep 0 w 0 0 0 w)
    else
      let q := T.drainOuts t d keep
      .ok ((q.1.settled.mopDone q.2 (drainCycles d w) 0 0).matrixCycles (drainCycles d w) 0 w 0)

/-- `mdrain` (R210). -/
def Tile.mdrain (T : Tile) (t : TileIx) (now : Nat) (f : FX) : Tile :=
  T.matrixOp (.mdrain t f) f 1 [2] false false mdrainOk (fun _ d => drainRanges d)
    (fun T e => T.mdrainBody t now e f.a.toNat e.desc (mBit f 2))

/-- The body of `mclear`. -/
def Tile.mclearBody (T : Tile) : QRes :=
  .ok (((T.clearLaccs.setFld F.MSTATUS_MOMENTS 0).setFld F.MMOM_N_N 0).mopDone 0 4 0 0 |>.matrixCycles 4 0 0 0)

/-- `mclear` (R210): every LACC to zero in state none, MOMENTS and MMOM_N to 0. It reads no descriptor. -/
def Tile.mclear (T : Tile) (t : TileIx) (f : FX) : Tile :=
  T.matrixOp (.mclear t f) f 2 [] false false (fun _ => true) (fun _ _ => []) (fun T _ => T.mclearBody)

/-! ## mexport, mimport -/

/-- Write records back to back from an address; the tile and the bytes written. -/
def Tile.writeRecords (T : Tile) : List Lacc → Nat → Tile × Nat
  | [], _ => (T, 0)
  | l :: ls, a =>
    let (hdr, words, cnt) := l.record
    let r := (T.poke a (recSize cnt) (hdr + 2 ^ 64 * words)).writeRecords ls (a + recSize cnt)
    (r.1, r.2 + recSize cnt)

/-- The active cells of a descriptor in the order of R217. -/
def activeCells (d : Line) : List Nat :=
  (outputsOf (mf d 3 36 7) (mf d 3 43 8)).map (fun rc => cellOf (mf d 3 32 3) rc.1 rc.2)

/-- The body of `mexport` (R224): records from C_BASE, the byte count to sC, then KEEP. -/
def Tile.mexportBody (T : Tile) (now dreg : Nat) (d : Line) (c : Nat) (keep : Bool) : QRes :=
  let cells := activeCells d
  if storeEnd < mf d 4 0 22 + 544 * cells.length then .fault T 0x10 (matrixInfo 6 dreg (mf d 4 0 22) 0)
  else
    let r := T.writeRecords (cells.map T.laccAt) (mf d 4 0 22)
    let T1 := (if keep then r.1 else r.1.clearLaccs).setS c (BitVec.ofNat 64 r.2)
    let w := T.settleWait now
    let cyc := w + 2 + ceilDiv r.2 64
    .ok ((T1.settled.mopDone 0 cyc 0 0).matrixCycles cyc 0 w 0)

/-- `mexport` (R210). -/
def Tile.mexport (T : Tile) (t : TileIx) (now : Nat) (f : FX) : Tile :=
  T.matrixOp (.mexport t f) f 3 [2] true false mexportOk
    (fun _ d => [(true, mf d 4 0 22, 544 * (activeCells d).length)])
    (fun T e => T.mexportBody now f.a.toNat e.desc f.c.toNat (mBit f 2))

/-- The scan of `mimport` (R211): the values of the records, or the MCAUSE, address and index of the first failure;
with the bytes read. -/
def Tile.scanRecords (T : Tile) (base : Nat) : Nat → Nat → Nat → Sum (List Exact × Nat) (Nat × Nat × Nat)
  | 0, a, _ => .inl ([], a - base)
  | n + 1, a, i =>
    if storeEnd < a + 8 then .inr (7, base, i)
    else if T.hasUE a 8 then .inr (9, a, i)
    else
      let hdr := T.peek a 8
      let cnt := bitsOf hdr 8 7
      if storeEnd < a + recSize cnt then .inr (7, base, i)
      else if T.hasUE a (recSize cnt) then .inr (9, a, i)
      else
        let words := T.peek (a + 8) (8 * cnt)
        if !recCanonical hdr words then .inr (8, a, i)
        else
          match T.scanRecords base n (a + recSize cnt) (i + 1) with
          | .inl (vs, b) => .inl (recValue hdr words :: vs, b)
          | .inr x => .inr x

/-- Add values to cells, one each (R225). -/
def Tile.addCells (T : Tile) : List (Nat × Exact) → Tile × Nat
  | [] => (T, 0)
  | (cell, v) :: l =>
    let r := (T.laccAt cell).add v
    let q := (T.setLacc cell r.1).addCells l
    (q.1, r.2 ||| q.2)

/-- The body of `mimport` (R225). DESIGN CHOICE (log 94): an import counts as a deposit for the settle wait of R202, at the
cycle in which it completes. -/
def Tile.mimportBody (T : Tile) (now dreg : Nat) (d : Line) (acc : Bool) : QRes :=
  let cells := activeCells d
  match T.scanRecords (mf d 4 0 22) cells.length (mf d 4 0 22) 0 with
  | .inr (mc, a, i) => .fault T 0x10 (matrixInfo mc dreg a i)
  | .inl (vs, bytes) =>
    let r := ((T.accStart acc).setShape (mf d 3 32 3) false).addCells (cells.zip vs)
    let cyc := 4 + 2 * ceilDiv bytes 64
    .ok (({ r.1 with mLast := some (now + cyc), mCarry := true }.mopDone r.2 cyc 0 0).matrixCycles cyc 0 0 0)

/-- `mimport` (R210). -/
def Tile.mimport (T : Tile) (t : TileIx) (now : Nat) (f : FX) : Tile :=
  T.matrixOp (.mimport t f) f 4 [0] false false mexportOk
    (fun _ d => [(false, mf d 4 0 22, 544 * (activeCells d).length)])
    (fun T e => T.mimportBody now f.a.toNat e.desc (mBit f 0))

/-! ## Moments (R226, R227) -/

/-- The S1 cell of a feature; S2 is the next. -/
def momCell (f : Nat) : Nat := 32 * (f / 16) + 2 * (f % 16)

/-- One feature's part of a step: x into S1, x × x into S2; the cycles are those of the slower cell. -/
def Acc.feature (acc : Acc) (o : Opnd) (sub : Bool) (f : Nat) (ks : List Nat) : Acc × Nat :=
  let xs := ks.map (fun k => o.read acc.T f k)
  let one : Exact := .fin false 1 1 0
  let p1 := xs.map (fun x => productOf o.fmt o.fmt x.1 one)
  let p2 := xs.map (fun x => productOf o.fmt o.fmt x.1 x.1)
  let r1 := depositAll (acc.T.laccAt (momCell f)) (p1.map (fun p => (p.1, p.2.1))) sub
  let r2 := depositAll (acc.T.laccAt (momCell f + 1)) (p2.map (fun p => (p.1, p.2.1))) sub
  ({ acc with T := (acc.T.setLacc (momCell f) r1.1).setLacc (momCell f + 1) r2.1,
              fl := acc.fl ||| r1.2.1 ||| r2.2.1 ||| ((p1 ++ p2).map (·.2.2)).foldl (· ||| ·) 0,
              poison := acc.poison || xs.any (·.2), dep := acc.dep || p1.any (fun p => deposits p.1) }, max r1.2.2 r2.2.2)

/-- The steps of an `mmom`. -/
def mmomSteps (o : Opnd) (sub : Bool) (feats : Nat) : Nat → Nat → Acc → Acc
  | 0, _, acc => acc
  | n + 1, i, acc =>
    let ks := stepKs sub o.k i
    let r := (List.range feats).foldl (fun (a : Acc × Nat) f =>
      let q := a.1.feature o sub f ks
      (q.1, max a.2 q.2)) (acc, 1)
    mmomSteps o sub feats n (i + 1) (r.1.count (passesOf sub o.fmt o.fmt) r.2)

/-- The body of `mmom` (R226). -/
def Tile.mmomBody (T : Tile) (now dreg : Nat) (d : Line) (acc : Bool) : QRes :=
  let o := opndA d
  let feats := 16 * mf d 3 36 7
  if !o.fits feats then .fault T 0x10 (matrixInfo 1 dreg o.base 0)
  else
    let sub := narrowFmt o.fmt
    let S := if sub then ceilDiv o.k 4 else o.k
    let keep := acc && T.fld F.MSTATUS_MOMENTS == 1
    let T0 := if keep then T else T.clearLaccs.setFld F.MMOM_N_N 0
    let T0 := T0.setShape 0 true
    let r := mmomSteps o sub feats S 0 (Acc.start T0 (now + 8) 0)
    let T1 := (r.done T0).satFld F.MMOM_N_N o.k
    let cyc := r.clock - now
    .ok ((T1.mopDone r.fl cyc r.stalls r.steps).matrixCycles cyc r.stalls 0 0)

/-- `mmom` (R210). -/
def Tile.mmom (T : Tile) (t : TileIx) (now : Nat) (f : FX) : Tile :=
  T.matrixOp (.mmom t f) f 5 [0] false false mmomOk (fun _ d => (opndA d).ranges (16 * mf d 3 36 7))
    (fun T e => T.mmomBody now f.a.toNat e.desc (mBit f 0))

/-- A value divided by n > 0. -/
def Exact.divNat (x : Exact) (n : Nat) : Exact :=
  match x with
  | .fin s m d e => .fin s m (d * n) e
  | y => y

/-- Mean and variance of one feature, rounded, with flags (R227). The variance is faithful: which of its two
neighbours an inexact one delivers is a free value (R227). DESIGN CHOICE (log 95): where S2 alone is in a special state, the
mean is S1 / n rounded as in every other case; the row of R227's table says that S1 is drained. -/
def momResult (T : Tile) (q : Rnd) (n ddof f : Nat) : (Nat × Nat) × (Nat × Nat) :=
  let bad := (roundNum q.fmt 0 q.mode q.sat 0 (.nan false)).1
  let l1 := T.laccAt (momCell f)
  let l2 := T.laccAt (momCell f + 1)
  if T.fld F.MSTATUS_MOMENTS = 0 ∨ n = 0 ∨ n = 2 ^ 48 - 1 then ((bad, flInvalid), (bad, flInvalid))
  else
    let mean := roundNum q.fmt 0 q.mode q.sat 0 (l1.value.divNat n)
    if n ≤ ddof ∨ l1.sp ≠ .none ∨ l2.sp ≠ .none then (mean, (bad, flInvalid))
    else
      let D := (n : Int) * l2.z * (2 ^ 2148 : Nat) - l1.z * l1.z
      let mode := if Sys2Proof.Config.varianceUp D (n * (n - ddof)) q.fmt then 2 else 3
      (mean, roundNum q.fmt 0 mode q.sat 0 ((Exact.ofInt D (-4296)).divNat (n * (n - ddof))))

/-- The body of `mdrmom` (R227). DESIGN CHOICE (log 95): the whole mean row is written before the variance row; where C_LD
makes them overlap, R227 gives no order. -/
def Tile.mdrmomBody (T : Tile) (now dreg : Nat) (d : Line) (ddof : Nat) : QRes :=
  let feats := 16 * mf d 3 36 7
  let q := drainRnd d
  let base := mf d 4 0 22
  let ld := mf d 4 24 24
  if storeEnd < extentEnd base ld 2 (rowBytes q.fmt feats) then .fault T 0x10 (matrixInfo 4 dreg base 0)
  else
    let n := T.fld F.MMOM_N_N
    let rs := (List.range feats).map (fun f => momResult T q n ddof f)
    let w := ((List.range (2 * feats)).map (fun i => (T.laccAt (32 * (i / 32) + i % 32)).record.2.2)).foldl max 0
    let fl := (rs.map (fun r => r.1.2 ||| r.2.2)).foldl (· ||| ·) 0
    let T1 := (T.writeRow base q.fmt (rs.map (·.1.1))).writeRow (base + ld) q.fmt (rs.map (·.2.1))
    let T2 := (T1.clearLaccs.setFld F.MSTATUS_MOMENTS 0).setFld F.MMOM_N_N 0
    let wait := T.settleWait now
    let cyc := wait + 104 + 8 * (w * w)
    .ok ((T2.settled.mopDone fl cyc 0 0).matrixCycles cyc 0 wait 0)

/-- `mdrmom` (R210). -/
def Tile.mdrmom (T : Tile) (t : TileIx) (now : Nat) (f : FX) : Tile :=
  T.matrixOp (.mdrmom t f) f 6 [3] false false mdrmomOk
    (fun _ d => [(true, mf d 4 0 22, extentEnd 0 (mf d 4 24 24) 2 (rowBytes (mf d 4 48 4) (16 * mf d 3 36 7)))])
    (fun T e => T.mdrmomBody now f.a.toNat e.desc (b2n (mBit f 3)))

/-! ## In the queue -/

/-- The body of the matrix instruction held as an entry, `mgrp` apart. -/
def matrixBody (t now : Nat) (i : Instr) (T : Tile) (e : QEntry) : QRes :=
  match i with
  | .mmac _ f => T.mmacBody t now e f.a.toNat e.desc (mBit f 0) (mBit f 1) (mBit f 2)
  | .mdrain _ f => T.mdrainBody t now e f.a.toNat e.desc (mBit f 2)
  | .mclear _ _ => T.mclearBody
  | .mexport _ f => T.mexportBody now f.a.toNat e.desc f.c.toNat (mBit f 2)
  | .mimport _ f => T.mimportBody now f.a.toNat e.desc (mBit f 0)
  | .mmom _ f => T.mmomBody now f.a.toNat e.desc (mBit f 0)
  | .mdrmom _ f => T.mdrmomBody now f.a.toNat e.desc (b2n (mBit f 3))
  | _ => .ok T

/-! ## Meanings -/

/-- `mmac` (R210). -/
def execMmac (t : TileIx) (f : FX) (s : State) : Host.Outcome State Fault Refusal :=
  .next (s.onTile t (fun T => T.mmac t (s.tileCycle t) f))

/-- `mdrain` (R218). -/
def execMdrain (t : TileIx) (f : FX) (s : State) : Host.Outcome State Fault Refusal :=
  .next (s.onTile t (fun T => T.mdrain t (s.tileCycle t) f))

/-- `mclear` (R210). -/
def execMclear (t : TileIx) (f : FX) (s : State) : Host.Outcome State Fault Refusal :=
  .next (s.onTile t (fun T => T.mclear t f))

/-- `mexport` (R224). -/
def execMexport (t : TileIx) (f : FX) (s : State) : Host.Outcome State Fault Refusal :=
  .next (s.onTile t (fun T => T.mexport t (s.tileCycle t) f))

/-- `mimport` (R225). -/
def execMimport (t : TileIx) (f : FX) (s : State) : Host.Outcome State Fault Refusal :=
  .next (s.onTile t (fun T => T.mimport t (s.tileCycle t) f))

/-- `mmom` (R226). -/
def execMmom (t : TileIx) (f : FX) (s : State) : Host.Outcome State Fault Refusal :=
  .next (s.onTile t (fun T => T.mmom t (s.tileCycle t) f))

/-- `mdrmom` (R227). -/
def execMdrmom (t : TileIx) (f : FX) (s : State) : Host.Outcome State Fault Refusal :=
  .next (s.onTile t (fun T => T.mdrmom t (s.tileCycle t) f))

end Sys2Proof.Machine
end

