-- ==== Sys2Proof/Machine/Group.lean ====
section
/-!
DEFINITION. The grouped adapter operation `mgrp` (R371 to R376).
-/
namespace Sys2Proof.Machine

/-- The descriptor checks of `mgrp` (R372): B_BASE names the table, B_SCALE the row-index array. -/
def mgrpOk (d : Line) (drain : Bool) : Bool :=
  !mdReserved d && aOk d && operandOk (mf d 0 52 4) (mf d 0 57 1 == 1) (mf d 0 59 1 == 1) 0 (mf d 2 24 24) &&
  mf d 0 24 22 % 8 == 0 && mf d 1 24 22 % 2 == 0 && mf d 3 0 24 != 0 && shapeOk d && mf d 5 32 24 == 0 &&
  (!drain || drainOk d)

/-- What a row-index entry says of its row (R374). -/
inductive RowKind where
  | skipped
  | matched (adapter : Nat)
  | unmatched
  deriving DecidableEq, Repr

/-- The table entry of an adapter. -/
def adapterEntry (T : Tile) (d : Line) (a : Nat) : Nat := T.peek (mf d 0 24 22 + 8 + 8 * a) 8

/-- The kind of row `r`. -/
def rowKind (T : Tile) (d : Line) (r : Nat) : RowKind :=
  let x := T.peek (mf d 1 24 22 + 2 * r) 2
  if x = 0xFFFF then .skipped
  else if x < 4096 ∧ x < bitsOf (T.peek (mf d 0 24 22) 8) 0 13 ∧ bitOf (adapterEntry T d x) 22 then .matched x
  else .unmatched

/-- The rows of one adapter. -/
def rowsOfAdapter (T : Tile) (d : Line) (a : Nat) : List Nat :=
  (List.range (mf d 3 36 7)).filter (fun r => rowKind T d r == .matched a)

/-- The distinct adapters of the matched rows, ascending. -/
def adaptersOf (T : Tile) (d : Line) : List Nat :=
  (List.range (mf d 3 36 7)).foldl (fun l r => match rowKind T d r with
    | .matched a => insertNat a l
    | _ => l) []

/-- The descriptor with an adapter's B in place of the table (R373). -/
def withAdapter (T : Tile) (d : Line) (a : Nat) : Line :=
  let e := adapterEntry T d a
  BitVec.ofNat 512 (setBits (setBits d.toNat 24 22 (bitsOf e 0 22)) (64 + 24) 22 (bitsOf e 24 22))

/-- The failure of one used entry (R375): MCAUSE, address, index. -/
def adapterFail (T : Tile) (d : Line) (a : Nat) : Option (Nat × Nat × Nat) :=
  let at' := mf d 0 24 22 + 8 + 8 * a
  let e := adapterEntry T d a
  let mx := mf d 0 57 1 == 1
  let ob := opndB (withAdapter T d a)
  if T.hasUE at' 8 then some (9, at', 0)
  else if bitOf e 23 || e / 2 ^ 46 != 0 || !mx && bitsOf e 24 22 != 0 then some (8, at', a)
  else if ob.base % alignBytes ob.fmt != 0 || !ob.fits (mf d 3 43 8) then some (2, ob.base, 0)
  else if !ob.scaleFits (mf d 3 43 8) then some (3, ob.scale, 0)
  else none

/-- The scan of R375: the first failure as MCAUSE, address and index. DESIGN CHOICE (log 93): where several fail, the first in
the order A, its scale array, table, index array, adapters in ascending order, drain. -/
def mgrpFail (T : Tile) (d : Line) (drain : Bool) : Option (Nat × Nat × Nat) :=
  let m := mf d 3 36 7
  let oa := opndA d
  let tab := mf d 0 24 22
  let idx := mf d 1 24 22
  let hdr := T.peek tab 8
  let fits := drainFits d
  if !oa.fits m then some (1, oa.base, 0)
  else if !oa.scaleFits m then some (3, oa.scale, 0)
  else if storeEnd < tab + 8 then some (2, tab, 0)
  else if T.hasUE tab 8 then some (9, tab, 0)
  else if bitsOf hdr 0 13 = 0 || 4096 < bitsOf hdr 0 13 || hdr / 2 ^ 13 != 0 then some (8, tab, 0)
  else if storeEnd < tab + 8 + 8 * bitsOf hdr 0 13 then some (2, tab, 0)
  else if storeEnd < idx + 2 * m then some (2, idx, 0)
  else if T.hasUE idx (2 * m) then some (9, idx + ((T.firstUE idx (2 * m)).toNat - idx) / 2 * 2, 0)
  else
    match (adaptersOf T d).findSome? (adapterFail T d) with
    | some x => some x
    | none =>
      (firstExtent [(!drain || fits.1, 4, mf d 4 0 22), (!drain || fits.2, 4, mf d 5 0 22)]).map (fun x => (x.1, x.2, 0))

/-- The group passes, one per adapter in ascending order (R376), with 4 cycles between two. -/
def groupPasses (t : Nat) (d : Line) (sub : Bool) (S : Nat) (T0 : Tile) (acc : Acc) (as : List Nat) : Acc :=
  (as.zipIdx).foldl (fun (acc : Acc) a =>
    let outs := (outputsOf (mf d 3 36 7) (mf d 3 43 8)).filter (fun rc => rowKind T0 d rc.1 == .matched a.1)
    mmacSteps t (withAdapter T0 d a.1) sub outs S 0 { acc with clock := acc.clock + (if a.2 = 0 then 0 else 4) }) acc

/-- Every active output of an unmatched row enters the NaN state (R374). -/
def nanRows (T : Tile) (d : Line) (rows : List Nat) : Tile :=
  rows.foldl (fun T r => (List.range (mf d 3 43 8)).foldl (fun T c => T.setLacc (cellOf (mf d 3 32 3) r c) ⟨0, .nan⟩) T) T

/-- The body of `mgrp`. -/
def Tile.mgrpBody (T : Tile) (t now : Nat) (e : QEntry) (dreg : Nat) (d : Line) (acc drain keep : Bool) : QRes :=
  match mgrpFail T d drain with
  | some (mc, a, i) => .fault T 0x10 (matrixInfo mc dreg a i)
  | none =>
    let sub := narrowFmt (mf d 0 48 4) && narrowFmt (mf d 0 52 4)
    let K := mf d 3 0 24
    let S := if sub then ceilDiv K 4 else K
    let un := (List.range (mf d 3 36 7)).filter (fun r => rowKind T d r == .unmatched)
    let T0 := nanRows (if acc then T else (T.accStart acc).setShape (mf d 3 32 3) false) d un
    let r := groupPasses t d sub S T (Acc.start T0 (now + 8) (flagIf (!un.isEmpty) flInvalid)) (adaptersOf T d)
    .ok (r.finish T0 t now e d drain keep 0 0).1

/-- The ranges of an `mgrp`: A, the table and the index array, and the matrices of the adapters that its rows name as they
stand at dispatch. -/
def mgrpRanges (T : Tile) (d : Line) (drain : Bool) : List (Bool × Nat × Nat) :=
  (opndA d).ranges (mf d 3 36 7) ++
    [(false, mf d 0 24 22, 8 + 8 * bitsOf (T.peek (mf d 0 24 22) 8) 0 13), (false, mf d 1 24 22, 2 * mf d 3 36 7)] ++
    (adaptersOf T d).flatMap (fun a => (opndB (withAdapter T d a)).ranges (mf d 3 43 8)) ++ (if drain then drainRanges d else [])

/-- `mgrp` (R371): KEEP must be 0 where DRAIN is 0. -/
def execMgrp (t : TileIx) (f : FX) (s : State) : Host.Outcome State Fault Refusal :=
  .next (s.onTile t (fun T =>
    T.matrixOp (.mgrp t f) f 8 [0, 1, 2] false (mBit f 2 && !mBit f 1)
      (fun d => mgrpOk d (mBit f 1)) (fun T d => mgrpRanges T d (mBit f 1))
      (fun T e => T.mgrpBody t (s.tileCycle t) e f.a.toNat e.desc (mBit f 0) (mBit f 1) (mBit f 2))))

end Sys2Proof.Machine
end

