-- ==== Sys2Proof/Machine/Prog.lean ====
section
/-!
DEFINITION. Tile programs: `tprog`, the run of a program (R296 to R303), and the accumulator instructions (R289 to
R292). A run is one command; an accumulator instruction is also a command of its own, which the pending run of the tile
executes in a group (log entry 41).
-/
namespace Sys2Proof.Machine

/-! ## The frame (R287) -/

/-- Slot `i` of a frame; f0 reads 0. -/
def slotOf (fr : List Word) (i : Nat) : Word := if i = 0 then 0 else (fr[i]?).getD 0
/-- Read the frame at a local address. -/
def Tile.readFrame (T : Tile) (a : Nat) : List Word := (List.range 32).map (fun i => BitVec.ofNat 64 (T.peek (a + 8 * i) 8))
/-- Write f16 to f27 back. -/
def Tile.writeFrame (T : Tile) (a : Nat) (fr : List Word) : Tile :=
  T.poke (a + 128) 96 (packElems 64 (((fr.drop 16).take 12).map (·.toNat)))
/-- Advance the cursors by the strides. -/
def advance (fr : List Word) : List Word :=
  (List.range 32).map (fun i => if 24 ≤ i ∧ i < 28 then slotOf fr i + slotOf fr (i + 4) else slotOf fr i)

/-! ## Accumulator instructions -/

/-- What a run carries: the tile, the frame, the tile cycles so far, the flags of `vacc`, and when the array was
released. -/
structure RunS where
  T : Tile
  fr : List Word
  cyc : Nat := 0
  mfl : Nat := 0
  hold : Option Nat := none

/-- `vacc` (R289): row g × G + ROW, rounded as the drain's descriptor says. -/
def vaccRun (t : Nat) (d : Line) (row : Nat) (cf : CF) (s : RunS) : RunS :=
  let q := drainRnd d
  let na := mf d 3 43 8
  let total := mf d 3 36 7 * na
  let w := laneW q.fmt
  let n := elems s.T.vt.vl w
  let present := (List.range n).filter (fun i => row * na + i < total)
  let (words, T) := s.T.drawIf q.mode t 1 present.length
  let r := (present.zip (words ++ List.replicate present.length 0)).foldl (fun (acc : Vec × Nat) p =>
    let i := p.1
    if activeIn (s.T.kreg cf.k) w i then
      let idx := row * na + i
      let x := roundNum q.fmt q.fxp q.mode q.sat p.2 (s.T.laccAt (cellOf (mf d 3 32 3) (idx / na) (idx % na))).value
      (setLane acc.1 w i x.1, acc.2 ||| x.2)
    else if s.T.vt.mz then (setLane acc.1 w i 0, acc.2)
    else acc) (T.vreg cf.a, 0)
  { s with T := T.setV cf.a r.1, mfl := s.mfl ||| r.2, cyc := s.cyc + 4 + (ceilDiv (max n 1) 32 - 1) }

/-- `vaccred` (R290): the outputs of the group's rows, or all, into a root. -/
def vaccredRun (now : Nat) (d : Line) (g rows : Nat) (cf : CF) (s : RunS) : RunS :=
  let outs := (outputsOf (mf d 3 36 7) (mf d 3 43 8)).filter
    (fun rc => bitOf cf.w1 0 || g * rows ≤ rc.1 && rc.1 < (g + 1) * rows)
  let T0 := if bitOf cf.w1 1 then s.T.kindRoot cf.a cf.c else s.T.initRoot cf.a cf.c
  let r := outs.foldl (fun (acc : Tile × Nat) rc =>
    let x := acc.1.deposit cf.a now (s.T.laccAt (cellOf (mf d 3 32 3) rc.1 rc.2)).value
    (x.1, acc.2 ||| x.2)) (T0, 0)
  { s with T := r.1.orFlags vflagsAddr r.2,
           cyc := s.cyc + 6 + (ceilDiv (max outs.length 1) (if cf.c = 0 then 8 else 64) - 1) }

/-- tmax of a target format (R291). -/
def tmaxOf (fmt : Nat) : Nat := match fmt with
  | 4 => 448 | 5 => 57344 | 6 => 6 | _ => 127

/-- Slot, factor bits and flags of `vrscale` (R291). -/
def scaleOf (v : VT) (tfmt : Nat) (mode1 : Bool) (acc : Lacc) : Nat × Nat × Nat :=
  let w := min 32 (laneW v.fmt)
  match acc.sp with
  | .none =>
    if acc.z = 0 then
      if mode1 then (0x3F800000, (roundNum v.fmt v.fxp 3 false 0 (.fin false 1 1 0)).1, 0) else (0, 0, 0)
    else if mode1 then
      let r := roundNum 1 0 2 false 0 (.fin false acc.z.natAbs (tmaxOf tfmt) (-2148))
      let q := roundNum v.fmt v.fxp 3 false 0 (decodeNum 1 0 r.1).recip.1
      (r.1, q.1, (r.2 ||| q.2) &&& (flInexact ||| flOverflow ||| flUnderflow))
    else
      let e := min (max (floorLog2 acc.z.natAbs 1 (-2148) - mxEmax tfmt) (-127)) 127
      ((e + 127).toNat, wrapTo w (if tfmt = 8 then 6 - e else -e), 0)
  | _ =>
    if mode1 then (0x7FC00000, (roundNum v.fmt v.fxp 3 false 0 (.nan false)).1, flInvalid) else (0xFF, 0, flInvalid)

/-- `vrscale` (R291). -/
def vrscaleRun (cf : CF) (s : RunS) : RunS :=
  let v := s.T.vt
  let r := scaleOf v (cf.w1 % 16) (bitOf cf.w1 4) (s.T.root cf.b).acc
  let q := mapLanes s.T ⟨0, 0, 0, 0, 0, none⟩ 0 cf.a cf.k v.ew v.ew v.n 0 (fun _ _ => (r.2.1, 0))
  { s with T := q.1.orFlags vflagsAddr r.2.2, fr := s.fr.set (bitsOf cf.w1 5 5) (BitVec.ofNat 64 r.1), cyc := s.cyc + 10 }

/-- The array is released: the trigger's KEEP takes effect (R297, R220). -/
def ProgRun.release (r : ProgRun) (T : Tile) : Tile := (if r.keep then T else T.clearLaccs).settled

/-- `vaccrel` (R292): it acts only in the last group, which the preamble is not part of. -/
def vaccrelRun (r : ProgRun) (last : Bool) (s : RunS) : RunS :=
  let s1 := { s with cyc := s.cyc + 1 }
  if last && s.hold.isNone then { s1 with T := r.release s1.T, hold := some s1.cyc } else s1

/-! ## A body instruction -/

/-- A base operation or `vchain` inside a run: scalar fields name slots of the frame, memory is bounded by the window,
and no cause is raised (R287, R301, R302). -/
def chainRun (t now : Nat) (r : ProgRun) (cf : CF) (body : CBody) (s : RunS) : RunS :=
  let env : CEnv := ⟨t, now + s.cyc, slotOf s.fr cf.a, slotOf s.fr cf.b, slotOf s.fr cf.c, some (r.win, r.winSize)⟩
  let q := body s.T env 0
  match q.fault with
  | some _ => { s with cyc := s.cyc + 1 }
  | none =>
    { s with T := q.T.chainDone q, cyc := s.cyc + q.cycles,
             fr := match q.sout with
               | some w => s.fr.set cf.a w
               | none => s.fr }

/-- One instruction of a body, in group `g`; `last` says that it is the last group. -/
def bodyInstr (t now : Nat) (r : ProgRun) (h : Header) (g : Nat) (last : Bool) (w w1 : Nat) (s : RunS) : RunS :=
  let (a, b, c, k, minor) := fieldsOf w
  let cf : CF := ⟨a, b, c, k, minor, w1⟩
  if majorOf w = 0x31 then
    match chainBodyOf minor cf with
    | some body => chainRun t now r cf body s
    | none => s
  else if minor < 32 then chainRun t now r cf (vchainBody cf) s
  else
    match minor with
    | 0x41 => vaccRun t r.desc (g * h.g + w1 % 64) cf s
    | 0x42 => vaccredRun (now + s.cyc) r.desc g h.g cf s
    | 0x43 => vrscaleRun cf s
    | 0x44 => vaccrelRun r last s
    | _ => s

/-- Instructions in order. -/
def runList (t now : Nat) (r : ProgRun) (h : Header) (g : Nat) (last : Bool) (l : List (Nat × Nat × Nat)) (s : RunS) : RunS :=
  l.foldl (fun s x => bodyInstr t now r h g last x.2.1 x.2.2 s) s

/-- Groups from `g` on. -/
def runGroups (t now : Nat) (r : ProgRun) (h : Header) (groups : Nat) (l : List (Nat × Nat × Nat)) : Nat → Nat → RunS → RunS
  | 0, _, s => s
  | n + 1, g, s =>
    let s1 := runList t now r h g (g + 1 == groups) l s
    runGroups t now r h groups l n (g + 1) { s1 with fr := advance s1.fr }

/-- Groups of a run (R296). -/
def ProgRun.groups (r : ProgRun) (h : Header) : Nat := if r.epilogue then ceilDiv (mf r.desc 3 36 7) h.g else h.iter

/-- A run of a tile program, from the reading of its frame to its end (R296). -/
def Tile.programRun (T : Tile) (t now : Nat) : Tile :=
  match T.run with
  | none => T
  | some r =>
    let h := T.header r.prog
    let l := (T.bodyOf r.prog h.len h.pre h.len 0).getD []
    let n := r.groups h
    let s0 : RunS := { T := T, fr := T.readFrame r.frame, cyc := 4, hold := if r.released then some 0 else none }
    let s1 := runList t now r h 0 false (l.filter (fun x => x.1 < h.pre)) s0
    let s2 := runGroups t now r h n (l.filter (fun x => h.pre ≤ x.1)) n 0 s1
    let cyc := s2.cyc + 2
    let T1 := s2.T.writeFrame r.frame s2.fr
    let T2 := if r.epilogue && s2.hold.isNone then r.release T1 else T1
    let T3 := if r.epilogue then
        ((T2.mopDone (r.fl ||| s2.mfl) (r.cycles + cyc) r.stalls r.steps).setFld F.TPROG_RUNS_LAST_HOLD
          (satTo 32 (s2.hold.getD cyc))).matrixCycles cyc 0 0 (s2.hold.getD cyc)
      else T2
    let T4 := (T3.satFld F.TPROG_RUNS_RUNS 1).setFld F.TPROG_CYCLES_CYCLES (satTo 40 cyc)
    { T4.addFld F.C_RUN_COUNT cyc with run := none }

/-! ## The accumulator instructions as commands -/

/-- An instruction of MAJOR 0x32, MINOR 0x41 to 0x44. Where a run is pending that has group `g` and accepts the instruction
in its body, the run executes it in that group. Else it stands in the control-core stream, where it is undefined (R288). -/
def Tile.accInstr (T : Tile) (i : Instr) (f : FX) (minor g : Nat) (epilogueOnly : Bool)
    (act : ProgRun → Header → CF → RunS → RunS) : Tile :=
  let w0 := FXw f 0x32 minor
  match T.run.filter (fun r => !(epilogueOnly && !r.epilogue) && g < r.groups (T.header r.prog) &&
      bodyBad (T.header r.prog) false r.released w0 f.w1.toNat == none) with
  | none => T.queueOp 3 8 [] (T.entry i w0 f.w1.toNat 0 0 0 0 0 [] []) false (some 1) noCheck (fun T _ => .ok T)
  | some r =>
    let h := T.header r.prog
    let cf : CF := ⟨f.a.toNat, f.b.toNat, f.c.toNat, f.k.toNat, minor, f.w1.toNat⟩
    let fr := T.readFrame r.frame
    let s := act r h cf { T := T, fr := fr, hold := if r.released then some 0 else none }
    let T1 := if s.fr = fr then s.T else s.T.writeFrame r.frame s.fr
    { T1 with run := some { r with fl := r.fl ||| s.mfl, released := r.released || s.hold.isSome } }

/-! ## Meanings -/

/-- The run that a `tprog` starts, from its captured operands. -/
def tprogRun (e : QEntry) : ProgRun :=
  { entry := e, epilogue := false, prog := e.sb.toNat, frame := e.sc.toNat, win := wordField e.sa 0 22,
    winSize := wordField e.sa 24 22, desc := 0, keep := false, released := false, fl := 0, cycles := 0, stalls := 0,
    steps := 0 }

/-- The ranges of the run that a `tprog` starts: its window and result slots (R299), and the frame and program that it
reads. -/
def tprogRanges (T : Tile) (win prog frame : Word) : List (Bool × Nat × Nat) :=
  [(true, wordField win 0 22, wordField win 24 22), (true, frame.toNat + 128, 96), (false, frame.toNat, 256),
   (false, prog.toNat, 8 + 4 * (T.header prog.toNat).len)]

/-- The body of `tprog`: the run is pending. -/
def tprogBody (T : Tile) (e : QEntry) : QRes := .ok { T with run := some (tprogRun e) }

/-- `tprog` (R293): starts a run, after the checks of R294, which wait for earlier writes to the program and
the frame. C names the frame, B the program, A the window. -/
def execTprog (t : TileIx) (f : FX) (s : State) : Host.Outcome State Fault Refusal :=
  .next (s.onTile t (fun T =>
    let w0 := FXw f 0x32 0x40
    let win := T.sreg f.a.toNat
    let prog := T.sreg f.b.toNat
    let frame := T.sreg f.c.toNat
    let ranges := tprogRanges T win prog frame
    T.queueOp 3 8 [f.a.toNat, f.b.toNat, f.c.toNat]
      (T.entry (.tprog t f) w0 f.w1.toNat win prog frame 0 0 ranges ((List.range 8).map (fun r => (true, r))))
      (rangesMeet ranges.tail.tail T.openRanges)
      (firstBad [(f.k != 0 || f.w1 != 0, 2)]) (fun T => T.tprogCheck win prog frame w0 f.w1.toNat) tprogBody))

end Sys2Proof.Machine
end

