-- ==== Sys2Proof/Machine/SolvBase.lean ====
section
/-!
DEFINITION. The data of the batched solvers: descriptors, extents, the resident matrix, and the arithmetic of the range
contract (R312 to R318, R328, R329, R335 to R339).
-/
namespace Sys2Proof.Machine

/-! ## Descriptors (R317) -/

/-- A system descriptor. -/
structure SDesc where
  base : Nat
  method : Nat
  sparse : Bool
  warm : Bool
  policy : Nat
  fallback : Nat
  shiftMax : Nat
  rmode : Nat
  adj : Bool
  n : Nat
  rb : Int
  ired : Nat
  inMax : Nat
  outMax : Nat
  aval : Nat
  aidx : Nat
  aptr : Nat
  nnz : Nat
  bvec : Nat
  xvec : Nat
  gvec : Nat
  lvec : Nat
  work : Nat
  atol : Nat
  rtol : Nat
  rng : List Int
  status : Nat
  rsv : Bool

/-- Local address of a slot's descriptor (R312). -/
def Tile.sdescAt (T : Tile) (slot : Nat) : Nat := T.fld F.SOLV_BASE_BASE + 128 * slot

/-- The descriptor of a slot. -/
def Tile.sdesc (T : Tile) (slot : Nat) : SDesc :=
  let a := T.sdescAt slot
  let w := fun (i : Nat) => T.peek (a + 8 * i) 8
  let f := fun (i lo n : Nat) => bitsOf (w i) lo n
  { base := a, method := f 0 0 3, sparse := f 0 3 1 == 1, warm := f 0 4 1 == 1, policy := f 0 5 2, fallback := f 0 7 1,
    shiftMax := f 0 8 4, rmode := f 0 12 3, adj := f 0 15 1 == 1, n := f 0 16 13, rb := signed 8 (f 0 32 8),
    ired := f 0 40 6, inMax := f 0 48 8, outMax := f 0 56 8, aval := f 1 0 22, aidx := f 1 24 22, aptr := f 2 0 22,
    nnz := f 2 24 17, bvec := f 3 0 22, xvec := f 3 24 22, gvec := f 4 0 22, lvec := f 4 24 22, work := f 5 0 22,
    atol := w 6, rtol := w 7, rng := (List.range 8).map (fun q => signed 8 (f 8 (8 * q) 8)), status := w 9,
    rsv := [(0, 29, 3), (0, 46, 2), (1, 22, 2), (1, 46, 18), (2, 22, 2), (2, 41, 23), (3, 22, 2), (3, 46, 18), (4, 22, 2),
      (4, 46, 18), (5, 22, 42), (12, 0, 64), (13, 0, 64), (14, 0, 64), (15, 0, 64)].any (fun (i, lo, n) => f i lo n != 0) }

/-- Is an FP64 encoding finite? -/
def finite64 (x : Nat) : Bool := bitsOf x 52 11 != 2047
/-- A tolerance: finite and not negative. -/
def tolOk (x : Nat) : Bool := finite64 x && (bitOf x 63 == false || x % 2 ^ 63 == 0)

/-- Reserved values and combinations (R313, R317, R321). -/
def SDesc.ok (d : SDesc) : Bool :=
  !d.rsv && d.method ≤ 4 && d.policy ≤ 2 && d.rmode ≤ 3 && 1 ≤ d.ired && d.ired ≤ 60 && 1 ≤ d.inMax && 1 ≤ d.outMax &&
  1 ≤ d.n && d.n ≤ (if d.sparse then 4096 else 128) && (d.method != 4 || !d.sparse && d.inMax == 1) &&
  (if d.sparse then 1 ≤ d.nnz && d.nnz ≤ 65536 else d.aidx == 0 && d.aptr == 0 && d.nnz == 0) &&
  (d.adj || d.gvec == 0 && d.lvec == 0) && tolOk d.atol && tolOk d.rtol

/-- Bytes of the work area (R316). -/
def SDesc.workBytes (d : SDesc) : Nat :=
  match d.method with
  | 0 => 20 * d.n
  | 1 => 24 * d.n
  | 2 => 36 * d.n
  | 3 => 56 * d.n + 1024
  | _ => 8 * d.n * d.n + 26 * d.n

/-- Stored values of A. -/
def SDesc.z (d : SDesc) : Nat := if d.sparse then d.nnz else d.n * d.n

/-- An extent: base, bytes, alignment, whether the sequencer writes it, and whether it is an array of A. -/
structure Ext where
  a : Nat
  n : Nat
  al : Nat
  written : Bool
  isA : Bool
  deriving DecidableEq, Repr

/-- The extents of a slot beside its descriptor. -/
def SDesc.exts (d : SDesc) : List Ext :=
  [⟨d.aval, 8 * d.z, 8, false, true⟩] ++
  (if d.sparse then [⟨d.aidx, 2 * d.nnz, 2, false, true⟩, ⟨d.aptr, 4 * (d.n + 1), 4, false, true⟩] else []) ++
  [⟨d.bvec, 8 * d.n, 8, false, false⟩, ⟨d.xvec, 8 * d.n, 8, true, false⟩] ++
  (if d.adj then [⟨d.gvec, 8 * d.n, 8, false, false⟩, ⟨d.lvec, 8 * d.n, 8, true, false⟩] else []) ++
  [⟨d.work, d.workBytes, 64, true, false⟩]

/-- The extent of a descriptor. -/
def SDesc.own (d : SDesc) : Ext := ⟨d.base, 128, 128, true, false⟩

/-! ## Resident data (R314) -/

/-- An FP64 of the tile store. -/
def Tile.f64 (T : Tile) (a : Nat) : Exact := decodeNum 0 0 (T.peek a 8)

/-- A vector of FP64 encodings. -/
def Tile.vec64 (T : Tile) (a n : Nat) : List Nat := (List.range n).map (fun i => T.peek (a + 8 * i) 8)

/-- The rows of A: column and value. -/
def Tile.rowsOf (T : Tile) (d : SDesc) : List (List (Nat × Exact)) :=
  (List.range d.n).map (fun i =>
    if d.sparse then
      let lo := T.peek (d.aptr + 4 * i) 4
      let hi := T.peek (d.aptr + 4 * (i + 1)) 4
      (List.range (hi - lo)).map (fun k => (T.peek (d.aidx + 2 * (lo + k)) 2, T.f64 (d.aval + 8 * (lo + k))))
    else (List.range d.n).map (fun j => (j, T.f64 (d.aval + 8 * (i * d.n + j)))))

/-- Rows of the transpose, each in ascending order of the original row (R345). -/
def transposeRows {α : Type} (n : Nat) (rows : List (List (Nat × α))) : List (List (Nat × α)) :=
  let es := (List.range rows.length).zip rows
  (List.range n).map (fun j => es.flatMap (fun r => (r.2.filter (fun e => e.1 == j)).map (fun e => (r.1, e.2))))

/-! ## Derived data (R316, R333) -/

/-- Derived data of a slot: H at F7, and for LU the FP64 factors in one matrix, with the row that stands in each place. -/
structure Derived where
  h : List Int
  lu : List (List Nat)
  perm : List Nat
  deriving DecidableEq, Repr

/-- No derived data. -/
def Derived.empty : Derived := ⟨[], [], []⟩

/-- Where the derived data lie in the work area: behind R_OUT. DESIGN CHOICE (log 99): R316 says that the factors are there and
gives no layout; the model puts the factors first, then H, then the row numbers. -/
def SDesc.drvAt (d : SDesc) : Nat := d.work + 8 * d.n
/-- Bytes of the factors. -/
def SDesc.luBytes (d : SDesc) : Nat := if d.method = 4 then 8 * d.n * d.n else 0
/-- Bytes of the derived data. -/
def SDesc.drvBytes (d : SDesc) : Nat :=
  match d.method with
  | 0 => 4 * d.n
  | 4 => d.luBytes + 6 * d.n
  | _ => 0

/-- The derived data of a slot as its work area holds them. -/
def Tile.derivedOf (T : Tile) (d : SDesc) : Derived :=
  if d.drvBytes = 0 then Derived.empty
  else
    let a := d.drvAt + d.luBytes
    { h := (List.range d.n).map (fun i => signed 32 (T.peek (a + 4 * i) 4)),
      lu := if d.method = 4 then (List.range d.n).map (fun i => T.vec64 (d.drvAt + 8 * d.n * i) d.n) else [],
      perm := if d.method = 4 then (List.range d.n).map (fun i => T.peek (a + 4 * d.n + 2 * i) 2) else [] }

/-- Write the derived data of a slot. -/
def Tile.putDerived (T : Tile) (d : SDesc) (v : Derived) : Tile :=
  if d.drvBytes = 0 then T
  else
    T.poke d.drvAt d.drvBytes (packElems 64 v.lu.flatten +
      2 ^ (8 * d.luBytes) * (packElems 32 (v.h.map (wrapTo 32)) + 2 ^ (32 * d.n) * packElems 16 v.perm))

/-! ## Running state -/

/-- What a slot's solve carries: binary points, flags, RANGE_HITS, SHIFTS, RANGE_QTY, inner iterations, cycles, and
where a fence stops it the inner iterations left. -/
structure SV where
  f : List Int
  fl : Nat
  hits : Nat
  shifts : Nat
  qty : Nat
  inner : Nat
  cyc : Nat
  budget : Option Nat

/-- The outcome of a part of a solve: a value, a SHIFT of a binary point, a range trap with quantity and element, or a
stop by a fence. -/
inductive SR (α : Type) where
  | ok (a : α) (s : SV)
  | shift (s : SV)
  | trap (s : SV) (qty elem : Nat)
  | stop (s : SV)

/-- The element index that a range trap of a part reports (R339). -/
def SR.atElem {α : Type} (i : Nat) (r : SR α) : SR α :=
  match r with
  | .trap s q _ => .trap s q i
  | r => r

/-- Go on where a part gave a value. -/
def SR.andThen {α β : Type} (r : SR α) (f : α → SV → SR β) : SR β :=
  match r with
  | .ok a s => f a s
  | .shift s => .shift s
  | .trap s q e => .trap s q e
  | .stop s => .stop s

/-- Binary point of quantity `q`. -/
def SV.pt (s : SV) (q : Nat) : Int := (s.f[q]?).getD 0
/-- Add flags. -/
def SV.addFl (s : SV) (fl : Nat) : SV := { s with fl := s.fl ||| fl }
/-- Add cycles. -/
def SV.spend (s : SV) (c : Nat) : SV := { s with cyc := s.cyc + c }

/-- An FX32 value. -/
def fxVal (f z : Int) : Exact := .ofInt z (-f)

/-- Round to FX32 at a binary point: the stored integer and the flags of R179. -/
def rndFx (mode : Nat) (f : Int) (x : Exact) : Int × Nat :=
  let r := roundNum 10 f mode false 0 x
  (signed 32 r.1, r.2)

/-- The least e ≥ 1 for which every value fits at f − e; beyond 300 none does. -/
def shiftFor (mode : Nat) (f : Int) (xs : List Exact) : Nat → Nat → Option Nat
  | 0, _ => none
  | fuel + 1, e =>
    if xs.all (fun x => (rndFx mode (f - e) x).2 &&& flInvalid == 0) then some e else shiftFor mode f xs fuel (e + 1)

/-- Is an element of a vector operation out of range? A NaN is not: it becomes 0 with INVALID (R179). -/
def violates (p : (Int × Nat) × Exact) : Bool := p.1.2 &&& flInvalid != 0 && !p.2.isNan

/-- One vector operation: round its elements as quantity `q`, with the range policy (R336, R338, R339). -/
def rndVec (d : SDesc) (s : SV) (q : Nat) (xs : List Exact) : SR (List Int) :=
  let f := s.pt q
  let rs := xs.map (rndFx d.rmode f)
  let bad := (rs.zip xs).filter violates
  let inx := flagIf (rs.any (fun r => r.2 &&& flInexact != 0)) flInexact ||| flagIf (xs.any Exact.isNan) flInvalid
  if bad.isEmpty then .ok (rs.map (·.1)) (s.addFl inx)
  else
    let s := { s.addFl (inx ||| flRange) with hits := s.hits + bad.length, qty := q }
    let first := ((rs.zip xs).findIdx? violates).getD 0
    let act := fun (p : Nat) => if p = 0 then SR.ok (rs.map (·.1)) s else .trap s q first
    match d.policy with
    | 0 => act 0
    | 1 => act 1
    | _ =>
      match shiftFor d.rmode f (bad.map (·.2)) 300 1 with
      | some e =>
        if s.shifts = d.shiftMax || f - e < -128 then act d.fallback
        else .shift { s with shifts := s.shifts + 1, f := s.f.set q (f - e) }
      | none => act d.fallback

/-- Exact dot product of two integer vectors. -/
def dotZ (a b : List Int) : Int := (a.zip b).foldl (fun acc p => acc + p.1 * p.2) 0

/-- The exact value of a dot product of quantities `qa` and `qb`. -/
def SV.dot (s : SV) (qa qb : Nat) (a b : List Int) : Exact := .ofInt (dotZ a b) (-(s.pt qa + s.pt qb))

/-- A quantity's values. -/
def SV.vals (s : SV) (q : Nat) (a : List Int) : List Exact := a.map (fxVal (s.pt q))

/-- Rounded once to FP64 RNE. -/
def r64 (x : Exact × Nat) : Exact × Nat :=
  let r := roundNum 0 0 0 false 0 x.1
  (decodeNum 0 0 r.1, x.2 ||| r.2)

/-- A ratio of exact values as an FP64 coefficient (R329). -/
def c64 (x y : Exact) : Exact × Nat :=
  r64 (x.div y)

/-- The correctly rounded square root of an exact dot product (R329). -/
def sqrt64 (x : Exact) : Exact × Nat := r64 (x.sqrtPos 53, 0)

/-- x + c × y, exactly. -/
def axpy (x : List Exact) (c : Exact) (y : List Exact) : List Exact :=
  (x.zip y).map (fun p => (p.1.add false (c.mul p.2).1).1)

/-! ## Cycles (R347) -/

/-- MV. -/
def SDesc.mvC (d : SDesc) : Nat := 12 + ceilDiv d.z (if d.sparse then 128 else 256) + ceilDiv d.n 32
/-- RES. -/
def SDesc.resC (d : SDesc) : Nat := 80 + ceilDiv (9 * d.z) (if d.sparse then 512 else 1024) + 2 * ceilDiv d.n 32
/-- DOT. -/
def SDesc.dotC (d : SDesc) : Nat := 8 + ceilDiv d.n 64
/-- AXPY. -/
def SDesc.axpyC (d : SDesc) : Nat := 6 + ceilDiv d.n 128
/-- XUPD. -/
def SDesc.xupdC (d : SDesc) : Nat := 8 + ceilDiv d.n 64
/-- INIT per update. -/
def SDesc.initC (d : SDesc) : Nat := if d.method = 4 then 0 else d.axpyC + d.dotC
/-- One inner iteration; `j` is the step 1 to 8 of GMRES(8). -/
def SDesc.iterC (d : SDesc) (j : Nat) : Nat :=
  match d.method with
  | 0 => d.mvC + d.axpyC + d.dotC
  | 1 => d.mvC + 2 * d.dotC + 3 * d.axpyC + 48
  | 2 => 2 * d.mvC + 5 * d.dotC + 4 * d.axpyC + 72
  | 3 => d.mvC + (j + 1) * (d.dotC + d.axpyC) + 48
  | _ => 2 * (6 * d.n + ceilDiv (d.n * d.n) 256)
/-- A cycle end of GMRES(8). -/
def SDesc.cycleC (d : SDesc) : Nat := 2 * d.axpyC + d.mvC + d.dotC + 64
/-- Refresh. -/
def SDesc.refreshC (d : SDesc) : Nat :=
  match d.method with
  | 0 => 12 + ceilDiv d.n 16
  | 4 => 16 * d.n + ceilDiv (d.n * d.n * d.n) 192
  | _ => 0

/-- Begin an inner iteration, unless a fence stops the slot here. -/
def SV.begin (s : SV) (c : Nat) : Option SV :=
  match s.budget with
  | some 0 => none
  | some (k + 1) => some { s with inner := s.inner + 1, cyc := s.cyc + c, budget := some k }
  | none => some { s with inner := s.inner + 1, cyc := s.cyc + c }

end Sys2Proof.Machine
end

