-- ==== Sys2Proof/Machine/SolvInner.lean ====
section
/-!
DEFINITION. The inner methods of the solvers and their derived data (R330 to R333, R345). The order of the FP64
operations of GMRES(8)'s rotations and triangle is DEDUCED (log entry 42): the usual Givens form, left to right.
-/
namespace Sys2Proof.Machine

/-- What the inner methods work with: the descriptor, the rows of A, the direction, and the derived data. -/
structure SCtx where
  d : SDesc
  rows : List (List (Nat × Exact))
  adj : Bool
  drv : Derived

/-- Cut a flat list into rows of the given lengths. -/
def cutRows {α : Type} : List Nat → List α → List (List α)
  | [], _ => []
  | n :: ns, l => l.take n :: cutRows ns (l.drop n)

/-- A in FX32 at F0, converted as it is read, in the direction of the solve (R314). -/
def SCtx.fxA (c : SCtx) (s : SV) : SR (List (List (Nat × Int))) :=
  (rndVec c.d s 0 (c.rows.flatMap (fun r => r.map (·.2)))).andThen fun zs s =>
    let rs := (c.rows.zip (cutRows (c.rows.map List.length) zs)).map (fun p => (p.1.map (·.1)).zip p.2)
    .ok (if c.adj then transposeRows c.d.n rs else rs) s

/-- The exact product of A with a vector, as integers of weight 2^−(F0 + Fv). -/
def mvZ (rows : List (List (Nat × Int))) (v : List Int) : List Int :=
  rows.map (fun r => r.foldl (fun acc e => acc + e.2 * (v[e.1]?).getD 0) 0)

/-- rnd_q of `base` plus sign × A @ v, v being quantity `qv`. -/
def SCtx.mv (c : SCtx) (s : SV) (q qv : Nat) (base : Option (List Exact)) (v : List Int) : SR (List Int) :=
  (c.fxA s).andThen fun rows s =>
    let ys := (mvZ rows v).map (fun z => Exact.ofInt z (-(s.pt 0 + s.pt qv)))
    rndVec c.d s q (match base with
      | none => ys
      | some b => (b.zip ys).map (fun p => (p.1.add false p.2.negate).1))

/-- ρ × 2^(2 × IRED) ≤ ρ0 (R330). -/
def SDesc.reduced (d : SDesc) (rho rho0 : Int) : Bool := rho * (2 ^ (2 * d.ired) : Nat) ≤ rho0

/-- Jacobi. -/
def jacobiLoop (c : SCtx) (rs : List Int) (rho0 : Int) : Nat → List Int → List Int → SV → SR (List Int × Bool)
  | 0, d, _, s => .ok (d, false) s
  | fuel + 1, d, e, s =>
    match s.begin (c.d.iterC 0) with
    | none => .stop s
    | some s =>
      let he := (c.drv.h.zip e).map (fun p => Exact.ofInt (p.1 * p.2) (-(s.pt 7 + s.pt 1)))
      (rndVec c.d s 2 (((s.vals 2 d).zip he).map (fun p => (p.1.add false p.2).1))).andThen fun d s =>
      (c.mv s 1 2 (some (s.vals 1 rs)) d).andThen fun e s =>
        if c.d.reduced (dotZ e e) rho0 then .ok (d, false) s else jacobiLoop c rs rho0 fuel d e s

/-- CG. -/
def cgLoop (c : SCtx) (rho0 : Int) : Nat → List Int → List Int → List Int → Int → SV → SR (List Int × Bool)
  | 0, d, _, _, _, s => .ok (d, false) s
  | fuel + 1, d, res, p, rho, s =>
    match s.begin (c.d.iterC 0) with
    | none => .stop s
    | some s =>
      (c.mv s 4 3 none p).andThen fun q s =>
        if dotZ p q ≤ 0 then .ok (d, true) s
        else
          let alpha := c64 (.ofInt rho (-(2 * s.pt 1))) (s.dot 3 4 p q)
          let s := s.addFl alpha.2
          (rndVec c.d s 2 (axpy (s.vals 2 d) alpha.1 (s.vals 3 p))).andThen fun d s =>
          (rndVec c.d s 1 (axpy (s.vals 1 res) alpha.1.negate (s.vals 4 q))).andThen fun res s =>
            let rn := dotZ res res
            let beta := c64 (.ofInt rn 0) (.ofInt rho 0)
            (rndVec c.d (s.addFl beta.2) 3 (axpy (s.vals 1 res) beta.1 (s.vals 3 p))).andThen fun p s =>
              if c.d.reduced rn rho0 then .ok (d, false) s else cgLoop c rho0 fuel d res p rn s

/-- BiCGStab. -/
def bicgLoop (c : SCtx) (rho0 : Int) (rh : List Int) :
    Nat → List Int → List Int → List Int → Int → SV → SR (List Int × Bool)
  | 0, d, _, _, _, s => .ok (d, false) s
  | fuel + 1, d, res, p, rho, s =>
    match s.begin (c.d.iterC 0) with
    | none => .stop s
    | some s =>
      (c.mv s 4 3 none p).andThen fun v s =>
        if dotZ rh v = 0 then .ok (d, true) s
        else
          let alpha := c64 (.ofInt rho (-(2 * s.pt 1))) (s.dot 1 4 rh v)
          (rndVec c.d (s.addFl alpha.2) 5 (axpy (s.vals 1 res) alpha.1.negate (s.vals 4 v))).andThen fun sv s =>
          (c.mv s 6 5 none sv).andThen fun t s =>
            let omega := if dotZ t t = 0 then (Exact.zero, 0) else c64 (s.dot 6 5 t sv) (s.dot 6 6 t t)
            let s := s.addFl omega.2
            if omega.1.isZero then .ok (d, true) s
            else
              (rndVec c.d s 2 (axpy (axpy (s.vals 2 d) alpha.1 (s.vals 3 p)) omega.1 (s.vals 5 sv))).andThen fun d s =>
              (rndVec c.d s 1 (axpy (s.vals 5 sv) omega.1.negate (s.vals 6 t))).andThen fun res s =>
                let rn := dotZ rh res
                if rn = 0 && res.any (· != 0) then .ok (d, true) s
                else
                  let beta := c64 ((Exact.ofInt rn 0).mul alpha.1).1 ((Exact.ofInt rho 0).mul omega.1).1
                  let bo := (beta.1.mul omega.1).1
                  (rndVec c.d (s.addFl beta.2) 3
                    (axpy (axpy (s.vals 1 res) beta.1 (s.vals 3 p)) bo.negate (s.vals 4 v))).andThen fun p s =>
                    if c.d.reduced (dotZ res res) rho0 then .ok (d, false) s
                    else bicgLoop c rho0 rh fuel d res p rn s

/-! ## GMRES(8) -/

/-- A cycle in progress: the basis at F6, the rotated columns, the rotations, and γ_0 to γ_j. -/
structure GM where
  v : List (List Int)
  r : List (List Exact)
  rot : List (Exact × Exact)
  gam : List Exact

/-- FP64 product, sum and quotient with their flags. -/
def mul64 (x y : Exact) : Exact × Nat := r64 (x.mul y)
/-- FP64 sum. -/
def add64 (x y : Exact) : Exact × Nat := r64 (x.add false y)

/-- One rotation of a pair. -/
def rotate (cs : Exact × Exact) (a b : Exact) : (Exact × Exact) × Nat :=
  let p := mul64 cs.1 a
  let q := mul64 cs.2 b
  let u := mul64 cs.2.negate a
  let w := mul64 cs.1 b
  let x := add64 p.1 q.1
  let y := add64 u.1 w.1
  ((x.1, y.1), p.2 ||| q.2 ||| u.2 ||| w.2 ||| x.2 ||| y.2)

/-- Apply the earlier rotations to a column. -/
def rotateCol : List (Exact × Exact) → List Exact → List Exact × Nat
  | cs :: rs, a :: b :: l =>
    let q := rotate cs a b
    let r := rotateCol rs (q.1.2 :: l)
    (q.1.1 :: r.1, q.2 ||| r.2)
  | _, l => (l, 0)

/-- Element `i` of a list of values. -/
def exAt (l : List Exact) (i : Nat) : Exact := (l[i]?).getD .zero

/-- The new rotation for the last two entries of a column, and the entry it leaves. -/
def givens (a b : Exact) : (Exact × Exact) × Exact × Nat :=
  let p := mul64 a a
  let q := mul64 b b
  let x := add64 p.1 q.1
  let r := sqrt64 x.1
  let c := c64 a r.1
  let s := c64 b r.1
  ((c.1, s.1), r.1, p.2 ||| q.2 ||| x.2 ||| r.2 ||| c.2 ||| s.2)

/-- Orthogonalise w against the basis in ascending order: the column h and the w left. -/
def arnoldi (c : SCtx) : List (List Int) → List Int → List Exact → SV → SR (List Int × List Exact)
  | [], w, h, s => .ok (w, h) s
  | v :: vs, w, h, s =>
    let x := r64 (s.dot 4 6 w v, 0)
    (rndVec c.d (s.addFl x.2) 4 (axpy (s.vals 4 w) x.1.negate (s.vals 6 v))).andThen fun w s =>
      arnoldi c vs w (h ++ [x.1]) s

/-- y from the triangle, the last component first. -/
def backSub (r : List (List Exact)) (gam : List Exact) : Nat → List Exact → Nat → List Exact × Nat
  | 0, ys, fl => (ys, fl)
  | i + 1, ys, fl =>
    let q := ((List.range ys.length).zip ys).foldl (fun (acc : Exact × Nat) p =>
      let m := mul64 (exAt ((r[i + 1 + p.1]?).getD []) i) p.2
      let a := add64 acc.1 m.1.negate
      (a.1, acc.2 ||| m.2 ||| a.2)) (exAt gam i, fl)
    let y := c64 q.1 (exAt ((r[i]?).getD []) i)
    backSub r gam i (y.1 :: ys) (q.2 ||| y.2)

/-- The end of a cycle: d = rnd_D(d + Σ y_i v_i). -/
def gmresEnd (c : SCtx) (g : GM) (d : List Int) (s : SV) : SR (List Int) :=
  let y := backSub g.r g.gam g.r.length [] 0
  let s := (s.addFl y.2).spend c.d.cycleC
  rndVec c.d s 2 ((y.1.zip g.v).foldl (fun acc p => axpy acc p.1 (s.vals 6 p.2)) (s.vals 2 d))

/-- The start of a cycle from a residual: none where the residual is zero. -/
def gmresStart (c : SCtx) (res : List Int) (s : SV) : SR (Option GM) :=
  let g0 := sqrt64 (s.dot 1 1 res res)
  if g0.1.isZero then .ok none s
  else
    let inv := g0.1.recip.1
    (rndVec c.d (s.addFl g0.2) 6 ((s.vals 1 res).map (fun x => (x.mul inv).1))).andThen fun v s =>
      .ok (some ⟨[v], [], [], [g0.1]⟩) s

/-- Steps of GMRES(8) and the cycles they form; `target` is ‖rs‖₂ × 2^−IRED. -/
def gmresLoop (c : SCtx) (rs : List Int) (target : Exact) : Nat → GM → List Int → SV → SR (List Int × Bool)
  | 0, g, d, s => if g.r.isEmpty then .ok (d, false) s else (gmresEnd c g d s).andThen fun d s => .ok (d, false) s
  | fuel + 1, g, d, s =>
    let j := g.r.length
    match s.begin (c.d.iterC (j + 1)) with
    | none => .stop s
    | some s =>
      (c.mv s 4 6 none ((g.v[j]?).getD [])).andThen fun w s =>
      (arnoldi c g.v w [] s).andThen fun wh s =>
        let hn := sqrt64 (s.dot 4 4 wh.1 wh.1)
        let col := rotateCol g.rot (wh.2 ++ [hn.1])
        let gv := givens (exAt col.1 j) (exAt col.1 (j + 1))
        let ga := mul64 gv.1.1 (exAt g.gam j)
        let gb := mul64 gv.1.2.negate (exAt g.gam j)
        let s := s.addFl (hn.2 ||| col.2 ||| gv.2.2 ||| ga.2 ||| gb.2)
        let g : GM := { g with r := g.r ++ [col.1.take j ++ [gv.2.1]], rot := g.rot ++ [gv.1],
                               gam := g.gam.take j ++ [ga.1, gb.1] }
        if hn.1.isZero then (gmresEnd c g d s).andThen fun d s => .ok (d, false) s
        else
          (rndVec c.d s 6 ((s.vals 4 wh.1).map (fun x => (x.mul hn.1.recip.1).1))).andThen fun vn s =>
            if !target.lt (gb.1.withSign false) then (gmresEnd c g d s).andThen fun d s => .ok (d, false) s
            else
            if j = 7 then
              (gmresEnd c g d s).andThen fun d s =>
                if fuel = 0 then .ok (d, false) s
                else
                  (c.mv s 1 2 (some (s.vals 1 rs)) d).andThen fun res s =>
                  (gmresStart c res s).andThen fun g' s =>
                    match g' with
                    | none => .ok (d, false) s
                    | some g' => gmresLoop c rs target fuel g' d s
            else gmresLoop c rs target fuel { g with v := g.v ++ [vn] } d s

/-! ## LU -/

/-- The factors in FX32 at F0. -/
def SCtx.fxLU (c : SCtx) (s : SV) : SR (List (List Int)) :=
  (rndVec c.d s 0 (c.drv.lu.flatMap (fun r => r.map (decodeNum 0 0)))).andThen fun zs s =>
    .ok (cutRows (c.drv.lu.map List.length) zs) s

/-- A factor. -/
def luAt (m : List (List Int)) (i k : Nat) : Int := (((m[i]?).getD [])[k]?).getD 0
/-- An element of an integer vector. -/
def zAt (l : List Int) (i : Nat) : Int := (l[i]?).getD 0

/-- One element of a triangular solve: rnd_D or rnd_R of `x` less the exact sum of factor × value over the indices. -/
def luElem (d : SDesc) (s : SV) (q : Nat) (x : Exact) (fs : List (Int × Int)) : SR Int :=
  let z := fs.foldl (fun acc p => acc + p.1 * p.2) (0 : Int)
  (rndVec d s q [(x.add false (Exact.ofInt z (-(s.pt 0 + s.pt 2))).negate).1]).andThen fun l s => .ok (zAt l 0) s

/-- rnd_D(t × H[i]), t a backward partial sum. -/
def luScale (c : SCtx) (s : SV) (i : Nat) (t : Int) : SR Int :=
  (rndVec c.d s 2 [.ofInt (t * zAt c.drv.h i) (-(s.pt 1 + s.pt 7))]).andThen fun l s => .ok (zAt l 0) s

/-- A triangular solve over indices in the given order; a range trap reports the index (R339); `f` picks the factor of a pair, `scaled` applies H, `src` gives
the right side. -/
def luPass (c : SCtx) (f : Nat → Nat → Int) (scaled : Bool) (src : SV → Nat → Exact) :
    List Nat → List (Nat × Int) → SV → SR (List (Nat × Int))
  | [], acc, s => .ok acc s
  | i :: is, acc, s =>
    let fs := acc.map (fun p => (f i p.1, p.2))
    ((luElem c.d s (if scaled then 1 else 2) (src s i) fs).atElem i).andThen fun t s =>
    (if scaled then (luScale c s i t).atElem i else .ok t s).andThen fun y s => luPass c f scaled src is (acc ++ [(i, y)]) s

/-- The value found for an index. -/
def passAt (l : List (Nat × Int)) (i : Nat) : Int := ((l.find? (fun p => p.1 == i)).map (·.2)).getD 0

/-- The one iteration of LU (R331, R345). -/
def luSolve (c : SCtx) (rs : List Int) (s : SV) : SR (List Int × Bool) :=
  match s.begin (c.d.iterC 0) with
  | none => .stop s
  | some s =>
    (c.fxLU s).andThen fun m s =>
      let up := List.range c.d.n
      if c.adj then
        (luPass c (fun i k => luAt m k i) true (fun s i => fxVal (s.pt 1) (zAt rs i)) up [] s).andThen fun z s =>
        (luPass c (fun i k => luAt m k i) false (fun s i => fxVal (s.pt 2) (passAt z i)) up.reverse [] s).andThen fun w s =>
          .ok (up.map (fun r => ((up.find? (fun i => (c.drv.perm[i]?).getD i == r)).map (passAt w)).getD 0), false) s
      else
        (luPass c (luAt m) false (fun s i => fxVal (s.pt 1) (zAt rs ((c.drv.perm[i]?).getD i))) up [] s).andThen fun y s =>
        (luPass c (luAt m) true (fun s i => fxVal (s.pt 2) (passAt y i)) up.reverse [] s).andThen fun x s =>
          .ok (up.map (passAt x), false) s

/-- The inner solve from rs: the correction at F2, and whether it broke down (R330, R331). -/
def inner (c : SCtx) (rs : List Int) (s : SV) : SR (List Int × Bool) :=
  let z := rs.map (fun _ => (0 : Int))
  let s := s.spend c.d.initC
  let rho := dotZ rs rs
  match c.d.method with
  | 0 => jacobiLoop c rs rho c.d.inMax z rs s
  | 1 => (rndVec c.d s 3 (s.vals 1 rs)).andThen fun p s => cgLoop c rho c.d.inMax z rs p rho s
  | 2 => (rndVec c.d s 3 (s.vals 1 rs)).andThen fun p s => bicgLoop c rho rs c.d.inMax z rs p rho s
  | 3 =>
    (gmresStart c rs s).andThen fun g s =>
      match g with
      | none => .ok (z, false) s
      | some g => gmresLoop c rs ((exAt g.gam 0).mul (.fin false 1 1 (-(c.d.ired : Int)))).1 c.d.inMax g z s
  | _ => luSolve c rs s

/-! ## Refresh (R333) -/

/-- The element at (i, j) of a matrix of FP64 values. -/
def mAt (m : List (List Exact)) (i j : Nat) : Exact := exAt ((m[i]?).getD []) j

/-- The row of the pivot of column `k`: the largest magnitude, the lowest row on a tie. -/
def pivotRow (m : List (List Exact)) (k n : Nat) : Nat :=
  (idxFrom k n).foldl (fun best i =>
    if ((mAt m best k).withSign false).lt ((mAt m i k).withSign false) then i else best) k

/-- Swap two elements. -/
def swapAt {α : Type} (l : List α) (i j : Nat) : List α :=
  match l[i]?, l[j]? with
  | some x, some y => (l.set i y).set j x
  | _, _ => l

/-- Gaussian elimination with partial pivoting; the multipliers stay below the diagonal. No factors where a pivot is zero. The
flags are those raised until then. -/
def luFactor (n : Nat) : Nat → List (List Exact) → List Nat → Nat → Option (List (List Exact) × List Nat) × Nat
  | 0, m, p, fl => (some (m, p), fl)
  | fuel + 1, m, p, fl =>
    let k := n - (fuel + 1)
    let r := pivotRow m k n
    let m := swapAt m k r
    let p := swapAt p k r
    if (mAt m k k).isZero then (none, fl)
    else
      let piv := (m[k]?).getD []
      let rows := (List.range n).zip m
      let out := rows.map (fun x =>
        if x.1 ≤ k then (x.2, 0)
        else
          let f := c64 (exAt x.2 k) (exAt piv k)
          let es := ((List.range n).zip x.2).map (fun e =>
            if e.1 < k then (e.2, 0)
            else if e.1 = k then (f.1, f.2)
            else r64 (f.1.negate.fma false (exAt piv e.1) e.2))
          (es.map (·.1), (es.map (·.2)).foldl (· ||| ·) 0))
      luFactor n fuel (out.map (·.1)) p ((out.map (·.2)).foldl (· ||| ·) fl)

/-- Rebuild the derived data: none where the slot is singular. -/
def refresh (c : SCtx) (s : SV) : SR (Option Derived) :=
  match c.d.method with
  | 0 =>
    let diag := (List.range c.d.n).map (fun i =>
      (((c.rows[i]?).getD []).find? (fun e => e.1 == i)).map (·.2) |>.getD .zero)
    if diag.any Exact.isZero then .ok none s
    else (rndVec c.d (s.spend c.d.refreshC) 7 (diag.map (fun x => x.recip.1))).andThen fun h s => .ok (some ⟨h, [], []⟩) s
  | 4 =>
    match luFactor c.d.n c.d.n (c.rows.map (fun r => r.map (·.2))) (List.range c.d.n) 0 with
    | (none, fl) => .ok none (s.addFl fl)
    | (some (m, p), fl) =>
      (rndVec c.d ((s.addFl fl).spend c.d.refreshC) 7 ((List.range c.d.n).map (fun i => (mAt m i i).recip.1))).andThen
        fun h s => .ok (some ⟨h, m.map (fun r => r.map (fun x => (roundNum 0 0 0 false 0 x).1)), p⟩) s
  | _ => .ok (some Derived.empty) s

end Sys2Proof.Machine
end

