-- ==== Sys2Proof/Machine/Solver.lean ====
section
/-!
DEFINITION. The batched solvers: the refinement loop (R327), outcomes (R334), traps and stops (R340 to R344), and the
solver instructions (R319 to R326). A solver instruction runs whole when it is dispatched; one that a fence stops is
the command SOLVER_FENCE_STOP.
-/
namespace Sys2Proof.Machine

/-! ## The residual -/

/-- b_i − Σ a_ij x_j in a long accumulator, with flags. -/
def residRow (row : List (Nat × Exact)) (x : List Exact) (b : Exact) : Lacc × Nat :=
  row.foldl (fun (acc : Lacc × Nat) e =>
    let p := e.2.mul (exAt x e.1)
    let q := acc.1.add p.1.negate
    (q.1, acc.2 ||| p.2 ||| q.2)) (Lacc.zero.add b)

/-- The residual vector. -/
def residual (rows : List (List (Nat × Exact))) (x b : List Exact) : List (Lacc × Nat) :=
  (rows.zip b).map (fun p => residRow p.1 x p.2)

/-- max |r_i|: NaN or infinity where an element is in a special state. -/
def maxAbs (xs : List Exact) : Exact :=
  if xs.any Exact.isNan then .nan false
  else xs.foldl (fun m x => if m.lt (x.withSign false) then x.withSign false else m) .zero

/-- Is a value finite? -/
def isFin : Exact → Bool
  | .fin _ _ _ _ => true
  | _ => false

/-! ## The refinement loop (R327) -/

/-- How a slot's solve ends: an outcome code, or a range trap with quantity and element; the vector, the updates, the
last maximum and σ. -/
structure SEnd where
  outcome : Nat
  trap : Option (Nat × Nat)
  x : List Nat
  updates : Nat
  s : SV
  m : Option Exact
  sigma : Option Int

/-- x × 2^k. -/
def Exact.scale (k : Int) : Exact → Exact
  | .fin s n d e => .fin s n d (e + k)
  | y => y

/-- The correction of one update, repeated after each SHIFT from the same residual and σ (R338). -/
def correction (c : SCtx) (rs : List Exact) : Nat → SV → SR (List Int × Bool)
  | 0, s => .shift s
  | fuel + 1, s =>
    match (rndVec c.d s 1 rs).andThen fun z s => inner c z s with
    | .shift s' => correction c rs fuel s'
    | r => r

/-- The loop from an iterate: `x` are FP64 encodings. -/
def refine (c : SCtx) (b : List Exact) : Nat → List Nat → Nat → Option Int → SV → SEnd
  | 0, x, up, sg, s => ⟨5, none, x, up, s, none, sg⟩
  | fuel + 1, x, up, sg, s =>
    let xv := x.map (decodeNum 0 0)
    let rr := residual (if c.adj then transposeRows c.d.n c.rows else c.rows) xv b
    let s := (s.addFl ((rr.map (·.2)).foldl (· ||| ·) 0)).spend c.d.resC
    let r := rr.map (·.1.value)
    let m := maxAbs r
    if !isFin m then ⟨6, none, x, up, s, some m, sg⟩
    else if m.isZero then ⟨2, none, x, up, s, some m, sg⟩
    else if !(decodeNum 0 0 c.d.atol).lt m || !((decodeNum 0 0 c.d.rtol).mul (maxAbs b)).1.lt m then
      ⟨1, none, x, up, s, some m, sg⟩
    else if up = c.d.outMax then ⟨5, none, x, up, s, some m, sg⟩
    else
      let sigma : Int := c.d.rb - 1 - (match m with
        | .fin _ n d e => floorLog2 n d e
        | _ => 0)
      match correction c (r.map (Exact.scale sigma)) 17 s with
      | .shift s => ⟨9, some (s.qty, 0), x, up, s, none, some sigma⟩
      | .stop s => ⟨10, none, x, up, s, none, some sigma⟩
      | .trap s q e => ⟨9, some (q, e), x, up, s, none, some sigma⟩
      | .ok (d, broke) s =>
        if d.all (· == 0) then ⟨if broke then 6 else 4, none, x, up, s, some m, some sigma⟩
        else
          let xn := (xv.zip (s.vals 2 d)).map (fun p =>
            roundNum 0 0 c.d.rmode false 0 (p.1.add (c.d.rmode == 3) (p.2.scale (-sigma))).1)
          let s := (s.addFl ((xn.map (·.2)).foldl (· ||| ·) 0)).spend c.d.xupdC
          if xn.map (·.1) = x then ⟨3, none, x, up, s, some m, some sigma⟩
          else refine c b fuel (xn.map (·.1)) (up + 1) (some sigma) s

/-- Refresh until no SHIFT discards it. -/
def refreshAll (c : SCtx) : Nat → SV → SR (Option Derived)
  | 0, s => .shift s
  | fuel + 1, s =>
    match refresh c s with
    | .shift s' => refreshAll c fuel s'
    | r => r

/-! ## One slot -/

/-- STALE of a STATUS word. -/
def staleOf (status : Nat) : Bool := bitOf status 5

/-- The STATUS word of R318. -/
def statusWord (outcome : Nat) (adj stale : Bool) (outer inner shifts qty hits : Nat) : Nat :=
  outcome + b2n adj * 2 ^ 4 + b2n stale * 2 ^ 5 + min outer 255 * 2 ^ 8 + min inner 65535 * 2 ^ 16 + shifts % 16 * 2 ^ 32 +
    qty % 16 * 2 ^ 36 + min hits 65535 * 2 ^ 40

/-- Write an FP64 vector. -/
def Tile.putVec (T : Tile) (a : Nat) (x : List Nat) : Tile := T.poke a (8 * x.length) (packElems 64 x)

/-- The range record as a word. -/
def recWord (f : List Int) : Nat := packElems 8 (f.map (wrapTo 8))

/-- Do the bytes that a residual reads hold an uncorrectable error (R343)? -/
def Tile.residPoison (T : Tile) (d : SDesc) (adj readsX : Bool) : Bool :=
  (d.exts.filter (·.isA)).any (fun e => T.hasUE e.a e.n) || T.hasUE d.base 72 ||
  T.hasUE (if adj then d.gvec else d.bvec) (8 * d.n) || readsX && T.hasUE (if adj then d.lvec else d.xvec) (8 * d.n)

/-- Do the bytes that a solve reads hold an uncorrectable error? x is read only from a warm start, STATUS for STALE, derived
data only where they stand (R343). -/
def Tile.solvePoison (T : Tile) (d : SDesc) (adj readsX : Bool) : Bool :=
  T.residPoison d adj readsX || T.hasUE (d.base + 72) 8 || !staleOf d.status && T.hasUE d.drvAt d.drvBytes

/-- RES_MAX of a maximum, with the flags of rounding it toward +∞ (R188, R317). -/
def resMax (m : Exact) : Nat × Nat := roundNum 0 0 2 false 0 m

/-- The end of a slot's solve, written to its descriptor and, where the solve has `moved` the vector, to it (R318, R334, R338). -/
def Tile.slotEnd (T : Tile) (d : SDesc) (adj stale moved : Bool) (e : SEnd) : Tile :=
  let T := if moved then T.putVec (if adj then d.lvec else d.xvec) e.x else T
  let T := T.poke (d.base + 72) 8 (statusWord e.outcome adj stale e.updates e.s.inner e.s.shifts e.s.qty e.s.hits)
  let T := if e.s.shifts = 0 then T else T.poke (d.base + 64) 8 (recWord e.s.f)
  let T := match e.m with
    | some m => T.poke (d.base + 80) 8 (resMax m).1
    | none => T
  match e.sigma with
  | some g => T.poke (d.base + 88) 8 (wrapTo 16 g)
  | none => T

/-- Solve a slot. `resume` continues a trapped solve (R342); `budget` bounds the inner iterations where a fence stops
it (R344). The tile, the flags, the cycles, and the trap if there is one. -/
def Tile.solveSlot (T : Tile) (slot : Nat) (adj resume : Bool) (budget : Option Nat) :
    Tile × Nat × Nat × Option (Nat × Nat × Nat) :=
  let d := T.sdesc slot
  let stale := staleOf d.status
  let old := T.vec64 (if adj then d.lvec else d.xvec) d.n
  let warm := d.warm || resume && !stale
  let x0 := if warm then old else List.replicate d.n 0
  let s0 : SV :=
    { f := d.rng, fl := 0, hits := if resume then bitsOf d.status 40 16 else 0,
      shifts := if resume then bitsOf d.status 32 4 else 0, qty := if resume then bitsOf d.status 36 4 else 0,
      inner := if resume then bitsOf d.status 16 16 else 0, cyc := 40, budget := budget }
  let up0 := if resume then bitsOf d.status 8 8 else 0
  if T.solvePoison d adj warm then
    let T1 := { (T.slotEnd d adj stale (!warm) ⟨8, none, x0, up0, s0, none, none⟩).setFld F.MSTATUS_POISON 1 with marked := true }
    (T1, flInvalid, 40, none)
  else
    let rows := T.rowsOf d
    let c : SCtx := ⟨d, rows, adj, T.derivedOf d⟩
    let b := (T.vec64 (if adj then d.gvec else d.bvec) d.n).map (decodeNum 0 0)
    let fuel := d.outMax + 1
    let finish := fun (T : Tile) (stale : Bool) (e : SEnd) =>
      ((T.slotEnd d adj stale (!warm || e.x != old) e).addFld F.SOLV_ITERS_COUNT (e.s.inner - s0.inner),
        e.s.fl ||| (e.m.map (fun m => (resMax m).2)).getD 0, e.s.cyc,
        e.trap.map (fun t => (t.1, t.2, e.updates)))
    if !stale then finish T false (refine c b fuel x0 up0 none s0)
    else
      match refreshAll c 17 s0 with
      | .ok (some v) s =>
        let T1 := T.putDerived d v
        if s.budget = some 0 then finish T1 false ⟨10, none, x0, up0, s, none, none⟩
        else finish T1 false (refine { c with drv := v } b fuel x0 up0 none s)
      | .ok none s => finish T true ⟨7, none, x0, up0, s, none, none⟩
      | .trap s q e => finish T true ⟨9, some (q, e), old, up0, s, none, none⟩
      | .shift s => finish T true ⟨9, some (s.qty, 0), old, up0, s, none, none⟩
      | .stop s => finish T true ⟨10, none, x0, up0, s, none, none⟩

/-! ## Instructions -/

/-- EXC_INFO of SOLVER (R340). -/
def solverInfo (scause slot qty addr entry : Nat) : Word :=
  BitVec.ofNat 64 (scause + slot * 2 ^ 4 + qty * 2 ^ 10 + addr % 2 ^ 22 * 2 ^ 17 + entry % 2 ^ 17 * 2 ^ 39)

/-- The slots of a mask, ascending. -/
def slotsOf (m : Nat) : List Nat := (List.range 64).filter (bitOf m)

/-- Is a slot ready? -/
def Tile.slotReady (T : Tile) (slot : Nat) : Bool := (T.ctlWord F.SOLV_READY_READY.reg).getLsbD slot

/-- What every solver instruction leaves when it completes or stops (R203, R325): cleared LACCs, no moments, its flags
in SFLAGS and its cycles. -/
def Tile.solverDone (T : Tile) (fl cycles : Nat) : Tile :=
  let T := { T.clearLaccs.settled with mDone := none }
  let T := (T.setFld F.MSTATUS_MOMENTS 0).setFld F.MMOM_N_N 0
  ((T.orFlags sflagsAddr fl).setFld F.SOLV_CYCLES_CYCLES (satTo 40 cycles)).addFld F.M_SOLVE_COUNT cycles

/-- The first slot that fails the check of R327: not ready, or without the adjoint system. -/
def Tile.solveCheck (T : Tile) (adj : Bool) (slots : List Nat) : Option (Nat × Nat) :=
  slots.findSome? (fun s =>
    if !T.slotReady s then some (6, s) else if adj && !(T.sdesc s).adj then some (1, s) else none)

/-- Selected slots whose OUTCOME is 4 or above. -/
def Tile.failedSlots (T : Tile) (slots : List Nat) : Nat := (slots.filter (fun s => 4 ≤ (T.sdesc s).status % 16)).length

/-- What solving slots in order gives: the tile, flags and cycles, and the slot that trapped. Each slot comes with the inner
iterations after which a fence stops it. -/
def Tile.solveSlots (T : Tile) (adj : Bool) (resumed : Option Nat) (fl cyc : Nat) :
    List (Nat × Option Nat) → Tile × Nat × Nat × Option (Nat × Nat × Nat × Nat)
  | [] => (T, fl, cyc, none)
  | (s, budget) :: ss =>
    let r := T.solveSlot s adj (resumed == some s) budget
    match r.2.2.2 with
    | some (q, e, up) => (r.1, fl ||| r.2.1, cyc + r.2.2.1, some (s, q, e, up))
    | none => (r.1.satFld F.SOLV_RUNS_SOLVES 1).solveSlots adj resumed (fl ||| r.2.1) (cyc + r.2.2.1) ss

/-- `ssolve` and `ssolvet` (R327, R341, R342). One that is re-issued goes on at the first selected slot at or above SOLV_RES.SLOT,
and continues the solve of that slot where it is the trapped one. A fence stops the instruction in the slot `stop`
after as many inner iterations of it; later slots are not begun (R344). -/
def solveRun (adj : Bool) (stop : Option (Nat × Nat)) (a : Nat) (T : Tile) (e : QEntry) : QRes :=
  let slots := slotsOf e.sb.toNat
  if slots.isEmpty then .ok (T.setS a 0)
  else
    match T.solveCheck adj slots with
    | some (sc, s) => .fault T 0x12 (solverInfo sc s 0 (T.sdescAt s) 0)
    | none =>
      let again := e.again && T.fld F.SOLV_RES_VALID == 1
      let todo := slots.filter (fun s => (if again then T.fld F.SOLV_RES_SLOT else 0) ≤ s && stop.all (fun x => decide (s ≤ x.1)))
      let resumed := if again && todo.head? == T.trapSlot then T.trapSlot else none
      let r := T.solveSlots adj resumed 0 (8 + 16 * slots.length)
        (todo.map (fun s => (s, (stop.filter (fun x => x.1 == s)).map (·.2))))
      match r.2.2.2 with
      | some (s, q, el, up) =>
        let T1 := (r.1.solverDone r.2.1 r.2.2.1).satFld F.SOLV_RUNS_TRAPS 1
        let T2 := ((T1.setFld F.SOLV_RES_SLOT s).setFld F.SOLV_RES_OUTER up).setFld F.SOLV_RES_VALID 1
        .fault { T2 with trapSlot := some s } 0x12 (solverInfo 5 s q (T.sdescAt s) el)
      | none =>
        let T1 := { (r.1.solverDone r.2.1 r.2.2.1).setFld F.SOLV_RES_VALID 0 with trapSlot := none }
        .ok (T1.setS a (BitVec.ofNat 64 (T1.failedSlots (slots.filter (fun s => stop.all (fun x => decide (s ≤ x.1)))))))

/-- `ssolve` and `ssolvet` that no fence stops. -/
def solveBody (adj : Bool) (a : Nat) (T : Tile) (e : QEntry) : QRes := solveRun adj none a T e

/-- `sresid` and `sresidt` of one slot: r rounded once to R_OUT, and RES_MAX. -/
def Tile.residSlot (T : Tile) (adj : Bool) (slot : Nat) : Tile × Nat × Nat :=
  let d := T.sdesc slot
  if T.residPoison d adj true then
    ({ T.setFld F.MSTATUS_POISON 1 with marked := true }, flInvalid, 40)
  else
    let rows := T.rowsOf d
    let x := (T.vec64 (if adj then d.lvec else d.xvec) d.n).map (decodeNum 0 0)
    let b := (T.vec64 (if adj then d.gvec else d.bvec) d.n).map (decodeNum 0 0)
    let rr := residual (if adj then transposeRows d.n rows else rows) x b
    let out := rr.map (fun r => roundNum 0 0 d.rmode false 0 r.1.value)
    let T1 := T.putVec d.work (out.map (·.1))
    let mx := resMax (maxAbs (rr.map (·.1.value)))
    let T2 := T1.poke (d.base + 80) 8 mx.1
    (T2, (rr.map (·.2)).foldl (· ||| ·) ((out.map (·.2)).foldl (· ||| ·) mx.2), 40 + d.resC + ceilDiv d.n 64)

/-- `sresid` and `sresidt` (R320). -/
def residBody (adj : Bool) (a : Nat) (T : Tile) (e : QEntry) : QRes :=
  let slots := slotsOf e.sb.toNat
  if slots.isEmpty then .ok (T.setS a 0)
  else
    match T.solveCheck adj slots with
    | some (sc, s) => .fault T 0x12 (solverInfo sc s 0 (T.sdescAt s) 0)
    | none =>
      let r := slots.foldl (fun (acc : Tile × Nat × Nat) s =>
        let q := acc.1.residSlot adj s
        (q.1, acc.2.1 ||| q.2.1, acc.2.2 + q.2.2)) (T, 0, 8 + 16 * slots.length)
      .ok ((r.1.solverDone r.2.1 r.2.2).setS a 0)

/-- `sfree` (R320). -/
def sfreeBody (a : Nat) (T : Tile) (e : QEntry) : QRes :=
  if e.sb = 0 then .ok (T.setS a 0)
  else
    let w := T.ctlWord F.SOLV_READY_READY.reg
    let T1 := (T.setCtl F.SOLV_READY_READY.reg (w &&& ~~~e.sb)).solverDone 0 8
    .ok (T1.setS a (BitVec.ofNat 64 (popCount (w &&& e.sb).toNat 64)))

/-! ## sinit (R321) -/

/-- Is an extent inside SOLV_REGION and the store? -/
def Tile.inRegion (T : Tile) (a n : Nat) : Bool :=
  T.fld F.SOLV_REGION_BASE ≤ a && a + n ≤ T.fld F.SOLV_REGION_BASE + T.fld F.SOLV_REGION_SIZE && a + n ≤ storeEnd

/-- The base of the first extent that is misaligned or out of place. -/
def Tile.badExtent (T : Tile) (d : SDesc) : Option Nat :=
  (d.exts.find? (fun e => e.a % e.al != 0 || !T.inRegion e.a e.n)).map (·.a)

/-- Do slots that share A name the same structure? -/
def sameA (d e : SDesc) : Bool :=
  d.aval != e.aval || d.n == e.n && d.sparse == e.sparse && d.nnz == e.nnz && d.aidx == e.aidx && d.aptr == e.aptr

/-- May two extents of different slots overlap, or two of one slot? (R315) -/
def mayOverlap (sameSlot sharedA : Bool) (e f : Ext) : Bool :=
  !e.written && !f.written && (sameSlot || sharedA || !e.isA || !f.isA)

/-- The base of the first extent of a slot that overlaps another against R315. -/
def overlapBad (d : SDesc) (others : List SDesc) : Option Nat :=
  let mine := d.own :: d.exts
  let idx := (List.range mine.length).zip mine
  (idx.find? (fun e =>
    idx.any (fun f => e.1 != f.1 && overlaps e.2.a e.2.n f.2.a f.2.n && !mayOverlap true true e.2 f.2) ||
    others.any (fun o => (o.own :: o.exts).any (fun f =>
      overlaps e.2.a e.2.n f.a f.n && !mayOverlap false (o.aval == d.aval) e.2 f)))).map (·.2.a)

/-- The address of the first value that breaks R314: a row start, a column index, or a value that is not finite. -/
def Tile.badValue (T : Tile) (d : SDesc) : Option Nat :=
  let ptr := fun (i : Nat) => T.peek (d.aptr + 4 * i) 4
  let col := fun (k : Nat) => T.peek (d.aidx + 2 * k) 2
  let p := if !d.sparse then none
    else ((List.range (d.n + 1)).find? (fun i =>
      (i == 0 && ptr 0 != 0) || (i == d.n && ptr i != d.nnz) || (0 < i && ptr i < ptr (i - 1)) || d.nnz < ptr i)).map
        (fun i => d.aptr + 4 * i)
  let q := if !d.sparse then none
    else ((List.range d.n).findSome? (fun i =>
      (idxFrom (ptr i) (ptr (i + 1))).find? (fun k => d.n ≤ col k || ptr i < k && col k ≤ col (k - 1)))).map
        (fun k => d.aidx + 2 * k)
  let vals := fun (a n : Nat) => ((List.range n).find? (fun i => !finite64 (T.peek (a + 8 * i) 8))).map (fun i => a + 8 * i)
  p.or (q.or ((vals d.aval d.z).or ((vals d.bvec d.n).or ((vals d.xvec d.n).or
    (if d.adj then (vals d.gvec d.n).or (vals d.lvec d.n) else none)))))

/-- The extents that `sinit` scans. -/
def SDesc.scanned (d : SDesc) : List Ext := d.exts.filter (fun e => e.a != d.work || e.al != 64)

/-- The checks of one slot: SCAUSE and address of the first failure. -/
def Tile.sinitFail (T : Tile) (slots : List Nat) (slot : Nat) : Option (Nat × Nat) :=
  let d := T.sdesc slot
  let others := ((List.range 64).filter (fun s => s != slot && (T.slotReady s || slots.contains s))).map T.sdesc
  if !T.inRegion (T.fld F.SOLV_BASE_BASE) 8192 then some (2, T.fld F.SOLV_BASE_BASE)
  else if !d.ok then some (1, d.base)
  else
    match T.badExtent d with
    | some a => some (2, a)
    | none =>
      if others.any (fun o => !sameA d o) then some (7, d.aval)
      else
        match overlapBad d others with
        | some a => some (7, a)
        | none =>
          match T.badValue d with
          | some a => some (3, a)
          | none =>
            ((d.own :: d.scanned).find? (fun e => T.hasUE e.a e.n)).map (fun e => (4, (T.firstUE e.a e.n).toNat))

/-- Set STALE in a slot's STATUS. -/
def Tile.markStale (T : Tile) (slot : Nat) : Tile :=
  let a := T.sdescAt slot + 72
  T.poke a 8 (setBits (T.peek a 8) 5 1 1)

/-- Set STALE in every ready slot that shares an AVAL. -/
def Tile.staleSharers (T : Tile) (aval : Nat) : Tile :=
  (List.range 64).foldl (fun T s => if T.slotReady s && (T.sdesc s).aval == aval then T.markStale s else T) T

/-- Admit a slot. -/
def Tile.initSlot (T : Tile) (slot : Nat) : Tile :=
  let T1 := T.setCtl F.SOLV_READY_READY.reg (T.ctlWord F.SOLV_READY_READY.reg ||| (1#64 <<< slot))
  (T1.poke (T.sdescAt slot + 72) 8 (statusWord 0 false true 0 0 0 0 0)).staleSharers (T.sdesc slot).aval

/-- `sinit` (R321). -/
def sinitBody (a : Nat) (T : Tile) (e : QEntry) : QRes :=
  let slots := slotsOf e.sb.toNat
  if slots.isEmpty then .ok (T.setS a 0)
  else
    match slots.findSome? (fun s => (T.sinitFail slots s).map (fun x => (s, x))) with
    | some (s, sc, ad) => .fault { T with marked := T.marked || sc == 4 } 0x12 (solverInfo sc s 0 ad 0)
    | none =>
      let bytes := fun (s : Nat) => ((T.sdesc s).scanned.map (·.n)).foldl (· + ·) 0
      let cyc := 8 + 16 * slots.length + (slots.map (fun s => 40 + ceilDiv (bytes s) 64)).foldl (· + ·) 0
      .ok (((slots.foldl Tile.initSlot T).solverDone 0 cyc).setS a (BitVec.ofNat 64 slots.length))

/-! ## sdelta (R323, R324) -/

/-- An entry of a delta list. -/
structure Delta where
  index : Nat
  target : Nat
  slot : Nat
  rsv : Bool
  value : Nat

/-- Entry `i` of the list at an address. -/
def Tile.delta (T : Tile) (a i : Nat) : Delta :=
  let w := T.peek (a + 16 + 16 * i) 8
  ⟨bitsOf w 0 17, bitsOf w 17 3, bitsOf w 20 6, w / 2 ^ 26 != 0, T.peek (a + 24 + 16 * i) 8⟩

/-- Where an entry writes. -/
def Delta.addr (x : Delta) (d : SDesc) : Nat :=
  8 * x.index + (match x.target with
    | 0 => d.aval | 1 => d.bvec | 2 => d.xvec | 3 => d.gvec | _ => d.lvec)

/-- Is an entry well formed for its slot? -/
def Delta.ok (x : Delta) (d : SDesc) : Bool :=
  !x.rsv && x.target ≤ 4 && x.index < (if x.target = 0 then d.z else d.n) && (x.target < 3 || d.adj) && finite64 x.value

/-- The first failure of a list: SCAUSE, slot, address and entry. -/
def Tile.deltaFail (T : Tile) (a : Nat) : Option (Nat × Nat × Nat × Nat) :=
  if a % 16 ≠ 0 || storeEnd < a + 16 then some (2, 0, a, 0)
  else if T.hasUE a 16 then some (4, 0, (T.firstUE a 16).toNat, 0)
  else
    let w := T.peek a 8
    if 65536 < w || T.peek (a + 8) 8 != 0 then some (8, 0, a, 0)
    else if storeEnd < a + 16 + 16 * w then some (2, 0, a, 0)
    else
      (List.range w).findSome? (fun i =>
        let at' := a + 16 + 16 * i
        if T.hasUE at' 16 then some (4, 0, (T.firstUE at' 16).toNat, 0)
        else
          let x := T.delta a i
          if !T.slotReady x.slot then some (6, x.slot, T.sdescAt x.slot, i)
          else if !x.ok (T.sdesc x.slot) then some (8, x.slot, at', i)
          else none)

/-- Apply entry `i`. -/
def Tile.applyDelta (a : Nat) (T : Tile) (i : Nat) : Tile :=
  let x := T.delta a i
  let d := T.sdesc x.slot
  let T1 := T.poke (x.addr d) 8 x.value
  if x.target = 0 then T1.staleSharers d.aval else T1

/-- `sdelta`; a fence stops it after `limit` entries (R344). -/
def sdeltaBody (limit : Option Nat) (a : Nat) (T : Tile) (e : QEntry) : QRes :=
  match T.deltaFail e.sb.toNat with
  | some (sc, s, ad, en) => .fault { T with marked := T.marked || sc == 4 } 0x12 (solverInfo sc s 0 ad en)
  | none =>
    let n := T.peek e.sb.toNat 8
    let k := match limit with
      | some l => min l n
      | none => n
    .ok ((((List.range k).foldl (Tile.applyDelta e.sb.toNat) T).solverDone 0 (8 + 3 * k)).setS a (BitVec.ofNat 64 k))

/-! ## Stopped by a fence (R344) -/

/-- The solver instruction of a MINOR, stopped by a fence in `slot` after `iters` inner iterations of it, or after `iters`
delta entries. -/
def stoppedBody (minor slot iters a : Nat) (T : Tile) (e : QEntry) : QRes :=
  if minor = 1 then sdeltaBody (some iters) a T e else solveRun (minor == 3) (some (slot, iters)) a T e

/-! ## Dispatch -/

/-- The entries of a solver instruction in the range table: SOLV_REGION, and the delta list of an `sdelta` (R319). -/
def Tile.solverRanges (T : Tile) (minor : Nat) (sb : Word) : List (Bool × Nat × Nat) :=
  (true, T.fld F.SOLV_REGION_BASE, T.fld F.SOLV_REGION_SIZE) ::
    (if minor = 1 then [(true, sb.toNat, 16 + 16 * T.peek sb.toNat 8)] else [])

/-- A solver instruction (MAJOR 0x33): C and K must be 0 (R320). -/
def Tile.solverOp (T : Tile) (i : Instr) (f : F3) (minor : Nat) (body : Tile → QEntry → QRes) : Tile :=
  T.queueOp 2 4 [f.b.toNat]
    (T.entry i (F3w f 0x33 minor) 0 0 (T.sreg f.b.toNat) 0 0 f.a.toNat (T.solverRanges minor (T.sreg f.b.toNat)) [])
    false (reservedIf (f.c != 0 || f.k != 0)) noCheck body

/-- `sinit` (R321). -/
def execSinit (t : TileIx) (f : F3) (s : State) : Host.Outcome State Fault Refusal :=
  .next (s.onTile t (fun T => T.solverOp (.sinit t f) f 0 (sinitBody f.a.toNat)))

/-- `sdelta` (R324). -/
def execSdelta (t : TileIx) (f : F3) (s : State) : Host.Outcome State Fault Refusal :=
  .next (s.onTile t (fun T => T.solverOp (.sdelta t f) f 1 (sdeltaBody none f.a.toNat)))

/-- `ssolve` (R327). -/
def execSsolve (t : TileIx) (f : F3) (s : State) : Host.Outcome State Fault Refusal :=
  .next (s.onTile t (fun T => T.solverOp (.ssolve t f) f 2 (solveBody false f.a.toNat)))

/-- `ssolvet` (R345). -/
def execSsolvet (t : TileIx) (f : F3) (s : State) : Host.Outcome State Fault Refusal :=
  .next (s.onTile t (fun T => T.solverOp (.ssolvet t f) f 3 (solveBody true f.a.toNat)))

/-- `sresid` (R320). -/
def execSresid (t : TileIx) (f : F3) (s : State) : Host.Outcome State Fault Refusal :=
  .next (s.onTile t (fun T => T.solverOp (.sresid t f) f 4 (residBody false f.a.toNat)))

/-- `sresidt` (R320). -/
def execSresidt (t : TileIx) (f : F3) (s : State) : Host.Outcome State Fault Refusal :=
  .next (s.onTile t (fun T => T.solverOp (.sresidt t f) f 5 (residBody true f.a.toNat)))

/-- `sfree` (R320). -/
def execSfree (t : TileIx) (f : F3) (s : State) : Host.Outcome State Fault Refusal :=
  .next (s.onTile t (fun T => T.solverOp (.sfree t f) f 6 (sfreeBody f.a.toNat)))

end Sys2Proof.Machine
end

