-- ==== Sys2Proof/Machine/Run.lean ====
section
/-!
DEFINITION. The M and C queues go on: an instruction that waited at the head of its queue starts as soon as it may, and the
faulting instruction that a handler left there is re-issued (R103, R105, R107, R146, R298).
-/
namespace Sys2Proof.Machine

/-- The body of a solver instruction. -/
def solverBody (i : Instr) (T : Tile) (e : QEntry) : QRes :=
  match i with
  | .sinit _ f => sinitBody f.a.toNat T e
  | .sdelta _ f => sdeltaBody none f.a.toNat T e
  | .ssolve _ f => solveBody false f.a.toNat T e
  | .ssolvet _ f => solveBody true f.a.toNat T e
  | .sresid _ f => residBody false f.a.toNat T e
  | .sresidt _ f => residBody true f.a.toNat T e
  | .sfree _ f => sfreeBody f.a.toNat T e
  | _ => .ok T

/-- The body of the M or C instruction held as an entry, by its words. -/
def queuedBody (t now : Nat) (T : Tile) (e : QEntry) : QRes :=
  let (a, b, c, k, minor) := fieldsOf e.w0
  match majorOf e.w0, e.instr with
  | 0x31, _ =>
    let cf : CF := ⟨a, b, c, k, 0, 0⟩
    match chainBodyOf minor cf with
    | some body => runChain t now cf body T e
    | none => .ok T
  | 0x32, .tprog .. => tprogBody T e
  | 0x32, _ =>
    let cf : CF := ⟨a, b, c, k, minor, e.w1⟩
    runChain t now cf (vchainBody cf) T e
  | 0x33, i => solverBody i T e
  | _, .mgrp _ f => T.mgrpBody t now e f.a.toNat e.desc (mBit f 0) (mBit f 1) (mBit f 2)
  | _, i => matrixBody t now i T e

/-- Do the queues of a tile issue: its clock runs, it is in service, and neither a halt nor a double fault stops it? -/
def Tile.issues (T : Tile) : Bool :=
  T.power == .on && !T.clockHold && T.fld F.DBG_STATUS_HALTED == 0 && T.fld F.DBG_STATUS_STOPPING == 0 &&
    T.fld F.TILE_STATUS_DOUBLE == 0 && !T.inReset && !T.out

/-- Does a re-issued solver instruction wait to be stopped by a fence that is due (R344)? SOLVER_FENCE_STOP says where it stops. -/
def Tile.awaitsStop (T : Tile) (e : QEntry) : Bool :=
  e.again && T.events.fenced.isSome && majorOf e.w0 == 0x33 && 1 ≤ e.w0 % 256 && e.w0 % 256 ≤ 3

/-- Start the head of queue `q`, if it may. One that raises a queue cause stays there (R139, R140). -/
def Tile.startHead (T : Tile) (t now q : Nat) : Option Tile :=
  match T.queue q with
  | [] => none
  | e :: rest =>
    if T.frozen q || !T.issues || T.awaitsStop e || !T.startable q e then none
    else
      match queuedBody t now T e with
      | .ok T' => some (T'.dequeue q e)
      | .fault T' code info => some ((T'.setQueue q ({ e with again := true } :: rest)).queueExc q code e.pc info)

/-- The order in which the heads of the M and C queues are tried: the earlier in program order first (R143). -/
def Tile.headOrder (T : Tile) : List Nat :=
  match T.mq, T.cq with
  | m :: _, c :: _ => if c.age < m.age then [3, 2] else [2, 3]
  | _, _ => [2, 3]

/-- The M and C queues go on until neither head may start. -/
def Tile.runQueues (T : Tile) (t now : Nat) : Nat → Tile
  | 0 => T
  | n + 1 =>
    match T.headOrder.findSome? (T.startHead t now) with
    | some T' => T'.runQueues t now n
    | none => T

/-- The M and C queues of a tile go on. -/
def State.issue (s : State) (t : Nat) : State :=
  if (s.tile t).mcOpen = [] then s else s.onTile t (fun T => T.runQueues t (s.tileCycle t) 64)

end Sys2Proof.Machine
end

