-- ==== Sys2Proof/Machine/Ecc.lean ====
section
/-!
DEFINITION. The code of a line of stacked memory: RS(36,32) over GF(2^16), with three virtual symbols for the line's address
(R406). Field elements are numbers below 2^16.

A decode is the closed form for a distance of 5: one or two symbol errors are located and corrected. DESIGN CHOICE (log 87): R406
gives the field, the roots and the symbols, and not their order in the code word. The model takes check symbol k at power k,
data symbol i at power 4 + i, and virtual symbol j at power 36 + j.
-/
namespace Sys2Proof.Machine

/-- Multiplication by α, reduced by x^16 + x^12 + x^3 + x + 1. -/
def gfTwice (a : Nat) : Nat := if a < 2 ^ 15 then 2 * a else Nat.xor (2 * a) 0x1100B

/-- The product over the low `n` bits of `b`, from the highest. -/
def gfMulAux (a b : Nat) : Nat → Nat
  | 0 => 0
  | n + 1 => Nat.xor (if b.testBit 0 then a else 0) (gfMulAux (gfTwice a) (b / 2) n)

/-- The product in GF(2^16). -/
def gfMul (a b : Nat) : Nat := gfMulAux a b 16

/-- The inverse: a^(2^16 - 2), by squaring. `sq` runs through the squares of a. -/
def gfInvAux (sq : Nat) : Nat → Nat
  | 0 => 1
  | n + 1 => gfMul (gfMul sq sq) (gfInvAux (gfMul sq sq) n)

/-- The inverse of a nonzero element. -/
def gfInv (a : Nat) : Nat := gfInvAux a 15

/-- α^n. -/
def gfExp : Nat → Nat
  | 0 => 1
  | n + 1 => gfTwice (gfExp n)

/-- α^n times `a`. -/
def gfShift (a : Nat) : Nat → Nat
  | 0 => a
  | n + 1 => gfTwice (gfShift a n)

/-- Syndrome `j` of an error pattern: the sum of its values times α^(j · position). -/
def eccSyndrome (err : LineErr) (j : Nat) : Nat :=
  err.foldl (fun (a : Nat) e => Nat.xor a (gfShift e.2.toNat (j * e.1.val))) 0

/-- What a decode answers: the corrections, by position and value, or none for an uncorrectable line. -/
def eccSolve (s0 s1 s2 s3 : Nat) : Option (List (Nat × Nat)) :=
  let det := Nat.xor (gfMul s0 s2) (gfMul s1 s1)
  if s0 = 0 ∧ s1 = 0 ∧ s2 = 0 ∧ s3 = 0 then some []
  else if det = 0 then
    match (List.range 39).find? (fun k => s0 != 0 && gfShift s0 k == s1 && gfShift s1 k == s2 && gfShift s2 k == s3) with
    | some k => some [(k, s0)]
    | none => none
  else
    let i := gfInv det
    let p := gfMul i (Nat.xor (gfMul s0 s3) (gfMul s1 s2))
    let q := gfMul i (Nat.xor (gfMul s1 s3) (gfMul s2 s2))
    match (List.range 39).filter (fun k =>
      let x := gfExp k
      Nat.xor (gfMul x (Nat.xor x p)) q == 0) with
    | [a, b] =>
      let e := gfMul (Nat.xor s1 (gfShift s0 a)) (gfInv (Nat.xor (gfExp a) (gfExp b)))
      some [(a, Nat.xor s0 e), (b, e)]
    | _ => none

/-- Join the values of an error pattern by position. -/
def errAt (err : LineErr) (k : Nat) : Nat :=
  err.foldl (fun (a : Nat) e => if e.1.val = k then Nat.xor a e.2.toNat else a) 0

/-- The bits of a line that its data symbols carry, from a value per data symbol. -/
def lineBits (f : Nat → Nat) : Nat := (List.range 32).foldl (fun (a : Nat) i => a + f i * 2 ^ (16 * i)) 0

/-- The outcome of reading a line that carries the errors `err`: how many symbols were corrected, none where it is uncorrectable
(a virtual symbol would be corrected, or no correction of two symbols fits), and the bits by which the delivered line differs
from the line as written. They are 0 unless more than two symbols were wrong. -/
def eccRead (err : LineErr) : Option (Nat × Nat) :=
  match eccSolve (eccSyndrome err 0) (eccSyndrome err 1) (eccSyndrome err 2) (eccSyndrome err 3) with
  | none => none
  | some l =>
    if l.any (fun c => decide (36 ≤ c.1)) then none
    else some (l.length, lineBits (fun i =>
      Nat.xor (errAt err (4 + i)) (((l.find? (fun c => c.1 == 4 + i)).map (·.2)).getD 0)))

end Sys2Proof.Machine
end

