-- ==== Sys2Proof/Machine/Host.lean ====
section
/-!
DEFINITION. Host register space (R676 to R680), interrupts (R695, R709), partitions and their blocks (R385, R514), and
the global and stacked addresses (R114, R385 to R387).
-/
namespace Sys2Proof.Machine

/-! ## Pages -/

/-- The offset of partition page `p` (R676). -/
def partPage (p : Nat) : Nat := 0x100000 + 0x10000 * p
/-- The offset of context page `c`. -/
def ctxPage (c : Nat) : Nat := 0x200000 + 0x10000 * c
/-- The registers of queue `q` of context `c` (R678). -/
def queuePage (c q : Nat) : Nat := ctxPage c + 0x100 + 0x40 * q
/-- The offset of group page `g`. -/
def groupPage (g : Nat) : Nat := 0x600000 + 0x1000 * g
/-- The offset of link page `l`. -/
def linkPage (l : Nat) : Nat := 0x700000 + 0x1000 * l
/-- The offset of block page `b`. -/
def blockPage (b : Nat) : Nat := 0x800000 + 0x1000 * b

/-- The pages of BAR0 (R676). -/
inductive Page where
  | engine | part (p : Nat) | ctx (c : Nat) | queue (c q : Nat) | group (g : Nat) | link (l : Nat) | block (b : Nat)
  | none
  deriving DecidableEq, Repr

/-- The page of a BAR0 offset. The registers of a queue count as a page of their own. -/
def pageOf (a : Nat) : Page :=
  if a < 0x10000 then .engine
  else if 0x100000 ≤ a ∧ a < 0x200000 then .part ((a - 0x100000) / 0x10000)
  else if 0x200000 ≤ a ∧ a < 0x600000 then
    let c := (a - 0x200000) / 0x10000
    let o := a % 0x10000
    if 0x100 ≤ o ∧ o < 0x300 then .queue c ((o - 0x100) / 0x40) else .ctx c
  else if 0x600000 ≤ a ∧ a < 0x700000 then .group ((a - 0x600000) / 0x1000)
  else if 0x700000 ≤ a ∧ a < 0x740000 then .link ((a - 0x700000) / 0x1000)
  else if 0x800000 ≤ a ∧ a < 0x800000 + 720 * 0x1000 then .block ((a - 0x800000) / 0x1000)
  else .none

/-- Where a page begins. -/
def Page.base : Page → Nat
  | .engine => 0
  | .part p => partPage p
  | .ctx c => ctxPage c
  | .queue c q => queuePage c q
  | .group g => groupPage g
  | .link l => linkPage l
  | .block b => blockPage b
  | .none => 0

/-- The registers of a page (R678). -/
def Page.regs : Page → List RegSpec
  | .engine => engineRegs
  | .part _ => partitionRegs
  | .ctx _ => contextRegs
  | .queue _ _ => queueRegs
  | .group _ => groupRegs
  | .link _ => linkRegs
  | .block _ => blockRegs
  | .none => []

/-- The register at a BAR0 offset, where one is assigned. -/
def hostReg (a : Nat) : Option RegSpec := findReg (pageOf a).regs (a - (pageOf a).base)

/-- What an unlisted host register holds: its Reset value. -/
def hostDflt (a : Nat) : Word := resetWord (pageOf a).regs (a - (pageOf a).base)

/-- A host register as it is held. -/
def State.hostWord (s : State) (a : Nat) : Word := s.regs.get hostDflt a

/-- Replace a host register. -/
def State.setHost (s : State) (a : Nat) (w : Word) : State := { s with regs := s.regs.set hostDflt a w }

/-- A field of a register of the page that begins at `base`. -/
def State.hf (s : State) (base : Nat) (f : Fld) : Nat := wordField (s.hostWord (base + f.reg)) f.lo f.width

/-- Replace a field of a register of the page that begins at `base`. -/
def State.setHf (s : State) (base : Nat) (f : Fld) (v : Nat) : State :=
  s.setHost (base + f.reg) (setWordField (s.hostWord (base + f.reg)) f.lo f.width v)

/-- Add to a field that saturates. -/
def State.satHf (s : State) (base : Nat) (f : Fld) (n : Nat) : State :=
  s.setHf base f (satTo f.width (s.hf base f + n))

/-- A field of an engine register. -/
def State.ef (s : State) (f : Fld) : Nat := s.hf 0 f
/-- Replace a field of an engine register. -/
def State.setEf (s : State) (f : Fld) (v : Nat) : State := s.setHf 0 f v
/-- A field of a partition register. -/
def State.pf (s : State) (p : Nat) (f : Fld) : Nat := s.hf (partPage p) f
/-- Replace a field of a partition register. -/
def State.setPf (s : State) (p : Nat) (f : Fld) (v : Nat) : State := s.setHf (partPage p) f v
/-- A field of a context register. -/
def State.cf (s : State) (c : Nat) (f : Fld) : Nat := s.hf (ctxPage c) f
/-- Replace a field of a context register. -/
def State.setCf (s : State) (c : Nat) (f : Fld) (v : Nat) : State := s.setHf (ctxPage c) f v

/-! ## Sparse tables with their defaults -/

/-- A partition's controller. -/
def State.part (s : State) (p : Nat) : PartSt := s.parts.get (fun _ => PartSt.empty) p
/-- Change a partition's controller. -/
def State.onPart (s : State) (p : Nat) (f : PartSt → PartSt) : State :=
  { s with parts := s.parts.upd (fun _ => PartSt.empty) p f }
/-- A block. -/
def State.block (s : State) (b : Nat) : BlockSt := s.blocks.get (fun _ => BlockSt.empty) b
/-- Change a block. -/
def State.onBlock (s : State) (b : Nat) (f : BlockSt → BlockSt) : State :=
  { s with blocks := s.blocks.upd (fun _ => BlockSt.empty) b f }
/-- A link. -/
def State.link (s : State) (l : Nat) : LinkSt := s.links.get (fun _ => LinkSt.empty) l
/-- Change a link. -/
def State.onLink (s : State) (l : Nat) (f : LinkSt → LinkSt) : State :=
  { s with links := s.links.upd (fun _ => LinkSt.empty) l f }
/-- The key of a flow. -/
def flowKey (l fl : Nat) : Nat := l * 4096 + fl
/-- A flow. -/
def State.flow (s : State) (k : Nat) : FlowSt := s.flows.get (fun _ => FlowSt.empty) k
/-- Change a flow. -/
def State.onFlow (s : State) (k : Nat) (f : FlowSt → FlowSt) : State :=
  { s with flows := s.flows.upd (fun _ => FlowSt.empty) k f }
/-- The command queue `q` of context `c`. -/
def State.queue (s : State) (c q : Nat) : HostQ := s.queues.get (fun _ => HostQ.empty) (c * 8 + q)
/-- Change a command queue. -/
def State.onQueue (s : State) (c q : Nat) (f : HostQ → HostQ) : State :=
  { s with queues := s.queues.upd (fun _ => HostQ.empty) (c * 8 + q) f }
/-- A context's fence state. -/
def State.ctx (s : State) (c : Nat) : CtxSt := s.ctxs.get (fun _ => CtxSt.empty) c
/-- Change a context's fence state. -/
def State.onCtx (s : State) (c : Nat) (f : CtxSt → CtxSt) : State :=
  { s with ctxs := s.ctxs.upd (fun _ => CtxSt.empty) c f }

/-! ## Time -/

/-- The global beat in progress (R18). -/
def State.beat (s : State) : Nat := s.owl.ns / 256
/-- The round in progress (R18). -/
def State.round (s : State) : Nat := s.owl.ns / 1048576
/-- The P-level in force (R603). -/
def State.plevel (s : State) : Nat := s.ef F.PWR_PLVL_CURRENT
/-- The multiple of 250 MHz of a P-level (R602). -/
def plMult (l : Nat) : Nat := 5 - l

/-! ## Interrupts and rejected writes -/

/-- Send a vector of a function (R695). -/
def State.vector (s : State) (fn vec : Nat) : State := { s with msix := (fn, vec) :: s.msix }

/-- Set an engine bit of IRQ_STATUS; its vector is sent when the bit rises unmasked (R709). -/
def State.irq (s : State) (f : Fld) : State :=
  let a := F.IRQ_STATUS_TIME.reg
  let old := bitOf (s.hostWord a).toNat f.lo
  let masked := bitOf (s.hostWord F.IRQ_MASK_TIME.reg).toNat f.lo
  let s := s.setEf f 1
  if old ∨ masked then s else s.vector 0 (if f.lo < 16 then 0 else f.lo - 15)

/-- The IRQ_STATUS bit of partition `p`. -/
def irqPart (p : Nat) : Fld := { F.IRQ_STATUS_PART with lo := 16 + p, width := 1 }

/-- Interrupt of a context: its VF's vector, or vector 17 + c of the PF while the VF is not enabled (R695). -/
def State.ctxVector (s : State) (c vec : Nat) : State :=
  if s.vfs.contains (c + 1) then s.vector (c + 1) vec else s.vector 0 (17 + c)

/-- An event of a context (R712). -/
def State.ctxEvent (s : State) (c : Nat) (f : Fld) : State :=
  let s := s.setCf c f 1
  if s.cf c F.CTX_IRQ_EN = 1 then s.ctxVector c (s.cf c F.CTX_IRQ_VEC) else s

/-- A rejected write to host register space (R155, R680); the loser of two sources in one tick is noted (R672). -/
def State.hostReject (s : State) (a src : Nat) : State :=
  let page := match pageOf a with
    | .queue c _ => ctxPage c
    | pg => pg.base
  let first := fun (s : State) => (s.setEf F.CFG_REJECT_ADDR ((a - page) / 8)).setEf F.CFG_REJECT_SRC src
  if s.ef F.CFG_REJECT_SET = 1 then
    let s := s.setEf F.CFG_REJECT_MULTI 1
    let s := if s.rejNow ∧ src ≠ s.ef F.CFG_REJECT_SRC then s.setEf F.DBG_CONFLICT_REJECT 1 else s
    if s.rejNow ∧ srcRank src < srcRank (s.ef F.CFG_REJECT_SRC) then first s else s
  else { (first (s.setEf F.CFG_REJECT_SET 1)).irq F.IRQ_STATUS_REJECT with rejNow := true }

/-- The engine reports something over management: it waits for the controller to collect it. -/
def State.report (s : State) (e : MgmtEvent) : State :=
  { s with module := { s.module with events := s.module.events ++ [e] } }

/-- One write sets CFG_REJECT once (R25): where it was 0 before the write, a second cause in the same write leaves MULTI as it was. -/
def State.onceRejected (s before : State) : State :=
  if before.ef F.CFG_REJECT_SET = 0 ∧ s.ef F.CFG_REJECT_SET = 1 then s.setEf F.CFG_REJECT_MULTI (before.ef F.CFG_REJECT_MULTI) else s

/-! ## Logical places (R43) -/

/-- BLOCK = block_y × 24 + block_x of a tile (R43, R385). -/
def blockOfTile (t : Nat) : Nat := t / 120 / 3 * 24 + t % 120 / 5
/-- The logical quarter of a block, quarter_y × 8 + quarter_x. -/
def quarterOfBlock (b : Nat) : Nat := b / 24 / 5 * 8 + b % 24 / 3
/-- lblock of a block (R43). -/
def lblockOf (b : Nat) : Nat := b / 24 % 5 * 3 + b % 24 % 3
/-- ltile of a tile (R43). -/
def ltileOf (t : Nat) : Nat := t / 120 % 3 * 5 + t % 120 % 5
/-- The 15 tiles of a block, ascending. -/
def tilesOfBlock (b : Nat) : List Nat :=
  (List.range 15).map (fun n => (b / 24 * 3 + n / 5) * 120 + b % 24 * 5 + n % 5)

/-- The rectangle of a partition: first block_x, columns, first block_y, rows (R541). -/
def State.rect (s : State) (p : Nat) : Nat × Nat × Nat × Nat :=
  (s.pf p F.PART_RECT_X_LO, s.pf p F.PART_RECT_X_N, s.pf p F.PART_RECT_Y_LO, s.pf p F.PART_RECT_Y_N)

/-- Does a rectangle hold a block? -/
def rectHas (r : Nat × Nat × Nat × Nat) (b : Nat) : Bool :=
  r.1 ≤ b % 24 && b % 24 < r.1 + r.2.1 && r.2.2.1 ≤ b / 24 && b / 24 < r.2.2.1 + r.2.2.2

/-- The state of a partition (R543). -/
def State.pstate (s : State) (p : Nat) : Nat := s.pf p F.PART_STATUS_STATE

/-- The partition that owns a block (R514). -/
def State.ownerOfBlock (s : State) (b : Nat) : Option Nat :=
  (List.range 16).find? (fun p => s.pstate p != 0 && rectHas (s.rect p) b)

/-- The partition that owns a tile. -/
def State.ownerOfTile (s : State) (t : Nat) : Option Nat := s.ownerOfBlock (blockOfTile t)

/-- *B*, the blocks of a partition (R514); 0 for no partition. -/
def State.blockCount (s : State) (p : Option Nat) : Nat :=
  match p with
  | some p => s.pf p F.PART_RECT_X_N * s.pf p F.PART_RECT_Y_N
  | none => 0

/-- The BLOCK of a partition block number (R385). -/
def State.blockAt (s : State) (p n : Nat) : Nat :=
  let r := s.rect p
  (r.2.2.1 + n / r.2.1) * 24 + r.1 + n % r.2.1

/-- The blocks of a partition in ascending partition block number. -/
def State.blocksOf (s : State) (p : Nat) : List Nat := (List.range (s.blockCount (some p))).map (s.blockAt p)

/-- The partition block number of a BLOCK. -/
def State.blockNumber (s : State) (p b : Nat) : Nat :=
  let r := s.rect p
  (b / 24 - r.2.2.1) * r.2.1 + (b % 24 - r.1)

/-- The tiles of a partition, block by block. -/
def State.tilesOf (s : State) (p : Nat) : List Nat := (s.blocksOf p).flatMap tilesOfBlock

/-- The context whose code a tile runs (R150, R521). -/
def State.ctxOfTile (s : State) (t : Nat) : Nat := (s.tile t).fld F.TILE_STATUS_CTX_ID

/-- Is a context fenced? (R561) -/
def State.fenced (s : State) (c : Nat) : Bool := s.cf c F.CTX_FENCE_FENCED == 1

/-- The tiles that run a context: those of its partition whose CTX_ID names it and that have its work placed. -/
def State.runsCtx (s : State) (t c : Nat) : Bool := s.ctxOfTile t == c && (s.tile t).work.isSome

/-! ## Addresses -/

/-- 24 GiB, the capacity of a block (R383). -/
def blockBytes : Nat := 0x600000000
/-- SPACE of a global address (R114). -/
def spaceOf (g : Nat) : Nat := g / 2 ^ 60
/-- VIEW of a stacked address (R385). -/
def viewOf (g : Nat) : Nat := bitsOf g 45 3
/-- BLOCK of a direct stacked address. -/
def blockOf (g : Nat) : Nat := bitsOf g 35 10
/-- The local part of a tile-store address. -/
def localOf (g : Nat) : Nat := g % 2 ^ 22
/-- The canonical form of a tile-store address: SPACE 0x1. -/
def tileAddr (t a : Nat) : Nat := 2 ^ 60 + t * 2 ^ 46 + a
/-- The direct form of a block offset. -/
def directAddr (b off : Nat) : Nat := 2 * 2 ^ 60 + b * 2 ^ 35 + off

/-- MVCAUSE 1 (R391): a reserved SPACE, tile_index, VIEW or address bit. -/
def formBad (g : Nat) : Bool :=
  match spaceOf g with
  | 0 => bitsOf g 22 38 != 0
  | 1 => 10800 ≤ bitsOf g 46 14 || bitsOf g 22 24 != 0
  | 2 => bitsOf g 48 12 != 0 || 2 ≤ viewOf g
  | 3 => false
  | _ => true

/-- MVCAUSE 3: a stacked range out of range, `n` bytes from `g` for a partition of `B` blocks. -/
def stackedOut (B g n : Nat) : Bool :=
  spaceOf g == 2 && (if viewOf g = 0 then 720 ≤ blockOf g || blockBytes < g % 2 ^ 35 + n
    else B * blockBytes < g % 2 ^ 45 + n)

/-- MVCAUSE 4: a direct block outside the requester's partition. -/
def State.foreign (s : State) (p : Option Nat) (g : Nat) : Bool :=
  spaceOf g == 2 && viewOf g == 0 && (s.ownerOfBlock (blockOf g) != p || p.isNone)

/-- MVCAUSE 5: a tile-store extent that reaches past the store. -/
def localOut (g n : Nat) : Bool := spaceOf g < 2 && storeEnd < localOf g + n

/-- The direct form of interleaved offset `o` of partition `p` (R387). -/
def State.interleave (s : State) (p o : Nat) : Nat :=
  let B := s.blockCount (some p)
  let g := o / 4096
  directAddr (s.blockAt p (g % B)) (g / B * 4096 + o % 4096)

/-- The partition offset of a direct address: the inverse of R387. -/
def State.deinterleave (s : State) (p g : Nat) : Nat :=
  let off := g % 2 ^ 35
  (off / 4096 * s.blockCount (some p) + s.blockNumber p (blockOf g)) * 4096 + off % 4096

/-- A global address in canonical form: a tile store as SPACE 0x1, stacked memory as a direct address. -/
def State.canon (s : State) (p : Option Nat) (t g : Nat) : Nat :=
  match spaceOf g, p with
  | 0, _ => tileAddr t (localOf g)
  | 2, some p => if viewOf g = 1 then s.interleave p (g % 2 ^ 45) else g
  | _, _ => g

end Sys2Proof.Machine
end

