-- ==== Sys2Proof/Machine/Regs.lean ====
section
/-!
DEFINITION. Writes to registers by their access codes (R24, R25), and the map of logical tiles (R44 to R57).
-/
namespace Sys2Proof.Machine

/-- One field of a write: the new register value, and whether the field holds a reserved encoding (R24, R25). -/
def FSpec.write (f : FSpec) (old w : Nat) (bad : Bool) : Nat × Bool :=
  let v := bitsOf w f.fld.lo f.fld.width
  let cur := bitsOf old f.fld.lo f.fld.width
  let no := bad || !f.chk.accepts v
  match f.acc with
  | .ro => (old, false)
  | .rw => if no then (old, true) else (setBits old f.fld.lo f.fld.width v, false)
  | .w1c => (setBits old f.fld.lo f.fld.width (Nat.land cur (Nat.xor v (2 ^ f.fld.width - 1))), false)
  | .w1s => (setBits old f.fld.lo f.fld.width (Nat.lor cur v), false)
  | .wo => (old, no)

/-- The bits of a register that no field covers are RSV. -/
def RegSpec.rsvBits (r : RegSpec) (w : Nat) : Nat :=
  r.fields.foldl (fun w (f : FSpec) => setBits w f.fld.lo f.fld.width 0) w

/-- A write to a register: its new value, and whether CFG_REJECT is set, once for the whole write (R25). `bad` names
the fields whose written value is a reserved encoding for a reason that the table does not give. -/
def RegSpec.write (r : RegSpec) (old w : Nat) (bad : Fld → Bool) : Nat × Bool :=
  r.fields.foldl (fun (a : Nat × Bool) (f : FSpec) =>
    let (n, rej) := f.write a.1 w (bad f.fld)
    (n, a.2 || rej)) (old, r.rsvBits w != 0)

/-- Does a host register take effect at the next round boundary: CTX_QUOTA, ADM_SHARE, FOX_DUMP_PERIOD or MEM_CLASS_CFG (R423,
R525, R537, R646)? -/
def atBoundary (a : Nat) : Bool :=
  match pageOf a with
  | .ctx c => a == ctxPage c + F.CTX_QUOTA_MEM.reg
  | .part p => a == partPage p + F.FOX_DUMP_PERIOD_BEATS.reg
  | .block b => a == blockPage b + F.MEM_CLASS_CFG_FLOOR_N.reg
  | .engine => a == F.ADM_SHARE_SHARE_WAFER.reg
  | _ => false

/-- A register that a boundary reads is about to be written: its value before this tick's writes is kept (R19). -/
def State.notePrior (s : State) (a : Nat) : State :=
  if !atBoundary a ∨ (s.prior.find a).any (fun e => e.1 == s.owl.ns) then s
  else { s with prior := s.prior.put a (s.owl.ns, s.hostWord a) }

/-- What a register held strictly before this tick (R19). -/
def State.asOf (s : State) (a : Nat) : Word :=
  match s.prior.find a with
  | some (k, w) => if k = s.owl.ns then w else s.hostWord a
  | none => s.hostWord a

/-- A field as it was strictly before this tick, of the register at `base` and the field's offset. -/
def State.fieldAsOf (s : State) (base : Nat) (f : Fld) : Nat := wordField (s.asOf (base + f.reg)) f.lo f.width

/-- A write of `w` to the host register at BAR0 offset `a` by source `src` (R155). -/
def State.writeHost (s : State) (a w src : Nat) (bad : Fld → Bool) : State :=
  match hostReg a with
  | none => s.hostReject a src
  | some r =>
    let (n, rej) := r.write (s.hostWord a).toNat w bad
    let s := (s.notePrior a).setHost a (BitVec.ofNat 64 n)
    if rej then s.hostReject a src else s

/-- No field is refused for a reason beyond the table. -/
def noBad : Fld → Bool := fun _ => false

/-- A write of `w` to the control register `a` of a tile by source `src`. Of MFLAGS, VFLAGS and SFLAGS a flag that has been set
in this tile cycle stays set (R192). -/
def Tile.writeSpec (T : Tile) (a w src : Nat) (bad : Fld → Bool) : Tile :=
  match findReg tileRegs a with
  | none => T.cfgReject a src
  | some r =>
    let (n, rej) := r.write (T.ctlWord a).toNat w bad
    let n := if a ≤ 2 then Nat.lor n (T.flagsNow.get (fun _ => 0) a) else n
    let T := T.setCtl a (BitVec.ofNat 64 n)
    if rej then T.cfgReject a src else T

/-! ## The map -/

/-- The factory map's entry of a tile, in the layout of MAP_RESULT[31:0] (R45, R50, R56), for a part none of whose
units failed at the factory. -/
def mapDflt (t : Nat) : Nat :=
  let i := t % 120
  let j := t / 120
  let lb := j % 15 / 3 * 3 + i % 15 / 5
  let lt := j % 3 * 5 + i % 5
  i / 15 + j / 15 * 2 ^ 3 + lb * 2 ^ 6 + lt * 2 ^ 10 + 32 * 2 ^ 14 + lb * 2 ^ 20

/-- The map entry of a tile as it is held; STATE is 1 for a tile of a vacant block (R40). -/
def State.mapEntry (s : State) (t : Nat) : Nat := s.map.get mapDflt t

/-- Change map entries. -/
def State.setMap (s : State) (t e : Nat) : State := { s with map := s.map.set mapDflt t e }

/-- Is a tile marked for retirement, itself, with a column of its array, or with its block (R583)? -/
def State.isMarked (s : State) (t : Nat) : Bool :=
  (s.tile t).marked || (s.markCols.find t).isSome || (s.block (blockOfTile t)).retire

/-- The map entry as MAP_RESULT shows it: STATE 2 for a marked tile (R56). The map image shows `State.mapEntry`, without the
mark (log entry 50). -/
def State.mapShown (s : State) (t : Nat) : Nat :=
  let e := s.mapEntry t
  if bitsOf e 24 2 = 0 ∧ s.isMarked t then setBits e 24 2 2 else e

/-- Is a block vacant (R40)? -/
def State.vacant (s : State) (b : Nat) : Bool := ((tilesOfBlock b).head?.map (fun t => bitsOf (s.mapEntry t) 24 2)) == some 1

end Sys2Proof.Machine
end

