-- ==== Sys2Proof/Machine/Mem.lean ====
section
/-!
DEFINITION. Stacked memory: lines, their errors, scrub and spares, and the two ends of a request's copy (R383 to R415).
-/
namespace Sys2Proof.Machine

/-- The direct stacked address of a direct global address. -/
def lineKey (g : Nat) : Nat := g % 2 ^ 48 / 64 * 64

/-- The row of a line: its address without the byte, line and sector bits (R386). -/
def rowKey (a : Nat) : Nat := setBits (a / 256 * 256) 16 3 0
/-- The 64-row group of a row (R383). -/
def groupKey (row : Nat) : Nat := setBits row 19 6 0
/-- The channel of a line (R386). -/
def channelOf (a : Nat) : Nat := bitsOf a 8 4

/-- A write of `n` bytes at partition offset `o` tears the components of the PROV commands that run whose extent has a line of
it (R598). -/
def ProvRun.tear (r : ProvRun) (o n : Nat) : ProvRun :=
  { r with comps := r.comps.map (fun (c : ProvComp) =>
      if c.len ≠ 0 ∧ o / 64 * 64 < c.addr + c.len ∧ c.addr < roundUp (o + n) 64 then { c with torn := true } else c) }

/-- Entries of the provenance cache whose extent has a line of the `n` bytes at a direct address become invalid (R600), and the
PROV commands that run find it torn (R598). The bytes lie in one 4 KiB page, so they are contiguous in the partition too
(R387). -/
def State.uncache (s : State) (a n : Nat) : State :=
  match s.ownerOfBlock (blockOf a) with
  | none => s
  | some p =>
    if (s.part p).cache = [] ∧ (s.part p).provs = [] then s
    else
      let o := s.deinterleave p a
      let live := (s.part p).cache.filter (fun (e : PCache) => roundUp (o + n) 64 ≤ e.addr || e.addr + e.len ≤ o / 64 * 64)
      (s.onPart p (fun P => { P with cache := live, provs := P.provs.map (fun r => r.tear o n) })).setPf p F.PROV_CACHE_VALID
        live.length

/-- An accepted write of `n` bytes at a direct address (R393): the bytes, the reservation on the line (R134), and the
provenance cache entries that cover it (R600). -/
def State.writeMem (s : State) (a n v : Nat) : State :=
  let l := a / 64
  ({ s with mem := memWrite s.mem a n v, homes := s.homes.mapv homeDflt (fun k h => if k = l then h.hit else h) } : State).uncache a n

/-- A whole-line write performs, and clears an error and the poison (R408). -/
def State.writeLine (s : State) (a v : Nat) : State :=
  let s := s.writeMem a 64 v
  { s with memUE := s.memUE.filter (· != a), memPoison := s.memPoison.filter (· != a) }

/-- An uncorrectable line is logged (R427): ADDR and SRC by the first, MULTI by a further one. -/
def State.logUE (s : State) (a src : Nat) : State :=
  let pg := blockPage (blockOf a)
  if s.hf pg F.MEM_ERR_LOG_VALID = 1 then s.setHf pg F.MEM_ERR_LOG_MULTI 1
  else ((s.setHf pg F.MEM_ERR_LOG_VALID 1).setHf pg F.MEM_ERR_LOG_ADDR a).setHf pg F.MEM_ERR_LOG_SRC src

/-- A block is marked for retirement at its partition's next reset (R414). -/
def State.retireBlock (s : State) (b : Nat) : State :=
  ((s.onBlock b (fun B => { B with retire := true })).setHf (blockPage b) F.MEM_STATUS_RETIRE 1).setEf
    F.DUM_INFO_PENDING 1

/-- A row is due for replacement at the next refresh beat (R411); without a spare row left, a row that holds an
uncorrectable line marks the block (R414). -/
def State.rowBad (s : State) (a : Nat) (ue : Bool) : State :=
  let b := blockOf a
  let row := rowKey a
  let B := s.block b
  if B.sparesUsed.contains (groupKey row) then (if ue then s.retireBlock b else s)
  else if B.rowDue.contains row then s
  else s.onBlock b (fun B => { B with rowDue := insertNat row B.rowDue })

/-- Count a line slot of a class in the block's counters (R399, R644): 0 L, 1 N, 2 W, 3 B, 4 a window. -/
def State.slotMem (s : State) (b cls n : Nat) : State :=
  s.onBlock b (fun B => match cls with
    | 0 => { B with memL := B.memL + n }
    | 1 => { B with memN := B.memN + n }
    | 2 => { B with memW := B.memW + n }
    | 3 => { B with memB := B.memB + n }
    | _ => { B with memWin := B.memWin + n })

/-- Line `a` has been corrected (R407): it is counted, written back in class B while WRITEBACK is 1, and a third line of its row
in the pass makes the row due (R411). -/
def State.corrected (s : State) (a : Nat) : State :=
  let b := blockOf a
  let lines := insertNat a ((s.block b).corr.filter (· != a))
  let s := (s.satHf (blockPage b) F.MEM_ERR_CNT_CE 1).onBlock b (fun B => { B with corr := lines })
  let s := if s.hf (blockPage b) F.MEM_SCRUB_CFG_WRITEBACK = 1 then s.slotMem b 3 1 else s
  if 3 ≤ (lines.filter (fun x => rowKey x == rowKey a)).length then s.rowBad a false else s

/-- A read of line `a` by the controller. `err` are the symbol errors that the array and the way to the controller give it
(R406); `src` is SRC of MEM_ERR_LOG; `marks` says that the reader marks the line poisoned (R409). The answer is 0, or the
ECODE 1 or 2 of R398. Errors that the code corrects wrongly or does not see change the line (log 87). -/
def State.readLine (s : State) (a : Nat) (err : LineErr) (src : Nat) (marks : Bool) : State × Nat :=
  let pg := blockPage (blockOf a)
  let broken : NMap Home := s.homes.mapv homeDflt (fun k h =>
    if k = a / 64 ∧ h.holder.isSome ∧ h.status = 0 then { h with status := 4 } else h)
  if s.memPoison.contains a then
    if src = 1 then (s, 2) else ({ s.logUE a src with homes := broken }, 2)
  else if eccRead err = none ∨ s.memUE.contains a then
    let s := ((s.satHf pg F.MEM_ERR_CNT_UE 1).logUE a src).rowBad a true
    let s := { s with homes := broken, memUE := insertNat a (s.memUE.filter (· != a)) }
    (if marks then { s with memPoison := insertNat a s.memPoison } else s, 1)
  else match eccRead err with
    | some (n, wrong) =>
      let s := if wrong = 0 then s else { s with mem := memWrite s.mem a 64 (Nat.xor (memRead s.mem a 64) wrong) }
      (if n = 0 then s else s.corrected a, 0)
    | none => (s, 0)

/-- A read of `n` bytes within one line for a request (R408): the bytes, or an ECODE. -/
def State.readStacked (s : State) (g n : Nat) (err : LineErr) (marks : Bool) (src cls : Nat) : State × Nat × Nat :=
  let a := g % 2 ^ 48
  let (s, code) := (s.slotMem (blockOf a) cls 1).readLine (a / 64 * 64) err src marks
  (s, memRead s.mem a n, code)

/-- A write of `n` bytes within one line for a request (R394): a whole line, or a partial write whose read may find the
line uncorrectable; it is then not performed (R408). -/
def State.writeStacked (s : State) (g n v : Nat) (err : LineErr) (cls : Nat) : State × Nat :=
  let a := g % 2 ^ 48
  if n = 64 ∧ a % 64 = 0 then ((s.slotMem (blockOf a) cls 1).writeLine a v, 0)
  else
    let (s, code) := (s.slotMem (blockOf a) cls 2).readLine (a / 64 * 64) err 2 true
    if code = 0 then (s.writeMem a n v, 0) else (s, code)

/-- Zero `n` bytes from a direct address on, with valid check symbols (R404). -/
def State.zeroMem (s : State) (a n : Nat) : State :=
  { s with mem := memZero s.mem a n, memUE := s.memUE.filter (fun x => x < a || a + n ≤ x),
           memPoison := s.memPoison.filter (fun x => x < a || a + n ≤ x),
           homes := s.homes.mapv homeDflt (fun k h => if a / 64 ≤ k ∧ k * 64 < a + n then h.hit else h) }

/-- Does the block serve requests? Not while it is vacant (R34, R41) or a zero-fill runs (R404), and not in Hibernate (R622). -/
def State.serves (s : State) (b : Nat) : Bool :=
  !s.vacant b && s.hf (blockPage b) F.MEM_STATUS_FILLING == 0 &&
  match s.ownerOfBlock b with
  | some p => s.pf p F.HIB_STATUS_PHASE != 2 && s.pf p F.HIB_STATUS_PHASE != 3
  | none => true

/-! ## Refresh, scrub and spares -/

/-- Is a beat a refresh beat of a block? (R402) A vacant block's controller does nothing (R34). -/
def State.refreshBeat (s : State) (b beat : Nat) : Bool :=
  !s.vacant b && if s.hf (blockPage b) F.MEM_STATUS_HOT = 1 then beat % 16 == 15 else beat % 32 == 31

/-- A refresh beat of a block (R402): every bank refreshes its next row, and the on-die correction counts that the
controller reads are added (R405). -/
def execRefreshBeat (b : BlockIx) (ondie : BitVec 24) (s : State) : Host.Outcome State Fault Refusal :=
  .next (if s.refreshBeat b s.beat then
    (s.satHf (blockPage b) F.MEM_ERR_CNT_ONDIE ondie.toNat).onBlock b (fun B => { B with refresh := B.refresh + 1 })
  else s)

/-- The controller zero-fills the layers of a mask (R404), as it does in bring-up and for a replacement block. It ends
the fill that FILLING reports. -/
def execZeroFill (b : BlockIx) (layers : BitVec 12) (s : State) : Host.Outcome State Fault Refusal :=
  .next (if s.hf (blockPage b) F.MEM_STATUS_FILLING = 1 then
    ((List.range 12).foldl (fun (s : State) l =>
      if bitOf layers.toNat l then s.zeroMem (b * 2 ^ 35 + l * 2 ^ 31) (2 ^ 31) else s) s).setHf
        (blockPage b) F.MEM_STATUS_FILLING 0
  else s)

/-- The next line of a scrub pass (R410), in address order over the block's 24 GiB. -/
def State.scrubNext (s : State) (b : Nat) (err : LineErr) : State :=
  let at_ := (s.block b).scrubAt
  let (s, _) := (s.slotMem b 3 1).readLine (b * 2 ^ 35 + at_) err 1 true
  let nxt := at_ + 64
  s.onBlock b (fun B => if nxt = blockBytes then { B with scrubAt := 0, corr := [] } else { B with scrubAt := nxt })

/-- SCRUB_READ (R410): the scrubber reads the next line while it is enabled. -/
def execScrubRead (b : BlockIx) (err : LineErr) (s : State) : Host.Outcome State Fault Refusal :=
  .next (if s.hf (blockPage b) F.MEM_SCRUB_CFG_EN = 1 ∧ s.serves b then s.scrubNext b err else s)

/-- MEM_SCRUB_CFG.NOW starts a pass at once (R410, R424). -/
def State.scrubNow (s : State) (b : Nat) : State := s.onBlock b (fun B => { B with scrubAt := 0, corr := [] })

/-- SCRUB_NOW: a write of 1 to MEM_SCRUB_CFG.NOW. -/
def execScrubNow (b : BlockIx) (s : State) : Host.Outcome State Fault Refusal := .next (s.scrubNow b)

/-- The spare row of the 64-row group of row `r` is in use: the due rows of the group stay in service (R411), and one that
holds an uncorrectable line marks the block (R414). -/
def State.rowsStay (s : State) (b r : Nat) : State :=
  let g := groupKey r
  let stay := (s.block b).rowDue.filter (groupKey · == g)
  let s := s.onBlock b (fun B => { B with rowDue := B.rowDue.filter (groupKey · != g) })
  if s.memUE.any (fun a => stay.contains (rowKey a)) then s.retireBlock b else s

/-- ROW_REPLACE (R411): at a refresh beat a row that is due is copied to its group's spare row and mapped to it. The
bytes of the row are unchanged, poisoned lines stay poisoned, and an uncorrectable line that the copy meets is copied
poisoned. The group's other due rows stay in service (R414). -/
def execRowReplace (b : BlockIx) (row : BitVec 35) (s : State) : Host.Outcome State Fault Refusal :=
  let r := b * 2 ^ 35 + row.toNat
  .next (if s.refreshBeat b s.beat ∧ (s.block b).rowDue.contains r then
    if (s.block b).sparesUsed.contains (groupKey r) then s.rowsStay b r
    else
      let bad := s.memUE.filter (fun a => rowKey a == r)
      let s := bad.foldl (fun (s : State) a =>
        if s.memPoison.contains a then s else { s.logUE a 3 with memPoison := insertNat a s.memPoison }) s
      let s := s.onBlock b (fun B => { B with rowDue := B.rowDue.filter (· != r),
                                               sparesUsed := insertNat (groupKey r) B.sparesUsed,
                                               corr := B.corr.filter (fun a => rowKey a != r) })
      (s.setHf (blockPage b) F.MEM_STATUS_ROWS_LEFT (s.hf (blockPage b) F.MEM_STATUS_ROWS_LEFT - 1)).rowsStay b r
  else s)

/-- BOND_SWAP (R412): a bond of a channel has failed. Before the refresh beat it waits as maintenance (R620, log 100); at the
refresh beat it is steered onto a spare bond; with no
spare left the block is degraded, and a second such bond marks it for retirement (R414). -/
def execBondSwap (b : BlockIx) (ch : BitVec 4) (s : State) : Host.Outcome State Fault Refusal :=
  let c := ch.toNat
  let used := (s.block b).bondsUsed.get (fun _ => 0) c
  let bare := (s.block b).bare.get (fun _ => 0) c
  .next (if s.refreshBeat b s.beat then
    let s := s.onBlock b (fun B => { B with bondDue := B.bondDue.erase c })
    if used < 16 then
      (s.onBlock b (fun B => { B with bondsUsed := B.bondsUsed.set (fun _ => 0) c (used + 1) })).setHf (blockPage b)
        F.MEM_STATUS_BONDS_LEFT (s.hf (blockPage b) F.MEM_STATUS_BONDS_LEFT - 1)
    else
      let s := (s.onBlock b (fun B => { B with bare := B.bare.set (fun _ => 0) c (bare + 1) })).setHf (blockPage b)
        F.MEM_STATUS_DEGRADED 1
      if 1 ≤ bare then s.retireBlock b else s
  else if s.serves b then s.onBlock b (fun B => { B with bondDue := B.bondDue ++ [c] })
  else s)

end Sys2Proof.Machine
end

