-- ==== Sys2Proof/Machine/Xq.lean ====
section
/-!
DEFINITION. The X queue (R103 to R109), request tags and error records (R392 to R398), and the homes of atomics
(R132 to R136).
-/
namespace Sys2Proof.Machine

/-! ## The queue -/

/-- Is an instruction a `fence`? -/
def isFence : Instr → Bool
  | .fence _ => true
  | _ => false

/-! ## Tags and records -/

/-- A request by its tag. -/
def Tile.req (T : Tile) (tag : Nat) : Option XReq := T.reqs.find tag

/-- Replace a request. -/
def Tile.setReq (T : Tile) (tag : Nat) (r : XReq) : Tile := { T with reqs := T.reqs.put tag r }

/-- The tag value of R396. -/
def tagValue (tag gen : Nat) : Word := BitVec.ofNat 64 (tag + gen * 128)

/-- The free tags of a tile. -/
def Tile.freeTags (T : Tile) : List Nat := (List.range 128).filter (fun i => (T.req i).isNone)

/-- A request with nothing done yet. -/
def XReq.fresh (kind : XKind) (gen order : Nat) (e : QEntry) (user : Bool) (ctx : Nat) : XReq :=
  { kind := kind, gen := gen, order := order, entry := e, parent := 0, user := user, ctx := ctx, pieces := [], got := [],
    wrote := [], bad := [], total := 0, launched := 0, limit := 0, answer := none, code := 0, deadline := 0, done := false }

/-- Give out a tag (R396): which of the free tags is a free value; its generation rises by one. -/
def State.newTag (s : State) (t : Nat) (mk : Nat → Nat → XReq) : State × Nat :=
  let T := s.tile t
  let l := T.freeTags
  let tag := l.getD (Config.tagPick s.free % l.length) 0
  let gen := (T.gens.get (fun _ => 0) tag + 1) % 2 ^ 16
  let r := mk gen T.orders
  let T := { T.setReq tag { r with parent := if r.kind = .part then r.parent else tag } with
    gens := T.gens.set (fun _ => 0) tag gen, orders := T.orders + 1 }
  ({ s.setTile t T with free := s.free + 1 }, tag)

/-- sA of a finished or launched X instruction is written, and no longer awaited (R106, R126). -/
def Tile.writeDest (T : Tile) (i : Instr) (w : Word) : Tile :=
  { T.setS (destReg i) w with sWait := T.sWait.filter (· != destReg i) }

/-- Free a tag. -/
def Tile.freeTag (T : Tile) (tag : Nat) : Tile := { T with reqs := T.reqs.del tag }

/-- A request has completed: its tag is freed, or kept until its record is posted (R397). -/
def Tile.finish (T : Tile) (tag : Nat) (r : XReq) : Tile :=
  if r.bad = [] ∧ r.code = 0 then T.freeTag tag else T.setReq tag { r with done := true }

/-- The lowest failure of a request. -/
def lowestBad : List (Nat × Nat × Nat) → Option (Nat × Nat × Nat)
  | [] => none
  | b :: l => match lowestBad l with
    | none => some b
    | some c => if c.1 < b.1 then some c else some b

/-- ENGINE of a record (R398). -/
def recordEngine (r : XReq) : Nat :=
  match r.kind, moveFields r.entry.instr with
  | .stream, some (f, _) => f.k.toNat % 4
  | .atomic, _ | .hold, _ | .commit, _ => 3
  | _, _ => 0

/-- The failures that a record reports: errors of R398, else those of R464, else late lines (R464: an error precedes a
note, and the errors of R398 precede LATE). -/
def ranked (l : List (Nat × Nat × Nat)) : List (Nat × Nat × Nat) :=
  let a := l.filter (fun b => b.2.1 < 16)
  let b := l.filter (fun b => b.2.1 != 17)
  if a ≠ [] then a else if b ≠ [] then b else l

/-- ECODE, COUNT and ADDR of the record (R398, R464). A `mv.recv` names its ends in `code`, `limit` and `deadline`. -/
def recordOf (r : XReq) : Nat × Nat × Nat :=
  match r.kind, lowestBad (ranked r.bad) with
  | .stream, some (_, _, a) => (4, r.bad.length, a)
  | _, some (_, c, a) => (c, (ranked r.bad).length, a)
  | _, none => (r.code, max 1 r.limit, r.deadline)

/-- Words 0 and 1 of an error record (R398). -/
def recordWords (tag : Nat) (r : XReq) : Nat × Nat :=
  let (c, n, a) := recordOf r
  (tag + r.gen * 2 ^ 7 + c * 2 ^ 23 + recordEngine r * 2 ^ 29 + (n % 2 ^ 21) * 2 ^ 32, a)

/-- Count a record of Streets and Links in MV_LATE (R472), and mark the tile for TSTORE_UE (R583). -/
def Tile.countRecord (T : Tile) (code : Nat) : Tile :=
  let seen := fun (T : Tile) => T.setFld F.MV_LATE_SEEN 1
  match code with
  | 16 => seen (T.satFld F.MV_LATE_LATES 1)
  | 17 => seen (T.satFld F.MV_LATE_NOTES 1)
  | 18 => seen (T.satFld F.MV_LATE_DOWNS 1)
  | _ => T

/-- Post a record (R397, R398): into the ring, or counted as lost with no ring, or it waits for space. -/
def Tile.post (T : Tile) (tag : Nat) (r : XReq) : Tile :=
  let size := T.fld F.MV_ERRQ_CFG_SIZE
  let tail := T.fld F.MV_ERRQ_PTR_TAIL
  if size = 0 then ((T.satFld F.MV_ERRQ_PTR_LOST 1).countRecord (recordOf r).1).freeTag tag
  else if (tail + 8192 - T.fld F.MV_ERRQ_PTR_HEAD) % 8192 = 2 ^ size then T.setFld F.MV_ERRQ_PTR_FULL 1
  else
    let a := T.fld F.MV_ERRQ_CFG_BASE + 16 * (tail % 2 ^ size)
    let (w0, w1) := recordWords tag r
    let T := (T.poke a 8 w0).poke (a + 8) 8 w1
    ((T.setFld F.MV_ERRQ_PTR_TAIL (tail + 1)).countRecord (recordOf r).1).freeTag tag

/-- The request whose record is next in launch order, when every earlier one has completed or posted (R397). -/
def Tile.nextRecord (T : Tile) : Option (Nat × XReq) :=
  match T.reqs.filter (fun (r : Nat × XReq) => r.2.kind != .part) with
  | [] => none
  | x :: l =>
    let m := l.foldl (fun (b : Nat × XReq) r => if r.2.order < b.2.order then r else b) x
    if m.2.done then some m else none

/-! ## Launch checks -/

/-- EXC_INFO of MOVE (R391). -/
def moveInfo (cause which addr : Nat) : Word := BitVec.ofNat 64 (cause + which * 16 + addr / 64 * 64)

/-- Causes 1 to 5 of R391 for a range of `n` bytes, those of the causes in `l`. -/
def State.rangeCause (s : State) (p : Option Nat) (g n align cause : Nat) : Bool :=
  match cause with
  | 1 => formBad g
  | 2 => g % align != 0
  | 3 => stackedOut (s.blockCount p) g n
  | 4 => s.foreign p g
  | 5 => localOut g n
  | _ => false

/-- The first failure of two ranges in the order of the MVCAUSE table, source before destination. -/
def State.rangesFault (s : State) (p : Option Nat) (l : List (Nat × Nat × Nat)) (align : Nat) : Option Word :=
  ([1, 2, 3, 4, 5].findSome? (fun c => l.findSome? (fun r =>
    if s.rangeCause p r.2.1 r.2.2 align c then
      some (moveInfo c r.1 (if c = 5 then r.2.1 % 2 ^ 60 % 2 ^ 46 else r.2.1)) else none)))

/-- MVCAUSE 6: the lowest destination line that shares a byte with the source (R391). -/
def State.shared (s : State) (p : Option Nat) (t src dst lines : Nat) : Option Nat :=
  let inSrc := fun (c : Nat) =>
    if spaceOf src = 2 ∧ viewOf src = 1 then
      spaceOf c == 2 && (match p with
        | some p => let o := s.deinterleave p c; src % 2 ^ 45 ≤ o && o < src % 2 ^ 45 + 64 * lines
        | none => false)
    else let b := s.canon p t src; b ≤ c && c < b + 64 * lines
  (List.range lines).find? (fun k => inSrc (s.canon p t (dst + 64 * k)))

/-- The function whose Requester ID a host request carries (R681): 0 the PF, c + 1 the context's VF. -/
def State.requester (s : State) (user : Bool) (c : Nat) : Nat := if user ∧ s.vfs.contains (c + 1) then c + 1 else 0

/-- Does a host range lie wholly in one enabled window of the context that allows the access? (R682, R711) -/
def State.inWindow (s : State) (c h n : Nat) (write : Bool) : Bool :=
  [0, 1, 2, 3].any (fun k =>
    let at_ := fun (f : Fld) => s.hf (ctxPage c) (f.at (8 * k))
    let base := at_ F.CTX_HWIN_BASE_MB * 2 ^ 20
    let size := at_ F.CTX_HWIN_SIZE_MB * 2 ^ 20
    size != 0 && base ≤ h && h + n ≤ base + size &&
      (if write then at_ F.CTX_HWIN_WR == 1 else at_ F.CTX_HWIN_RD == 1))

/-- The checks of R682 for one user-mode range: MVCAUSE 13 or 14. -/
def State.hostCause (s : State) (user : Bool) (c g n : Nat) (write : Bool) : Option Nat :=
  if spaceOf g != 3 ∨ !user then none
  else if !s.master.contains (s.requester user c) then some 13
  else if s.inWindow c (g % 2 ^ 60) n write then none else some 14

/-- The second operand of a movement instruction. -/
def QEntry.dst (e : QEntry) : Nat := e.desc.toNat / 2 ^ 64 % 2 ^ 64

/-! ## Stamps and bindings -/

/-- BEAT and SEN of word 1 (R126). -/
def stampOf (i : Instr) : Option Nat :=
  match moveFields i with
  | some (f, k) => if k != .recv ∧ bitOf f.w1.toNat 12 then some (bitsOf f.w1.toNat 0 12) else none
  | none => none

/-- The destination as a launch entry's KIND and DEST name it (R436, R528). -/
def State.entryDest (s : State) (p : Option Nat) (t : Nat) (e : QEntry) : Nat × Nat :=
  match moveFields e.instr with
  | some (f, .send) => (2, bitsOf f.w1.toNat 13 6)
  | _ =>
    let d := s.canon p t e.dst
    let r := s.canon p t e.sb.toNat
    if spaceOf d = 1 ∧ spaceOf r ≠ 2 then (0, bitsOf d 46 14)
    else
      let m := if spaceOf d = 2 then d else r
      (1, blockOf m + bitsOf m 31 4 * 1024)

/-- The launch entries in force in a tile, with a key of their own: timetable and index (R436, R534, R538). -/
def State.launchEntries (s : State) (t : Nat) : List (Nat × TEntry) :=
  s.tables.flatMap (fun tb =>
    if tb.installed ∧ !tb.suspended ∧ !tb.gone then
      ((tb.entries.zipIdx).filter (fun x => bitsOf x.1.w0 0 4 < 3 && bitsOf x.1.w0 16 14 == t)).map
        (fun x => (tb.count * 65536 + x.2, x.1))
    else [])

/-- The entry that a stamped launch binds to (R437): BEAT, KIND and destination equal, LEN within LINES, and not yet
bound in this round. -/
def State.bindTo (s : State) (p : Option Nat) (t : Nat) (e : QEntry) : Option (Nat × TEntry) :=
  match stampOf e.instr with
  | none => none
  | some beat =>
    let (k, d) := s.entryDest p t e
    (s.launchEntries t).find? (fun x =>
      bitsOf x.2.w0 0 4 == k && bitsOf x.2.w0 4 12 == beat && lenOf e.instr ≤ bitsOf x.2.w0 32 12 &&
        (if k = 2 then bitsOf x.2.w1 0 6 == d else bitsOf x.2.w1 0 18 == d) &&
        !(s.tile t).boundIn.contains (x.1, s.round))

/-- Count a stamped launch as bound or unbound (R437, R471), and remember the binding. -/
def Tile.countBind (T : Tile) (stamped : Bool) (b : Option (Nat × TEntry)) (round : Nat) : Tile :=
  match b with
  | some (k, _) =>
    let T := T.satFld F.MV_TT_STAT_BOUND 1
    { T with boundIn := (k, round) :: T.boundIn.filter (fun (x : Nat × Nat) => x.2 == round) }
  | none => if stamped then (T.satFld F.MV_TT_STAT_UNBOUND 1).setFld F.MV_TT_STAT_UNBOUND_SEEN 1 else T

/-- The global beat of a bound launch's deadline (R436), 0 for open traffic. -/
def State.deadlineOf (s : State) (b : Option (Nat × TEntry)) : Nat :=
  match b with
  | some (_, x) => s.round * 4096 + bitsOf x.w0 4 12 + bitsOf x.w0 44 12
  | none => 0

end Sys2Proof.Machine
end

