-- ==== Sys2Proof/Machine/Move.lean ====
section
/-!
DEFINITION. Movement (R126, R388 to R398), gather streams (R269 to R274), atomics (R132 to R137), and the events that
serve, complete and record their requests.
-/
namespace Sys2Proof.Machine

/-! ## Parts of an instruction -/

/-- May a request leave the tile? Its clock runs, it is not halted, its pads are not held, and its context is not
fenced (R555, R628, R666). -/
def State.mayLeave (s : State) (t : Nat) : Bool :=
  let T := s.tile t
  (T.power == .on || T.power == .doze) && T.fld F.DBG_STATUS_HALTED == 0 && !T.padsHeld &&
    !(T.work.isSome && s.fenced (s.ctxOfTile t))

/-- Word `n` of the descriptor of a stream that has launched. -/
def QEntry.stream (e : QEntry) (n : Nat) : Nat := bitsOf e.desc.toNat (256 + 64 * n) 64

/-- A stream at its launch: the engine has read its descriptor, and its extents are fixed (R272). -/
def QEntry.captured (T : Tile) (e : QEntry) : QEntry :=
  { e with
    ranges := (streamExtents T e).tail
    desc := BitVec.ofNat 512 (e.desc.toNat % 2 ^ 256 + T.peek e.sc.toNat 32 * 2 ^ 256) }

/-- Element `n` of a stream: remote address, local address, size (R271). -/
def streamElem (T : Tile) (e : QEntry) (n : Nat) : Nat × Nat × Nat :=
  let w0 := e.stream 0
  let w1 := e.stream 1
  let kind := bitsOf w0 0 4
  let es := 2 ^ bitsOf w0 8 3
  let gather := kind % 2 == 0
  let remote := if gather then e.sb.toNat else e.dst
  let loc := localOf (if gather then e.dst else e.sb.toNat) + n * es
  let off : Int :=
    if kind < 2 then
      let iw := if bitOf w0 4 then 8 else 4
      (T.peek (bitsOf w1 0 22 + iw * n) iw * 2 ^ bitsOf w0 11 5 : Nat)
    else
      let c0 := bitsOf w0 16 21
      signed 48 w1 * (n % c0 : Nat) + signed 48 (e.stream 3) * (n / c0 : Nat)
  (wrapTo 64 (remote + off), loc, es)

/-- Is the stream a gather? -/
def isGather (e : QEntry) : Bool := bitsOf (e.stream 0) 0 4 % 2 == 0

/-- Does the index of element `n` hold an uncorrectable error? -/
def indexUE (T : Tile) (e : QEntry) (n : Nat) : Bool :=
  let iw := if bitOf (e.stream 0) 4 then 8 else 4
  bitsOf (e.stream 0) 0 4 < 2 && T.hasUE (bitsOf (e.stream 1) 0 22 + iw * n) iw

/-- REASON 1 of R274: an element's remote address is reserved, out of range or misaligned, or is not one the context may
reach on the host. -/
def State.elemBad (s : State) (p : Option Nat) (user : Bool) (c g n : Nat) (gather : Bool) : Bool :=
  formBad g || g % n != 0 || stackedOut (s.blockCount p) g n || s.foreign p g || localOut g n ||
    (s.hostCause user c g n (!gather)).isSome

/-- REASON with which element `n` of a stream fails before it is sent, 0 for none (R274). DESIGN CHOICE (log 89): an index that
holds an uncorrectable error fails its element with REASON 2. -/
def State.elemReason (s : State) (p : Option Nat) (t : Nat) (r : XReq) (n : Nat) : Nat :=
  let T := s.tile t
  let (g, _, es) := streamElem T r.entry n
  if indexUE T r.entry n then 2 else if s.elemBad p r.user r.ctx g es (isGather r.entry) then 1 else 0

/-- The piece of element `n` of a stream. -/
def State.elemPiece (s : State) (p : Option Nat) (t : Nat) (e : QEntry) (n : Nat) : Piece :=
  let (g, loc, es) := streamElem (s.tile t) e n
  let c := s.canon p t g
  if isGather e then ⟨c, tileAddr t loc, es, n⟩ else ⟨tileAddr t loc, c, es, n⟩

/-- The pieces of the next stream request: consecutive elements of one remote line, from element `n` on, up to one that fails
before it is sent (R273). -/
def State.streamPieces (s : State) (p : Option Nat) (t : Nat) (r : XReq) (n line : Nat) : Nat → List Piece
  | 0 => []
  | k + 1 =>
    let x := s.elemPiece p t r.entry n
    if (if isGather r.entry then x.src else x.dst) / 64 ≠ line ∨ s.elemReason p t r n ≠ 0 then []
    else x :: s.streamPieces p t r (n + 1) line k

/-- Do two lists of pieces touch a byte of which one writes? (R393) -/
def piecesMeet (l m : List Piece) : Bool :=
  l.any (fun x => m.any (fun y =>
    overlaps x.dst x.size y.dst y.size && x.dst != 0 || overlaps x.dst x.size y.src y.size && x.dst != 0 ||
      overlaps x.src x.size y.dst y.size && y.dst != 0))

/-- Does an outstanding request of the tile hold these pieces back? (R393) -/
def Tile.meets (T : Tile) (ps : List Piece) : Bool := T.reqs.any (fun r => piecesMeet ps r.2.pieces)

/-- The code of a failure as the request records it: an ECODE, or for a stream its REASON (R274). -/
def failCode (r : XReq) (ecode : Nat) : Nat :=
  match moveFields r.entry.instr with
  | some (_, .stream) => if ecode = 3 ∨ ecode = 5 then 3 else 2
  | _ => ecode

/-- The address that a piece whose source fails reports: a scatter names its element's remote address (R274, R398). -/
def failAddr (r : XReq) (x : Piece) : Nat :=
  match moveFields r.entry.instr with
  | some (_, .stream) => if isGather r.entry then x.src else x.dst
  | _ => x.src

/-- The source bytes of a piece that lie in the tile's own store are read as the part launches. -/
def Tile.readOwn (T : Tile) (t : Nat) (r : XReq) : XReq :=
  r.pieces.foldl (fun (r : XReq) (x : Piece) =>
    if spaceOf x.src = 1 ∧ bitsOf x.src 46 14 = t then
      let a := localOf x.src
      if T.hasUE a x.size then { r with bad := (x.idx, failCode r 6, failAddr r x) :: r.bad }
      else { r with got := (x.idx, T.peek a x.size) :: r.got }
    else r) r

/-- Launch one part of the instruction that holds `tag`. -/
def State.launchPart (s : State) (t tag : Nat) (r : XReq) (ps : List Piece) : State :=
  let T := s.tile t
  let T := (T.setReq tag { r with launched := r.launched + ps.length }).addFld F.X_LAUNCH_COUNT 1
  let T := if ps.any (fun x => spaceOf x.src = 1 ∧ bitsOf x.src 46 14 = t ∧ T.hasUE (localOf x.src) x.size) then
    { T with marked := true } else T
  let s := s.setTile t T
  (s.newTag t (fun g o => T.readOwn t
    { XReq.fresh .part g o r.entry r.user r.ctx with parent := tag, pieces := ps, deadline := r.deadline })).1

/-- The parts of an instruction that are outstanding. -/
def Tile.parts (T : Tile) (tag : Nat) : List (Nat × XReq) :=
  T.reqs.filter (fun (r : Nat × XReq) => r.2.kind == .part && r.2.parent == tag)

/-- Line `k` of a DMA or a send. -/
def State.linePiece (s : State) (p : Option Nat) (t : Nat) (r : XReq) (k : Nat) : Piece :=
  ⟨s.canon p t (r.entry.sb.toNat + 64 * k), if r.kind = .send then 0 else s.canon p t (r.entry.dst + 64 * k), 64, k⟩

/-- The pieces of the next part of a DMA or a send: one chunk (R392). -/
def State.chunkPieces (s : State) (p : Option Nat) (t : Nat) (r : XReq) : List Piece :=
  (List.range (min 64 (r.total - r.launched))).map (fun j => s.linePiece p t r (r.launched + j))

/-- The pieces that a request has still to launch, and a stream's status word. -/
def State.owed (s : State) (t : Nat) (r : XReq) : List Piece :=
  let p := s.ownerOfTile t
  let rest := (List.range (r.total - r.launched)).map (· + r.launched)
  match r.kind with
  | .dma | .send => rest.map (s.linePiece p t r)
  | .stream => ⟨0, tileAddr t (bitsOf (r.entry.stream 2) 32 22), 8, r.total⟩ :: rest.map (s.elemPiece p t r.entry)
  | _ => []

/-- Do the requests that the tile launched before `order` hold these pieces back, with what they have in flight or with what they
have still to launch (R393)? -/
def State.heldBack (s : State) (t order : Nat) (ps : List Piece) : Bool :=
  (s.tile t).meets ps ||
    (s.tile t).reqs.any (fun r => decide (r.2.order < order) && !r.2.done && piecesMeet ps (s.owed t r.2))

/-- The status word of a stream (R274). -/
def streamStatus (bad : List (Nat × Nat × Nat)) : Nat :=
  match lowestBad bad with
  | none => 1
  | some (n, reason, _) => 1 + 2 + reason * 4 + n * 2 ^ 4 + bad.length * 2 ^ 25

/-- The next beat of a link that is not a retry beat (R446). -/
def nextSlotBeat (b : Nat) : Nat := if (b + 1) % 16 = 15 then b + 2 else b + 1

/-- `n` such beats on. -/
def slotBeat (b : Nat) : Nat → Nat
  | 0 => b
  | n + 1 => slotBeat (nextSlotBeat b) n

/-- What a bound launch keeps of its entry until its messages are formed: FLOW, RX_BEATS, LSLOTS0 and the first link
beat (R528). -/
def packEntry (x : TEntry) (round : Nat) : Nat :=
  bitsOf x.w1 6 12 + bitsOf x.w1 32 8 * 2 ^ 12 + bitsOf x.w1 49 10 * 2 ^ 20 +
    (round * 4096 + bitsOf x.w0 4 12 + bitsOf x.w3 0 8) * 2 ^ 30

/-- The link beat of slot `p` of a transfer (R530): LSLOTS0 slots in its first beat, 800 in each later one. -/
def beatOfSlot (pack p : Nat) : Nat :=
  let l0 := bitsOf pack 20 10
  if pack = 0 then 0 else if p < l0 then pack / 2 ^ 30 else slotBeat (pack / 2 ^ 30) ((p - l0) / 800 + 1)

/-- The messages of a send (R454): 256 lines each, a shorter last one. -/
def sendMsgs (t tag : Nat) (r : XReq) (part : Nat) : List Msg :=
  (List.range (ceilDiv r.total 256)).map (fun m =>
    let n := min 256 (r.total - 256 * m)
    { beat := beatOfSlot r.code (257 * m), dest := r.entry.dst + 64 * 256 * m, flow := bitsOf r.code 0 12, seq := 0, last := 256 * m + n == r.total, deadline := r.deadline,
      tile := t, tag := tag + r.gen * 128, part := part, ctx := r.ctx, rxBeats := bitsOf r.code 12 8,
      lines := (List.range n).map (fun j => ((r.got.find? (fun g => g.1 == 256 * m + j)).map (·.2)).getD 0) })

/-- Give messages their SEQ (R444) and put them on the link's way out. One that is not staged in time is catch-up (R447). -/
def State.sendOut (s : State) (l : Nat) (ms : List Msg) : State :=
  ms.foldl (fun (s : State) (m : Msg) => s.onLink l (fun (L : LinkSt) =>
    let q := L.txSeq.get (fun _ => 0) m.flow
    { L with out := L.out ++ [{ m with seq := q, beat := if s.owl.ns + 256 ≤ m.beat * 256 then m.beat else 0 }], txSeq := L.txSeq.set (fun _ => 0) m.flow ((q + 1) % 65536) })) s

/-- All parts of an instruction are done: a DMA completes; a stream writes its status word and completes (R274); a
send puts its messages on the link (R454), unless a source line failed. -/
def State.partsDone (s : State) (t tag : Nat) (r : XReq) : State :=
  match r.kind with
  | .dma => s.onTile t (fun T => T.finish tag r)
  | .stream =>
    s.onTile t (fun T =>
      let T := T.poke (bitsOf (r.entry.stream 2) 32 22) 8 (streamStatus r.bad)
      let f := if recordEngine r = 1 then F.GATH_STATUS_BUSY_G0 else F.GATH_STATUS_BUSY_G1
      (T.setFld f 0).finish tag r)
  | .send =>
    if r.bad ≠ [] then s.onTile t (fun T => T.finish tag { r with code := 0 })
    else match moveFields r.entry.instr with
      | some (f, _) =>
        (s.sendOut (bitsOf f.w1.toNat 13 6) (sendMsgs t tag r ((s.ownerOfTile t).getD 0))).onTile t (fun T =>
          T.setReq tag { r with code := 0, answer := some 0 })
      | none => s
  | _ => s

/-- Settle an instruction if nothing of it is left to launch or outstanding. -/
def State.settle (s : State) (t tag : Nat) : State :=
  match (s.tile t).req tag with
  | some r => if r.launched = r.total ∧ !r.done ∧ r.answer = none ∧ ((s.tile t).parts tag) = [] then s.partsDone t tag r else s
  | none => s

/-- The gather engines launch what their slots, the tags and the order rules allow (R273). -/
def State.feedStream (s : State) (t tag : Nat) : Nat → State
  | 0 => s
  | k + 1 =>
    let T := s.tile t
    match T.req tag with
    | none => s
    | some r =>
      if r.launched = r.total then s.settle t tag
      else if !s.mayLeave t ∨ T.freeTags = [] ∨ r.limit ≤ (T.parts tag).length then s
      else
        let p := s.ownerOfTile t
        let g := (streamElem T r.entry r.launched).1
        let why := s.elemReason p t r r.launched
        if why ≠ 0 then
          (s.setTile t (T.setReq tag { r with launched := r.launched + 1, bad := (r.launched, why, g) :: r.bad })).feedStream t tag k
        else
          let line := s.canon p t g / 64
          let ps := s.streamPieces p t r r.launched line (r.total - r.launched)
          let sameLine := !isGather r.entry && (T.parts tag).any (fun q => q.2.pieces.any (fun x => x.dst / 64 == line))
          if s.heldBack t r.order ps ∨ sameLine then s else (s.launchPart t tag r ps).feedStream t tag k

/-- The next chunk of a DMA or a send launches when a tag and the chunk limit allow (R392). -/
def State.chunk (s : State) (t tag : Nat) : State :=
  let T := s.tile t
  match T.req tag with
  | none => s
  | some r =>
    if (r.kind = .dma ∨ r.kind = .send) ∧ r.launched < r.total ∧ (T.parts tag).length < r.limit ∧ T.freeTags ≠ [] ∧
        s.mayLeave t then
      let ps := s.chunkPieces (s.ownerOfTile t) t r
      if s.heldBack t r.order ps then s else s.launchPart t tag r ps
    else s

/-! ## Launching -/

/-- A MOVE raised at launch: queue-precise, nothing is sent (R390). -/
def State.moveFault (s : State) (t : Nat) (e : QEntry) (info : Word) : State :=
  s.onTile t (fun T => T.queueExc 4 0x13 e.pc info)

/-- The launch of an instruction takes a tag for it: sA receives the tag, and the queue goes on. -/
def State.take (s : State) (t : Nat) (e : QEntry) (user : Bool) (kind : XKind) (upd : XReq → XReq) : State × Nat :=
  let s := s.onTile t (fun T => { T with xq := T.xq.tail, stampAt := none })
  let (s, tag) := s.newTag t (fun g o => upd (XReq.fresh kind g o e user (s.ctxOfTile t)))
  let gen := (((s.tile t).req tag).map (·.gen)).getD 0
  (s.onTile t (fun T => (T.writeDest e.instr (tagValue tag gen)).addFld F.X_LAUNCH_COUNT 1), tag)

/-- The checks and launch of `mv.dma` (R389 to R392). -/
def State.launchDma (s : State) (t : Nat) (e : QEntry) (user : Bool) : State :=
  let p := s.ownerOfTile t
  let n := lenOf e.instr
  let src := e.sb.toNat
  let c := s.ctxOfTile t
  match s.rangesFault p [(0, src, 64 * n), (1, e.dst, 64 * n)] 64 with
  | some info => s.moveFault t e info
  | none =>
    match s.shared p t src e.dst n with
    | some k => s.moveFault t e (moveInfo 6 1 (e.dst + 64 * k))
    | none =>
      match s.hostCause user c src (64 * n) false, s.hostCause user c e.dst (64 * n) true with
      | some 14, some 13 => s.moveFault t e (moveInfo 13 1 e.dst)
      | some m, _ => s.moveFault t e (moveInfo m 0 src)
      | none, some m => s.moveFault t e (moveInfo m 1 e.dst)
      | none, none =>
        let b := s.bindTo p t e
        let s := s.onTile t (fun T => T.countBind (stampOf e.instr).isSome b s.round)
        let (s, tag) := s.take t e user .dma (fun r =>
          { r with total := n, limit := (s.tile t).fld F.DMA_CFG_CHUNKS, deadline := s.deadlineOf b })
        s.chunk t tag

/-- What a stream descriptor's check finds (R270, R272): MVCAUSE, WHICH and address. MVCAUSE 1 stands before 8, so a
LOCAL of a reserved form gives 1. -/
def State.streamFault (s : State) (t : Nat) (e : QEntry) : Option Word :=
  let T := s.tile t
  let a := e.sc.toNat
  if a % 32 ≠ 0 then some (moveInfo 2 2 (a % 2 ^ 60))
  else if storeEnd < a + 32 then some (moveInfo 5 2 (a % 2 ^ 60))
  else
    let w0 := descWord T a 0
    let w1 := descWord T a 1
    let w2 := descWord T a 2
    let w3 := descWord T a 3
    let kind := bitsOf w0 0 4
    let idx := kind < 2
    let es := 2 ^ bitsOf w0 8 3
    let c0 := bitsOf w0 16 21
    let c1 := bitsOf w2 0 21
    let n := if idx then c0 else c0 * c1
    let iw := if bitOf w0 4 then 8 else 4
    let remote := if kind % 2 = 0 then e.sb.toNat else e.dst
    let lo := if kind % 2 = 0 then e.dst else e.sb.toNat
    let stat := bitsOf w2 32 22
    let loW := if kind % 2 = 0 then 1 else 0
    let bad := 4 ≤ kind || bitsOf w0 5 3 != 0 || bitsOf w0 8 3 == 7 || 20 < bitsOf w0 11 5 || bitsOf w0 37 27 != 0 ||
      bitsOf w1 48 16 != 0 || bitsOf w2 21 11 != 0 || bitsOf w2 54 10 != 0 || bitsOf w3 48 16 != 0 ||
      c0 == 0 || 1048576 < c0 || (if idx then c1 != 0 || bitsOf w1 22 26 != 0 || w3 % 2 ^ 48 != 0
        else c1 == 0 || 1048576 < c1) || 1048576 < n
    let ibase := bitsOf w1 0 22
    if formBad lo then some (moveInfo 1 loW lo)
    else if stat % 8 ≠ 0 then some (moveInfo 2 3 stat)
    else if idx ∧ !bad ∧ storeEnd < ibase + iw * n then some (moveInfo 5 2 ibase)
    else if !bad ∧ spaceOf lo = 0 ∧ storeEnd < localOf lo + es * n then some (moveInfo 5 loW (localOf lo))
    else if storeEnd < stat + 8 then some (moveInfo 5 3 stat)
    else if bad then some (moveInfo 7 2 (a % 2 ^ 60))
    else if spaceOf lo ≠ 0 then some (moveInfo 8 loW lo)
    else if spaceOf remote = 3 ∧ T.fld F.TILE_STATUS_MODE = 0 ∧ !s.master.contains (s.requester true (s.ctxOfTile t)) then
      some (moveInfo 13 (1 - loW) remote)
    else none

/-- The launch of `mv.stream` on its engine (R269 to R273). -/
def State.launchStream (s : State) (t : Nat) (e : QEntry) (user : Bool) : State :=
  match s.streamFault t e with
  | some info => s.moveFault t e info
  | none =>
    let T := s.tile t
    let w0 := descWord T e.sc.toNat 0
    let n := if bitsOf w0 0 4 < 2 then bitsOf w0 16 21 else bitsOf w0 16 21 * bitsOf (descWord T e.sc.toNat 2) 0 21
    let g0 := (moveFields e.instr).any (fun x => x.1.k.toNat == 1)
    let slots := T.fld (if g0 then F.GATH_CFG_SLOTS_G0 else F.GATH_CFG_SLOTS_G1)
    let s := s.onTile t (fun T => (T.setFld (if g0 then F.GATH_STATUS_BUSY_G0 else F.GATH_STATUS_BUSY_G1) 1).countBind
      (stampOf e.instr).isSome none s.round)
    let (s, tag) := s.take t (e.captured T) user .stream (fun r => { r with total := n, limit := slots })
    s.feedStream t tag 128

/-- The launch of `mv.send` (R454, R455). -/
def State.launchSend (s : State) (t : Nat) (e : QEntry) (f : FX) (user : Bool) : State :=
  let p := s.ownerOfTile t
  let n := lenOf e.instr
  let l := bitsOf f.w1.toNat 13 6
  let st := s.hf (linkPage l) F.LINK_STATUS_STATE
  match s.rangesFault p [(0, e.sb.toNat, 64 * n)] 64 with
  | some info => s.moveFault t e info
  | none =>
    if st < 2 ∨ !(p.any (fun p => bitOf (s.hf (linkPage l) F.LINK_OWNER_PARTS) p)) then s.moveFault t e (moveInfo 10 1 e.dst)
    else if spaceOf e.sb.toNat = 3 then s.moveFault t e (moveInfo 12 0 e.sb.toNat)
    else
      let b := s.bindTo p t e
      let s := s.onTile t (fun T => T.countBind (stampOf e.instr).isSome b s.round)
      let fl := match b with
        | some (_, x) => packEntry x s.round
        | none => 0
      let (s, tag) := s.take t e user .send (fun r =>
        { r with total := n, limit := (s.tile t).fld F.DMA_CFG_CHUNKS, deadline := s.deadlineOf b, code := fl })
      s.chunk t tag

/-- The flow entry of a flow in force (R457): its tile, RX_BEATS and deadline beat. -/
def State.flowEntry (s : State) (l fl : Nat) : Option (TTable × TEntry) :=
  s.tables.findSome? (fun tb => if tb.installed then
    (tb.entries.find? (fun x => bitsOf x.w0 0 4 == 3 && bitsOf x.w1 0 6 == l && bitsOf x.w1 6 12 == fl)).map (fun x => (tb, x))
    else none)

/-- The launch of `mv.recv` (R458, R459). -/
def State.launchRecv (s : State) (t : Nat) (e : QEntry) (user : Bool) : State :=
  let sel := e.sb.toNat
  let cnt := e.dst
  let ok := sel < 2 ^ 18 && 1 ≤ cnt && cnt ≤ 65535 && bitsOf sel 6 12 != 0 &&
    (s.flowEntry (sel % 64) (bitsOf sel 6 12)).any (fun x => bitsOf x.2.w0 16 14 == t)
  if ok then (s.take t e user .recv (fun r => { r with total := cnt, launched := cnt })).1
  else s.moveFault t e (BitVec.ofNat 64 (11 + sel % 2 ^ 18 * 64))

/-- The launch of an atomic (R133): a stacked address is checked here, and any but `commit` breaks the reservation. -/
def State.launchAtomic (s : State) (t : Nat) (e : QEntry) (kind : XKind) (user : Bool) : State :=
  let p := s.ownerOfTile t
  let g := e.sb.toNat
  let n := atomicSize e.instr
  if stackedOut (s.blockCount p) g n then s.moveFault t e (moveInfo 3 1 g)
  else if s.foreign p g then s.moveFault t e (moveInfo 4 1 g)
  else
    let s := s.onTile t (fun T =>
      { (if kind = .commit then T else T.breakResv 3) with xq := T.xq.tail })
    let (s, _) := s.newTag t (fun gn o =>
      { XReq.fresh kind gn o e user (s.ctxOfTile t) with pieces := [⟨0, s.canon p t g, n, 0⟩], total := 1, launched := 1 })
    s.onTile t (fun T => T.addFld F.X_LAUNCH_COUNT 1)

/-- Does the order of R109 and R393 hold an instruction at the head of the queue? -/
def State.ordered (s : State) (t : Nat) (e : QEntry) : Bool :=
  let T := s.tile t
  let holdOut := T.reqs.any (fun r => r.2.kind == .hold && !r.2.done)
  match atomicFields e.instr with
  | some (_, k) =>
    !holdOut && (k != .commit || T.reqs.all (fun r => r.2.done)) &&
      !s.heldBack t T.orders [⟨0, s.canon (s.ownerOfTile t) t e.sb.toNat, atomicSize e.instr, 0⟩]
  | none => !holdOut

/-- Is the gather engine of a stream free? (R273) -/
def engineFree (T : Tile) (f : FX) : Bool :=
  T.fld (if f.k.toNat = 1 then F.GATH_STATUS_BUSY_G0 else F.GATH_STATUS_BUSY_G1) == 0

/-- Launch the instruction at the head of the queue. -/
def State.launchHead (s : State) (t : Nat) (e : QEntry) : State :=
  let user := (s.tile t).fld F.TILE_STATUS_MODE == 0
  match moveFields e.instr, atomicFields e.instr with
  | some (_, .dma), _ => s.launchDma t e user
  | some (_, .stream), _ => s.launchStream t e user
  | some (f, .send), _ => s.launchSend t e f user
  | some (_, .recv), _ => s.launchRecv t e user
  | _, some (_, k) => s.launchAtomic t e k user
  | _, _ => s

/-- The beat stamp of the instruction at the head (R127): it may launch now, it waits for a tick, or it is late. -/
inductive Stamp where
  | now | at_ (tick : Nat) (late : Bool) | miss (info : Word)
  deriving DecidableEq, Repr

/-- What R127 says of a stamp at tick `h`. -/
def stampJudge (T : Tile) (h beat : Nat) : Stamp :=
  let cur := h / 256 % 4096
  if beat = cur ∧ h % 256 = 0 then .now
  else if cur < beat then .at_ (h / 1048576 * 1048576 + beat * 256) false
  else if T.fld F.TILE_CFG_STAMP_LATE = 1 then .miss (BitVec.ofNat 64 (beat + h / 256 * 4096))
  else .at_ ((h / 1048576 + 1) * 1048576 + beat * 256) true

/-- The stamp of the instruction at the head is judged at the tick at which it gets there (R127): the tile with the tick from
which it may launch, or the EXC_INFO of STAMP_MISS. DESIGN CHOICE (log 96): the tick stands while an exception freezes the
queue, so an instruction whose tick passes meanwhile launches as soon as the queue runs again; R127 says nothing of it, and
R667 only that a resume after a halt judges anew. -/
def Tile.judgeHead (T : Tile) (ns : Nat) (e : QEntry) : Tile × Option Word :=
  match stampOf e.instr, T.stampAt with
  | some beat, none =>
    match stampJudge T ns beat with
    | .now => ({ T with stampAt := some ns }, none)
    | .at_ tick late => ({ (if late then T.setFld F.TILE_STATUS_STAMP_LATE_SEEN 1 else T) with stampAt := some tick }, none)
    | .miss info => (T, some info)
  | _, _ => (T, none)

/-- Does an X instruction at the head wait for earlier accesses of the M and C queues and of the run (R107, R299)? -/
def Tile.xBlocked (T : Tile) (e : QEntry) : Bool :=
  rangesMeet (xRanges T e) ((T.mcOpen.filter (fun m => m.age < e.age)).flatMap (·.ranges)) ||
    (match T.run with
     | some r => decide (r.entry.age ≤ e.age) && rangesMeet (xRanges T e) r.ranges
     | none => false)

/-- May the instruction at the head launch now: its tick has come, and order, tags, gather engine and tile store allow it
(R107, R109, R127, R273, R393)? -/
def State.launches (s : State) (t : Nat) (e : QEntry) : Bool :=
  let T := s.tile t
  T.stampAt.all (fun k => decide (k ≤ s.owl.ns)) && s.ordered t e && T.freeTags != [] && !T.xBlocked e &&
    !(moveFields e.instr).any (fun x => x.2 == .stream && !engineFree T x.1)

/-- The X queue launches its head while it can (R109, R127, R129, R393). -/
def State.pump (s : State) (t : Nat) : Nat → State
  | 0 => s
  | k + 1 =>
    let T := s.tile t
    match T.xq with
    | [] => s
    | e :: rest =>
      if T.frozen 4 ∨ !s.mayLeave t ∨ T.fld F.DBG_STATUS_STOPPING = 1 ∨ T.fld F.TILE_STATUS_DOUBLE = 1 then s
      else if isFence e.instr then
        if T.reqs.all (fun (r : Nat × XReq) => r.2.done) then (s.setTile t { T with xq := rest }).pump t k else s
      else match T.judgeHead s.owl.ns e with
        | (T, some info) => s.setTile t (T.queueExc 4 0x0A e.pc info)
        | (T, none) =>
          let s := if stampOf e.instr = none then s else s.setTile t T
          if s.launches t e then (s.launchHead t e).pump t k else s

/-- The queues and streams of a tile go on after an event. -/
def State.advance (s : State) (t : Nat) : State :=
  let s := s.issue t
  let tags := ((s.tile t).reqs.filter (fun (r : Nat × XReq) => r.2.kind == .stream)).map (·.1)
  (tags.foldl (fun (s : State) g => s.feedStream t g 128) s).pump t 40

/-! ## Dispatch -/

/-- Dispatch of an X instruction (R104, R107, R156): it enters the queue with its scalar operands captured, unless the queue or
the range table is full. -/
def State.xDispatch (s : State) (t : Nat) (len w0 w1 : Nat) (regs : List Nat) (bad : Option Nat)
    (extra : Option (Nat × Nat × Word)) (e : QEntry) : State :=
  let T := s.tile t
  if T.ready (destReg e.instr :: regs) then
    match (T.preFault 4 len w0 w1 bad).or extra with
    | some (code, sub, info) => s.setTile t ((T.syncExc 4 code sub info).afterStep)
    | none =>
      if 32 ≤ T.xq.length ∨ !T.tableRoom (xRanges T e) false then s else
      let T := T.slot (retFld 4) 1
      let d := destReg e.instr
      let T := { T with xq := T.xq ++ [{ e with age := T.ages }], ages := T.ages + 1, sWait := if d = 0 then T.sWait else insertNat d T.sWait }
      (s.setTile t ((T.goto (T.pc + BitVec.ofNat 64 len)).afterStep)).advance t
  else s

/-- Dispatch of a movement instruction; `bad` are the reserved fields of its own. -/
def State.moveOp (s : State) (t : Nat) (f : FX) (minor : Nat) (bad : Bool) (dreg : Option Nat) (i : Instr) : State :=
  let T := s.tile t
  let w := f.w1.toNat
  let e := T.entry i 0 0 0 (T.sreg f.b.toNat) ((dreg.map T.sreg).getD 0) (BitVec.ofNat 512 ((T.sreg f.c.toNat).toNat * 2 ^ 64)) 0 [] []
  s.xDispatch t 8 (FXw f 0x34 minor) w ([f.b.toNat, f.c.toNat] ++ dreg.toList)
    (reservedIf (3 ≤ f.k.toNat || bad || (!bitOf w 12 && bitsOf w 0 12 != 0))) none e

/-- `mv.dma` (R389). -/
def execMvDma (t : TileIx) (f : FX) (s : State) : Host.Outcome State Fault Refusal :=
  .next (s.moveOp t f 0x00 (f.k != 0 || bitOf f.w1.toNat 14 || bitsOf f.w1.toNat 15 17 == 0) none (.mvDma t f))

/-- `mv.stream` (R269). -/
def execMvStream (t : TileIx) (f : FX) (s : State) : Host.Outcome State Fault Refusal :=
  .next (s.moveOp t f 0x20 (f.k == 0 || bitsOf f.w1.toNat 18 14 != 0) (some (bitsOf f.w1.toNat 13 5)) (.mvStream t f))

/-- `mv.send` (R454). -/
def execMvSend (t : TileIx) (f : FX) (s : State) : Host.Outcome State Fault Refusal :=
  .next (s.moveOp t f 0x10 (f.k != 0 || bitOf f.w1.toNat 19 || bitsOf f.w1.toNat 20 12 == 0) none (.mvSend t f))

/-- `mv.recv` (R458). -/
def execMvRecv (t : TileIx) (f : FX) (s : State) : Host.Outcome State Fault Refusal :=
  .next (s.moveOp t f 0x11 (f.k != 0 || f.w1 != 0) none (.mvRecv t f))

/-- `fence` enters the X queue (R109, R119). Its fields A, B, C and K are reserved (R156). -/
def execFence (x : TileWord) (s : State) : Host.Outcome State Fault Refusal :=
  .next (s.xDispatch x.tile 4 (F3w x.f 0x28 1) 0 [] (noFields x.f) none ((s.tile x.tile).entry (.fence x) 0 0 0 0 0 0 0 [] []))

/-- GADDR, ATOMIC_ALIGN and FLOAT_ATOMIC_STRICT at dispatch, the first that applies (R133). DESIGN CHOICE (log 97): a float
atomic that meets FLOAT_ATOMIC_STRICT and one of the others raises the other; R133 places FLOAT_ATOMIC_STRICT in no order. -/
def State.atomicCheck (s : State) (t : Nat) (i : Instr) (g : Word) : Option (Nat × Nat × Word) :=
  let n := g.toNat
  let float : Bool := match i with
    | .amofadd64 _ _ | .amofadd32 _ _ => true
    | _ => false
  if formBad n || spaceOf n == 3 || localOut n 1 then some (5, 0, g)
  else if n % atomicSize i ≠ 0 then some (0x0C, 0, g)
  else if float ∧ (s.ownerOfTile t).any (fun p => s.pf p F.PART_CFG_STRICT == 1) then some (0x0B, 0, g)
  else none

/-- Dispatch of an atomic (R132). -/
def State.atomicOp (s : State) (t : Nat) (f : F3) (minor : Nat) (bad : Bool) (i : Instr) : State :=
  let T := s.tile t
  let g := T.sreg f.b.toNat
  s.xDispatch t 4 (F3w f 0x2B minor) 0 [f.b.toNat, f.c.toNat] (reservedIf (f.k != 0 || bad)) (s.atomicCheck t i g)
    (T.entry i 0 0 0 g (T.sreg f.c.toNat) 0 0 [] [])

/-- `hold` (R132), MINOR 0x00. -/
def execHold (t : TileIx) (f : F3) (s : State) : Host.Outcome State Fault Refusal :=
  .next (s.atomicOp t f 0x00 (f.c != 0) (.hold t f))

/-- `commit` (R132), MINOR 0x01. -/
def execCommit (t : TileIx) (f : F3) (s : State) : Host.Outcome State Fault Refusal :=
  .next (s.atomicOp t f 0x01 false (.commit t f))

/-- `amoadd` (R132), MINOR 0x10. -/
def execAmoadd (t : TileIx) (f : F3) (s : State) : Host.Outcome State Fault Refusal :=
  .next (s.atomicOp t f 0x10 false (.amoadd t f))

/-- `amoand` (R132), MINOR 0x11. -/
def execAmoand (t : TileIx) (f : F3) (s : State) : Host.Outcome State Fault Refusal :=
  .next (s.atomicOp t f 0x11 false (.amoand t f))

/-- `amoor` (R132), MINOR 0x12. -/
def execAmoor (t : TileIx) (f : F3) (s : State) : Host.Outcome State Fault Refusal :=
  .next (s.atomicOp t f 0x12 false (.amoor t f))

/-- `amoxor` (R132), MINOR 0x13. -/
def execAmoxor (t : TileIx) (f : F3) (s : State) : Host.Outcome State Fault Refusal :=
  .next (s.atomicOp t f 0x13 false (.amoxor t f))

/-- `amomin` (R132), MINOR 0x14. -/
def execAmomin (t : TileIx) (f : F3) (s : State) : Host.Outcome State Fault Refusal :=
  .next (s.atomicOp t f 0x14 false (.amomin t f))

/-- `amomax` (R132), MINOR 0x15. -/
def execAmomax (t : TileIx) (f : F3) (s : State) : Host.Outcome State Fault Refusal :=
  .next (s.atomicOp t f 0x15 false (.amomax t f))

/-- `amominu` (R132), MINOR 0x16. -/
def execAmominu (t : TileIx) (f : F3) (s : State) : Host.Outcome State Fault Refusal :=
  .next (s.atomicOp t f 0x16 false (.amominu t f))

/-- `amomaxu` (R132), MINOR 0x17. -/
def execAmomaxu (t : TileIx) (f : F3) (s : State) : Host.Outcome State Fault Refusal :=
  .next (s.atomicOp t f 0x17 false (.amomaxu t f))

/-- `amoswap` (R132), MINOR 0x18. -/
def execAmoswap (t : TileIx) (f : F3) (s : State) : Host.Outcome State Fault Refusal :=
  .next (s.atomicOp t f 0x18 false (.amoswap t f))

/-- `amofadd64` (R132), MINOR 0x20. -/
def execAmofadd64 (t : TileIx) (f : F3) (s : State) : Host.Outcome State Fault Refusal :=
  .next (s.atomicOp t f 0x20 false (.amofadd64 t f))

/-- `amofadd32` (R132), MINOR 0x21. -/
def execAmofadd32 (t : TileIx) (f : F3) (s : State) : Host.Outcome State Fault Refusal :=
  .next (s.atomicOp t f 0x21 false (.amofadd32 t f))

end Sys2Proof.Machine
end

