-- ==== Sys2Proof/Machine/Queue.lean ====
section
/-!
DEFINITION. Command queues (R377 to R382, R687 to R693): peer events, waiting times, the end of a command and its
completion entry; the saved flags (R574, R696).
-/
namespace Sys2Proof.Machine

/-- Word `n` of the command at a queue's head (R688). -/
def HostQ.word (Q : HostQ) (n : Nat) : Nat := bitsOf Q.cmd.toNat (64 * n) 64
/-- OPC. -/
def HostQ.opc (Q : HostQ) : Nat := bitsOf (Q.word 0) 0 8
/-- PKIND: 0 no peer event, 1 RECV, 2 COLL. -/
def HostQ.pkind (Q : HostQ) : Nat := bitsOf (Q.word 1) 0 2

/-- Has the completion of instance `cseq` of a group been posted? Instance numbers are compared modulo 2^24. -/
def State.collPosted (s : State) (g cseq : Nat) : Bool :=
  let d := (s.posted.get (fun _ => 0) g + 2 ^ 24 - cseq) % 2 ^ 24
  1 ≤ d && d < 2 ^ 23

/-- Has the peer event of a command occurred? (R688) -/
def State.peerOccurred (s : State) (Q : HostQ) : Bool :=
  let w := Q.word 1
  match Q.pkind with
  | 0 => true
  | 1 => bitsOf w 32 32 ≤ (s.flow (flowKey (bitsOf w 2 6) (bitsOf w 8 12))).ends
  | _ => s.collPosted (bitsOf w 8 8) (bitsOf w 32 24)

/-- Count the waiting time of a queue's head up to now under its cause: LAG after the event, COVERED while an alternate
runs, else PEER or COLL (R378, R379, R382). -/
def State.account (s : State) (c q : Nat) : State :=
  let Q := s.queue c q
  match Q.waitFrom with
  | none => s
  | some t =>
    let n := s.owl.ns - t
    let p := s.cf c F.CTX_CFG_PART
    let s := s.onQueue c q (fun Q => { Q with waitFrom := some s.owl.ns })
    if Q.eventAt.isSome then
      (s.onCtx c (fun C => { C with lag := C.lag + n })).onPart p (fun P => { P with lag := P.lag + n })
    else if Q.covered.isSome then
      (s.onCtx c (fun C => { C with covered := C.covered + n })).onPart p (fun P => { P with covered := P.covered + n })
    else if Q.pkind = 1 then
      (s.onCtx c (fun C => { C with peer := C.peer + n })).onPart p (fun P => { P with peer := P.peer + n })
    else (s.onCtx c (fun C => { C with coll := C.coll + n })).onPart p (fun P => { P with coll := P.coll + n })

/-- The queues that are listed, as context and queue. -/
def State.queueKeys (s : State) : List (Nat × Nat) := s.queues.map (fun (x : Nat × HostQ) => (x.1 / 8, x.1 % 8))

/-- Note the peer events that have just occurred. -/
def State.peerEvents (s : State) : State :=
  s.queueKeys.foldl (fun (s : State) k =>
    let Q := s.queue k.1 k.2
    if Q.phase = 1 ∧ Q.waitFrom.isSome ∧ Q.eventAt = none ∧ s.peerOccurred Q then
      (s.account k.1 k.2).onQueue k.1 k.2 (fun Q => { Q with eventAt := some s.owl.ns })
    else s) s

/-- The PROV command of a queue runs no longer. -/
def State.dropProv (s : State) (c q : Nat) : State :=
  let p := s.cf c F.CTX_CFG_PART
  if (s.part p).provs = [] then s
  else s.onPart p (fun P => { P with provs := P.provs.filter (fun r => r.key != c * 8 + q) })

/-- A command of a queue ends (R691): its completion waits to be posted. A head that waited while it ran as an alternate
waits without one from now on. -/
def State.endCmd (s : State) (c q status flags r0 r1 : Nat) : State :=
  let s := (s.dropProv c q).onQueue c q (fun Q =>
    { Q with phase := 3, status := status, flags := flags, r0 := r0, r1 := r1, ended := s.owl.ns })
  (List.range 8).foldl (fun (s : State) w =>
    if (s.queue c w).covered = some q then (s.account c w).onQueue c w (fun Q => { Q with covered := none }) else s) s

/-- The engine writes host memory. -/
def State.hostWrite (s : State) (a n v : Nat) : State := { s with host := memWrite s.host a n v }

/-- W0 of completion entry `n` of a queue (R691). -/
def entryW0 (Q : HostQ) (q n size : Nat) : Nat :=
  bitsOf (Q.word 0) 16 16 + Q.status * 2 ^ 16 + (1 - n / 2 ^ size % 2) * 2 ^ 24 + q * 2 ^ 25 + Q.flags * 2 ^ 32

/-- Has the completion ring room? (R691, R716) -/
def State.ringRoom (s : State) (c q : Nat) : Bool :=
  let b := queuePage c q
  (s.hf b F.CQ_PTR_CTAIL + 65536 - s.hf b F.CQ_PTR_CHEAD) % 65536 < 2 ^ s.hf b F.Q_CFG_SIZE

/-- Post the completion of the command that has ended (R691): the entry, DONE and CTAIL, and the queue's vector if the
command and the queue ask for it. While the ring is full, posting waits and FULL is set; without a link it waits. -/
def State.postEntry (s : State) (c q : Nat) : State :=
  let Q := s.queue c q
  let b := queuePage c q
  if Q.phase ≠ 3 ∨ !s.linkUp then s
  else if !s.ringRoom c q then s.setHf b F.CQ_PTR_FULL 1
  else
    let size := s.hf b F.Q_CFG_SIZE
    let n := s.hf b F.CQ_PTR_CTAIL
    let a := s.hf b F.CQ_BASE_ADDR * 4096 + 32 * (n % 2 ^ size)
    let s := s.hostWrite a 32 (entryW0 Q q n size + Q.r0 * 2 ^ 64 + Q.r1 * 2 ^ 128 + Q.ended * 2 ^ 192)
    let s := ((s.setHf b F.CQ_PTR_CTAIL (n + 1)).setHf b F.Q_PTR_DONE (s.hf b F.Q_PTR_DONE + 1)).onQueue c q
      (fun _ => HostQ.empty)
    let s := s.onPart (s.cf c F.CTX_CFG_PART) (fun P => { P with commands := P.commands + 1 })
    if bitOf (Q.word 0) 8 ∧ s.hf b F.Q_CFG_IRQ_EN = 1 then s.ctxVector c (s.hf b F.Q_CFG_VEC) else s

/-! ## Saved flags -/

/-- The key of a tile's and a context's saved flags. -/
def savedKey (t c : Nat) : Nat := t * 64 + c

/-- Firmware saves the flags of the context that the tile ran (R574, R696): MFLAGS, VFLAGS and SFLAGS, 16 bits. -/
def State.saveFlags (s : State) (t c : Nat) : State :=
  let T := s.tile t
  let v := bitsOf (T.ctlWord mflagsAddr).toNat 0 5 + bitsOf (T.ctlWord vflagsAddr).toNat 0 5 * 2 ^ 5 +
    bitsOf (T.ctlWord sflagsAddr).toNat 0 6 * 2 ^ 10
  { s with saved := s.saved.set (fun _ => 0) (savedKey t c) v }

/-- Firmware loads the saved flags of a context. -/
def State.loadFlags (s : State) (t c : Nat) : State :=
  let v := s.saved.get (fun _ => 0) (savedKey t c)
  s.onTile t (fun T => ((T.setCtl mflagsAddr (BitVec.ofNat 64 (bitsOf v 0 5))).setCtl vflagsAddr
    (BitVec.ofNat 64 (bitsOf v 5 5))).setCtl sflagsAddr (BitVec.ofNat 64 (bitsOf v 10 6)))

end Sys2Proof.Machine
end

