-- ==== Sys2Proof/Machine/Home.lean ====
section
/-!
DEFINITION. What happens to requests after their launch: reads and writes at their destinations, atomics at their home,
completions, error records (R134 to R137, R393 to R398, R408, R556).
-/
namespace Sys2Proof.Machine

/-! ## Destinations -/

/-- Is a request to tile `d` refused there: another partition's tile, one that runs a fenced context, or one in Den
(R517, R556, R615)? -/
def State.refusedAt (s : State) (t d : Nat) : Bool :=
  let D := s.tile d
  s.ownerOfTile t != s.ownerOfTile d || (s.ownerOfTile t).isNone && t != d || D.padsHeld ||
    (D.work.isSome && s.fenced (s.ctxOfTile d))

/-- The class of a request's slots (R399): 4 a window, 0 class L, 1 class N, 2 class W. -/
def slotClass (r : XReq) (write : Bool) : Nat :=
  if r.deadline ≠ 0 then 4
  else match r.kind, moveFields r.entry.instr with
    | .part, some (f, .dma) => if write then 2 else if bitOf f.w1.toNat 13 then 0 else 1
    | .part, _ => if write then 2 else 1
    | _, _ => 0

/-- A piece has been read. -/
def XReq.read (r : XReq) (x : Piece) (v : Nat) : XReq := { r with got := (x.idx, v) :: r.got }
/-- A piece has failed. -/
def XReq.fail (r : XReq) (x : Piece) (ecode addr : Nat) : XReq := { r with bad := (x.idx, failCode r ecode, addr) :: r.bad }
/-- A piece has been accepted at its destination at a tick; after the deadline the line is late (R462). -/
def XReq.write (r : XReq) (now : Nat) (x : Piece) : XReq :=
  { r with wrote := x.idx :: r.wrote,
           bad := if r.deadline ≠ 0 ∧ r.deadline * 256 < now then (x.idx, 17, x.dst) :: r.bad else r.bad }
/-- What a piece was read as. -/
def XReq.data (r : XReq) (x : Piece) : Option Nat := (r.got.find? (fun g => g.1 == x.idx)).map (·.2)
/-- Has a piece failed? -/
def XReq.failed (r : XReq) (x : Piece) : Bool := r.bad.any (fun b => b.1 == x.idx)
/-- Is a piece done: failed, written, or read for a link? -/
def XReq.settled (r : XReq) (x : Piece) : Bool :=
  r.failed x || r.wrote.contains x.idx || (x.dst == 0 && (r.data x).isSome)

/-- The line of an address as its home keeps it. -/
def homeLine (g : Nat) : Nat := if spaceOf g = 1 then localOf g / 64 else g % 2 ^ 48 / 64

/-- The home of a line. -/
def State.home (s : State) (g : Nat) : Home :=
  let hs := if spaceOf g = 1 then (s.tile (bitsOf g 46 14)).homes else s.homes
  hs.get (fun _ => Home.empty) (homeLine g)

/-- The destination of a line: a stacked-memory block, or a tile store (R588). -/
def destOf (g : Nat) : Option Nat :=
  if spaceOf g = 1 then some (bitsOf g 46 14) else if spaceOf g = 2 then some (2 ^ 14 + blockOf g) else none

/-- The pieces of an open request that have still to arrive at destination `d`. -/
def State.underway (s : State) (t tag : Nat) (r : XReq) (d : Nat) : List Nat :=
  if r.deadline ≠ 0 then []
  else (r.pieces.filter (fun x => match r.kind with
    | .part => !r.failed x && ((decide (destOf x.src = some d) && (r.data x).isNone) ||
        (decide (destOf x.dst = some d) && !r.wrote.contains x.idx))
    | _ => decide (destOf x.dst = some d) && decide (r.answer = none) && !(s.home x.dst).waiting.contains (t, tag))).map (·.idx)

/-- May piece `n` of a request arrive at the destination of `g` now? While STRICT is 1 the open lines of a tile reach one
destination in launch order (R588): the requests in the order of their launch, and the lines of one request in ascending order.
The lines of a tile to its own store do not leave it. -/
def State.inOrder (s : State) (t tag : Nat) (r : XReq) (g n : Nat) : Bool :=
  match destOf g with
  | none => true
  | some d =>
    d == t || r.deadline != 0 || !(s.ownerOfTile t).any (fun p => s.pf p F.PART_CFG_STRICT == 1) ||
      ((s.tile t).reqs.all (fun q => decide (r.order ≤ q.2.order) || decide (s.underway t q.1 q.2 d = [])) &&
        (s.underway t tag r d).all (fun k => decide (n ≤ k)))

/-- Must a write of a stream's element wait for an earlier element of its request that writes a byte of it? Writes to one line
land in element order (R273). -/
def XReq.behind (r : XReq) (x : Piece) : Bool :=
  r.pieces.any (fun y => decide (y.idx < x.idx) && overlaps y.dst y.size x.dst x.size && !r.settled y)

/-- Serve the stacked side of piece `x`: the read if it has not been read, else the write (R393, R394, R408). -/
def State.serveMem (s : State) (t tag : Nat) (r : XReq) (x : Piece) (err : LineErr) : State :=
  match r.data x with
  | none =>
    if r.failed x ∨ spaceOf x.src ≠ 2 ∨ !s.serves (blockOf x.src) ∨ !s.inOrder t tag r x.src x.idx then s
    else
      let (s, v, code) := s.readStacked x.src x.size err false 0 (slotClass r false)
      s.onTile t (fun T => T.setReq tag (if code = 0 then r.read x v else r.fail x code x.src))
  | some v =>
    if r.failed x ∨ r.wrote.contains x.idx ∨ spaceOf x.dst ≠ 2 ∨ !s.serves (blockOf x.dst) ∨ r.behind x ∨
        !s.inOrder t tag r x.dst x.idx then s
    else
      let (s, code) := s.writeStacked x.dst x.size v err (slotClass r true)
      s.onTile t (fun T => T.setReq tag (if code = 0 then r.write s.owl.ns x else r.fail x code x.dst))

/-- MEMORY_REQUEST (R393, R399): the owning controller serves piece `n` of the request that tile `t` holds as `tag`.
Requests take effect in the order in which they are served. -/
def execMemoryRequest (t : TileIx) (tag : BitVec 7) (n : BitVec 21) (err : LineErr) (s : State) :
    Host.Outcome State Fault Refusal :=
  .next (match (s.tile t).req tag.toNat with
    | none => s
    | some r =>
      if r.kind != .part then s
      else match r.pieces.find? (fun x => x.idx == n.toNat) with
        | none => s
        | some x => s.serveMem t tag.toNat r x err)

/-- Serve the tile-store side of piece `x` at tile `d`. -/
def State.serveTile (s : State) (t tag : Nat) (r : XReq) (x : Piece) : State :=
  match r.data x with
  | none =>
    if r.failed x ∨ spaceOf x.src ≠ 1 ∨ !s.inOrder t tag r x.src x.idx then s
    else
      let d := bitsOf x.src 46 14
      let D := s.tile d
      if s.refusedAt t d then s.onTile t (fun T => T.setReq tag (r.fail x 3 x.src))
      else if D.hasUE (localOf x.src) x.size then
        (s.onTile d (fun D => { D with marked := true })).onTile t (fun T => T.setReq tag (r.fail x 6 x.src))
      else s.onTile t (fun T => T.setReq tag (r.read x (D.peek (localOf x.src) x.size)))
  | some v =>
    if r.failed x ∨ r.wrote.contains x.idx ∨ spaceOf x.dst ≠ 1 ∨ r.behind x ∨ !s.inOrder t tag r x.dst x.idx then s
    else
      let d := bitsOf x.dst 46 14
      if s.refusedAt t d then s.onTile t (fun T => T.setReq tag (r.fail x 3 x.dst))
      else (s.onTile d (fun D => D.poke (localOf x.dst) x.size v)).onTile t (fun T => T.setReq tag (r.write s.owl.ns x))

/-- INBOUND_REQUEST (R517, R556, R615): piece `n` of a request reaches the tile store it names. -/
def execInboundRequest (t : TileIx) (tag : BitVec 7) (n : BitVec 21) (s : State) : Host.Outcome State Fault Refusal :=
  .next (match (s.tile t).req tag.toNat with
    | none => s
    | some r =>
      if r.kind != .part then s
      else match r.pieces.find? (fun x => x.idx == n.toNat) with
        | none => s
        | some x => s.serveTile t tag.toNat r x)

/-- The sides that need no other agent: bytes from the host as it answers (`ans`: 0 data, 1 refused, 2 poisoned, R683),
bytes to the host, and bytes to the tile's own store. -/
def State.serveRest (s : State) (t tag ans : Nat) (r : XReq) : State × XReq :=
  r.pieces.foldl (fun (a : State × XReq) x =>
    let (s, r) := a
    let h := x.src % 2 ^ 60
    let r := if (r.data x).isNone && !r.failed x && spaceOf x.src == 3 then
        if !s.linkUp ∨ ans = 1 then r.fail x 3 x.src else if ans = 2 then r.fail x 1 x.src
        else r.read x (memRead s.host h x.size)
      else r
    match r.data x with
    | some v =>
      if r.failed x ∨ r.wrote.contains x.idx then (s, r)
      else if spaceOf x.dst = 1 ∧ bitsOf x.dst 46 14 = t then
        (s.onTile t (fun T => T.poke (localOf x.dst) x.size v), r.write s.owl.ns x)
      else if spaceOf x.dst = 3 then
        if s.linkUp then ({ s with host := memWrite s.host (x.dst % 2 ^ 60) x.size v }, r.write s.owl.ns x)
        else (s, r.fail x 3 x.dst)
      else (s, r)
    | none => (s, r)) (s, r)

/-! ## Atomics at their home -/

/-- The bytes of an operand at its home. -/
def State.homeRead (s : State) (g n : Nat) : Nat :=
  if spaceOf g = 1 then (s.tile (bitsOf g 46 14)).peek (localOf g) n else memRead s.mem (g % 2 ^ 48) n

/-- Write an operand at its home: a partial write of the line (R395, R136). -/
def State.homeWrite (s : State) (g n v : Nat) : State :=
  if spaceOf g = 1 then s.onTile (bitsOf g 46 14) (fun D => D.poke (localOf g) n v)
  else s.writeMem (g % 2 ^ 48) n v

/-- Change the home of a line. -/
def State.onHome (s : State) (g : Nat) (f : Home → Home) : State :=
  if spaceOf g = 1 then
    s.onTile (bitsOf g 46 14) (fun D => { D with homes := D.homes.upd (fun _ => Home.empty) (homeLine g) f })
  else { s with homes := s.homes.upd (fun _ => Home.empty) (homeLine g) f }

/-- The key by which a tile remembers the line it holds: its line in canonical form. -/
def resvKey (g : Nat) : Nat := g / 64

/-- Has a reservation lapsed? (R134) -/
def State.lapsed (s : State) (t : Nat) (r : Resv) : Bool := r.start + 256 ≤ s.tileCycle t

/-- Is the reservation that tile `h` holds live? -/
def State.resvLive (s : State) (h : Nat) : Bool :=
  match (s.tile h).resv with
  | some r => r.broken == [] && !s.lapsed h r && (s.home (r.key * 64)).status == 0
  | none => false

/-- Is the reservation on the line of `g` live, or granted and its value still on the way? (R135) -/
def State.homeBusy (s : State) (g : Nat) : Bool :=
  let H := s.home g
  match H.holder with
  | none => false
  | some h =>
    H.status == 0 &&
    ((s.tile h).resv.any (fun r => r.key == resvKey g && r.broken == [] && !s.lapsed h r) ||
      (s.tile h).reqs.any (fun q => q.2.kind == .hold && !q.2.done && q.2.answer.isSome &&
        q.2.pieces.any (fun x => resvKey x.dst == resvKey g)))

/-- The first status that applies, in the order of R134. -/
def firstStatus (l : List Nat) : Nat := ([7, 2, 3, 1, 5, 6, 4].find? (fun c => l.contains c)).getD 0

/-- The earlier reservations of a tile when another `hold` on line `key` has placed one: the last one has joined them,
and none of the new line is left. -/
def earlierResv (r : Option Resv) (key : Nat) : List (Nat × List Nat) :=
  match r with
  | none => []
  | some p => ((p.key, p.broken) :: p.old).filter (fun e => e.1 != key)

/-- The statuses that apply to a `commit` of tile `t` on the line of `g` (R134, R555). -/
def State.commitStatuses (s : State) (t g : Nat) : List Nat :=
  let H := s.home g
  (if (s.tile t).work.isSome ∧ s.fenced (s.ctxOfTile t) then [7] else []) ++
  match (s.tile t).resv with
  | none => [4]
  | some r =>
    if r.key ≠ resvKey g then 4 :: ((r.old.find? (fun e => e.1 == resvKey g)).map (·.2)).getD []
    else if r.dead then r.broken
    else r.broken ++ (if s.lapsed t r then [5] else []) ++
      (if H.holder = some t then (if H.status = 0 then [] else [H.status])
       else if r.broken = [] ∧ !s.lapsed t r then [4] else [])

/-- The new value of an atomic (R132). -/
def atomicNew (i : Instr) (old c : Nat) : Nat :=
  let so := signed 64 old
  let sc := signed 64 c
  let fadd := fun (code x y : Nat) => (roundNum code 0 0 false 0 ((decodeNum code 0 x).add false (decodeNum code 0 y)).1).1
  match i with
  | .amoadd .. => (old + c) % 2 ^ 64
  | .amoand .. => Nat.land old c
  | .amoor .. => Nat.lor old c
  | .amoxor .. => Nat.xor old c
  | .amomin .. => if so ≤ sc then old else c
  | .amomax .. => if sc ≤ so then old else c
  | .amominu .. => min old c
  | .amomaxu .. => max old c
  | .amoswap .. => c
  | .amofadd64 .. => fadd 0 old c
  | .amofadd32 .. => fadd 1 old (c % 2 ^ 32)
  | _ => old

/-- The status of a refused `commit`: the first of R134 that applies; where none does, which status other than success it
reports is a free value. -/
def State.refusedStatus (s : State) (t g : Nat) : Word :=
  let st := firstStatus (s.commitStatuses t g)
  if st = 0 then BitVec.ofNat 64 (1 + (Config.freeWord s.free).toNat % 7) else BitVec.ofNat 64 st

/-- An atomic, `hold` or `commit` of tile `t` whose operand's line is uncorrectable or poisoned, or that is refused:
nothing is performed (R136, R408, R556). What sA receives from a refused atomic or `hold` is not stated, so it is a free
value. -/
def State.homeFail (s : State) (t tag : Nat) (r : XReq) (x : Piece) (code : Nat) : State :=
  let ans : Word := if r.kind = .commit then (if code = 3 then s.refusedStatus t x.dst else 4)
    else if code = 3 then Config.freeWord s.free else 0
  let s := if code = 3 then { s with free := s.free + 1 } else s
  let s := if r.kind = .commit then s.onTile t (fun T => { T with resv := none }) else s
  s.onTile t (fun T => T.setReq tag { r with answer := some ans, bad := [(0, code, x.dst)] })

/-- Serve a `hold` at its home: it reads, and places its reservation if no other is live (R135). -/
def State.serveHold (s : State) (t tag : Nat) (r : XReq) (x : Piece) (place : Bool) : State :=
  let v := s.homeRead x.dst 8
  let s := if place then s.onHome x.dst (fun H => { H with holder := some t, status := 0 }) else s
  s.onTile t (fun T => T.setReq tag { r with answer := some (BitVec.ofNat 64 v), limit := b2n place })

/-- The next waiting `hold` of a line is served when the live reservation has ended (R135). A `hold` of a fenced context
returns the value and places nothing (R560). It is served before a `hold` that arrives later, and when a `commit` ends the
reservation. -/
def State.holdServed (s : State) (g : Nat) : State :=
  if s.homeBusy g then s
  else match (s.home g).waiting with
    | [] => s
    | (t, tag) :: rest =>
      let s := s.onHome g (fun H => { H with waiting := rest, holder := none, status := 0 })
      match (s.tile t).req tag with
      | some r =>
        match r.pieces with
        | [x] => s.serveHold t tag r x (!((s.tile t).work.isSome && s.fenced (s.ctxOfTile t)))
        | _ => s
      | none => s

/-- ATOMIC_AT_HOME (R132 to R136): the request that tile `t` holds as `tag` is performed at its home. `err` are the
errors that a read of a stacked line meets (R406, R408); an operand in a tile store fails with its uncorrectable error. -/
def State.atHome (s : State) (t tag : Nat) (r : XReq) (x : Piece) (err : LineErr) : State :=
  let g := x.dst
  let d := bitsOf g 46 14
  if spaceOf g = 1 ∧ s.refusedAt t d then s.homeFail t tag r x 3
  else
    let (s, code) :=
      if spaceOf g = 1 then
        let D := s.tile d
        if D.hasUE (localOf g) x.size then
          ((s.onTile d (fun D => { D with marked := true })).onHome g (fun H =>
            if H.holder.isSome ∧ H.status = 0 then { H with status := 4 } else H), 6)
        else (s, 0)
      else (s.slotMem (blockOf g) 0 2).readLine (g % 2 ^ 48 / 64 * 64) err 2 true
    if code ≠ 0 then s.homeFail t tag r x code
    else match r.kind with
      | .hold =>
        let s := s.holdServed g
        if s.homeBusy g ∧ (s.home g).holder ≠ some t then
          if (s.home g).waiting.length < 8 then s.onHome g (fun H => { H with waiting := H.waiting ++ [(t, tag)] })
          else s.serveHold t tag r x false
        else s.serveHold t tag r x true
      | .commit =>
        let st := firstStatus (s.commitStatuses t g)
        let s := if st = 0 then s.onHome g (fun H => { H with holder := none }) else s
        let s := if st = 0 then s.homeWrite g 8 r.entry.sc.toNat else s
        let s := s.onHome g (fun H => if H.holder = some t then { H with holder := none, status := 0 } else H)
        let other := ((s.tile t).resv.map (fun v => v.key * 64)).getD g
        let s := s.onTile t (fun T => { T.setReq tag { r with answer := some (BitVec.ofNat 64 st) } with resv := none })
        (s.holdServed g).holdServed other
      | _ =>
        let old := s.homeRead g x.size
        let s := s.homeWrite g x.size (atomicNew r.entry.instr old r.entry.sc.toNat)
        s.onTile t (fun T => T.setReq tag { r with answer := some (BitVec.ofNat 64 old) })

/-- Does a `hold` of the request wait at its home already? -/
def State.waitsAtHome (s : State) (t tag : Nat) (x : Piece) : Bool := (s.home x.dst).waiting.contains (t, tag)

/-- ATOMIC_AT_HOME. -/
def execAtomicAtHome (t : TileIx) (tag : BitVec 7) (err : LineErr) (s : State) : Host.Outcome State Fault Refusal :=
  .next (match (s.tile t).req tag.toNat with
    | none => s
    | some r =>
      match r.kind, r.pieces, r.answer with
      | .part, _, _ => s
      | _, [x], none =>
        if s.waitsAtHome t tag.toNat x ∨ (spaceOf x.dst = 2 ∧ !s.serves (blockOf x.dst)) ∨
            !s.inOrder t tag.toNat r x.dst x.idx then s
        else s.atHome t tag.toNat r x err
      | _, _, _ => s)

/-- HOLD_SERVED, at the home of a line: `d` names the tile whose store holds it, or none for stacked memory. -/
def execHoldServed (d : Option TileIx) (a : BitVec 45) (s : State) : Host.Outcome State Fault Refusal :=
  .next (s.holdServed (match d with
    | some t => tileAddr t (a.toNat % 2 ^ 22)
    | none => 2 * 2 ^ 60 + a.toNat))

/-- A reservation that has been broken has ended: nothing breaks it any more (R134). -/
def Tile.endResv (T : Tile) : Tile :=
  { T with resv := T.resv.map (fun r => if r.broken = [] then r else { r with dead := true }) }

/-- At the end of a tick a reservation that was broken, or whose line was, or that has lapsed, has ended with the statuses that
it has then; those that would come later do not apply (R134). -/
def State.endResv (s : State) (t : Nat) : State :=
  match (s.tile t).resv with
  | some r =>
    if r.dead then s
    else
      let H := s.home (r.key * 64)
      let s := if H.holder = some t ∧ H.status ≠ 0 then s.onTile t (fun T => T.breakResv H.status) else s
      let s := if s.lapsed t r then s.onTile t (fun T => T.breakResv 5) else s
      s.onTile t Tile.endResv
  | none => s

/-- RESERVATION_LAPSE (R134): 256 tile cycles after its start a reservation lapses. -/
def execReservationLapse (t : TileIx) (s : State) : Host.Outcome State Fault Refusal :=
  .next (match (s.tile t).resv with
    | some r => if s.lapsed t r ∧ r.broken = [] then s.onTile t (fun T => (T.breakResv 5).endResv) else s
    | none => s)

/-! ## Completions -/

/-- A tile whose context has executed `trap` 0 has ended its part when all its work is done (R690): firmware saves its flags
(R574) and frees it. The RUN ends when no tile holds its work. -/
def State.endPart (s : State) (t : Nat) : State :=
  let T := s.tile t
  if T.ending ∧ T.xq = [] ∧ T.reqs = [] ∧ T.mq = [] ∧ T.cq = [] ∧ T.run = none then
    match T.work with
    | none => s
    | some (c, q) =>
      let s := (s.setTile t { T with ending := false, work := none }).saveFlags t c
      let left := s.tiles.any (fun x => x.2.work == some (c, q))
      if left ∨ (s.queue c q).phase ≠ 2 then s else s.endCmd c q 0 0 0 0
  else s

/-- After a completion the queue and the streams go on, and a part may end. -/
def State.after (s : State) (t : Nat) : State := (s.advance t).endPart t

/-- An atomic returns (R134): sA is written, a reservation that the home placed starts, and the tag is freed or kept for
its record. -/
def State.returnAtomic (s : State) (t tag : Nat) (r : XReq) (v : Word) : State :=
  s.onTile t (fun T =>
    let T := T.writeDest r.entry.instr v
    let T := match r.kind, r.pieces with
      | .hold, [x] =>
        if r.bad ≠ [] then T
        else
          let placed : Bool := r.limit == 1
          let v : Resv :=
            { key := resvKey x.dst, start := s.tileCycle t, broken := if placed then [] else [6],
              old := earlierResv T.resv (resvKey x.dst), dead := !placed }
          { T with resv := some v }
      | _, _ => T
    T.finish tag r)

/-- A late completion ("Tag generations", before R563): it changes nothing and is counted in the tile's partition. -/
def State.lateDiscard (s : State) (t : Nat) : State :=
  match s.ownerOfTile t with
  | some p => s.satHf (partPage p) F.RECOV_STATUS_LATE_DISCARDS 1
  | none => s

/-- TAG_COMPLETION (R396): a completion for `tag` with generation `gen` arrives. One that matches no outstanding request
is discarded and counted. The completion of a part can arrive once every piece of it has been served. -/
def State.complete (s : State) (t tag gen ans : Nat) : State :=
  match (s.tile t).req tag with
  | some r =>
    if r.gen ≠ gen ∨ r.done then s.lateDiscard t
    else match r.kind with
      | .part =>
        let (s', r') := s.serveRest t tag ans r
        if r'.pieces.all r'.settled then
          let s := s'.onTile t (fun T =>
            let T := T.freeTag tag
            match T.req r.parent with
            | some q =>
              let got := if q.kind = .send then r'.got ++ q.got else q.got
              let T := T.setReq r.parent { q with bad := r'.bad ++ q.bad, got := got }
              T
            | none => T)
          ((s.settle t r.parent).after t)
        else s
      | .atomic | .hold | .commit =>
        match r.answer with
        | some v => (s.returnAtomic t tag r v).after t
        | none => s
      | _ => s
  | none => s.lateDiscard t

/-- TAG_COMPLETION. -/
def execTagCompletion (t : TileIx) (tag : BitVec 7) (gen : BitVec 16) (ans : Fin 3) (s : State) :
    Host.Outcome State Fault Refusal := .next (s.complete t tag.toNat gen.toNat ans)

/-- PCIE_COMPLETION_TIMEOUT (R683): a non-posted request to the host gets no completion; its reads end REFUSED. -/
def execPcieCompletionTimeout (t : TileIx) (tag : BitVec 7) (s : State) : Host.Outcome State Fault Refusal :=
  .next (match (s.tile t).req tag.toNat with
    | some r => if r.pieces.any (fun x => spaceOf x.src == 3) then s.complete t tag.toNat r.gen 1 else s
    | none => s)

/-- CHUNK_LAUNCH (R392): the next chunk of the instruction that holds `tag`. -/
def execChunkLaunch (t : TileIx) (tag : BitVec 7) (s : State) : Host.Outcome State Fault Refusal :=
  .next (s.chunk t tag.toNat)

/-- STAMP_LAUNCH (R127): the stamped instruction at the head launches once its beat has started. -/
def execStampLaunch (t : TileIx) (s : State) : Host.Outcome State Fault Refusal := .next (s.advance t)

/-- STREAM_COMPLETION (R274): a stream all of whose elements are done writes its status word and completes. -/
def execStreamCompletion (t : TileIx) (tag : BitVec 7) (s : State) : Host.Outcome State Fault Refusal :=
  .next (match (s.tile t).req tag.toNat with
    | some r => if r.kind = .stream then (s.settle t tag.toNat).after t else s
    | none => s)

/-- ERROR_RECORD_POST (R397): the next record in launch order is posted if the ring has room. -/
def execErrorRecordPost (t : TileIx) (s : State) : Host.Outcome State Fault Refusal :=
  .next (match (s.tile t).nextRecord with
    | some (tag, r) => (s.onTile t (fun T => T.post tag r)).after t
    | none => s)

/-- The error ring is placed anew (R418, R419): records posted so far are no longer tracked. -/
def Tile.newRing (T : Tile) : Tile := (T.setFld F.MV_ERRQ_PTR_HEAD 0).setFld F.MV_ERRQ_PTR_TAIL 0

/-- A write to MV_ERRQ_CFG (R25, R418): a ring past the store is a reserved encoding of both fields; an accepted write
places the ring anew. -/
def Tile.writeErrq (T : Tile) (w src : Nat) : Tile :=
  let base := bitsOf w 0 22
  let size := bitsOf w 24 4
  let past := storeEnd < base + 16 * 2 ^ size
  let badB := base % 16 ≠ 0 ∨ past
  let badS := (1 ≤ size ∧ size ≤ 3) ∨ 13 ≤ size ∨ past
  let T := if badB ∨ badS ∨ bitsOf w 22 2 ≠ 0 ∨ bitsOf w 28 36 ≠ 0 then T.cfgReject F.MV_ERRQ_CFG_BASE.reg src else T
  let T := if badB then T else T.setFld F.MV_ERRQ_CFG_BASE base
  let T := if badS then T else T.setFld F.MV_ERRQ_CFG_SIZE size
  if badB ∧ badS then T else T.newRing

/-- MV_ERRQ_CFG_WRITE: a control write of `w` whose source is `src` (R155). -/
def execMvErrqCfgWrite (t : TileIx) (w : BitVec 64) (src : Fin 4) (s : State) : Host.Outcome State Fault Refusal :=
  .next (s.onTile t (fun T => T.writeErrq w.toNat src))

end Sys2Proof.Machine
end

