-- ==== Sys2Proof/Machine/Link.lean ====
section
/-!
DEFINITION. Brix links (R439 to R478): frames, acknowledgement and retry, delivery, lateness, lanes and link state.
-/
namespace Sys2Proof.Machine

/-! ## Fields of a link -/

/-- A field of a link's page. -/
def State.lf (s : State) (l : Nat) (f : Fld) : Nat := s.hf (linkPage l) f
/-- Replace a field of a link's page. -/
def State.setLf (s : State) (l : Nat) (f : Fld) (v : Nat) : State := s.setHf (linkPage l) f v

/-- Add to an error counter of a link, which saturates and then sets CNT_SAT (R467). -/
def State.countLf (s : State) (l : Nat) (f : Fld) (n : Nat) : State :=
  let v := s.lf l f + n
  let s := s.setLf l f (satTo f.width v)
  if 2 ^ f.width - 1 ≤ v then s.setLf l F.LINK_STATUS_CNT_SAT 1 else s

/-- The state of a link (R465). -/
def State.lstate (s : State) (l : Nat) : Nat := s.lf l F.LINK_STATUS_STATE

/-- Slots of a message: its header and its lines (R444). -/
def Msg.slots (m : Msg) : Nat := m.lines.length + 1

/-- Are two messages the same one, sent again perhaps? -/
def Msg.same (m n : Msg) : Bool := m.flow == n.flow && m.seq == n.seq && m.tile == n.tile && m.tag == n.tag

/-! ## Ends of sends -/

/-- The tag and request of the `mv.send` that a message belongs to, while it has not completed. -/
def State.sendOf (s : State) (m : Msg) : Option (Nat × XReq) :=
  match (s.tile m.tile).req (m.tag % 128) with
  | some r => if r.kind = .send ∧ r.gen = m.tag / 128 ∧ !r.done then some (m.tag % 128, r) else none
  | none => none

/-- Messages of a link that are not acknowledged. -/
def LinkSt.open_ (L : LinkSt) : List Msg := L.out ++ L.flight.flatMap (·.2) ++ L.failed.flatMap (·.2)

/-- The parts of a request are dropped: their tags are free, and what still completes is late. -/
def Tile.dropParts (T : Tile) (tag : Nat) : Tile :=
  { T with reqs := T.reqs.filter (fun (r : Nat × XReq) => !(r.2.kind == .part && r.2.parent == tag)) }

/-- A `mv.send` ends with failed lines `ks` and a code (R456, R464). -/
def State.endSend (s : State) (t tag : Nat) (r : XReq) (ks : List Nat) (code : Nat) : State :=
  let bad := ks.map (fun k => (k, code, r.entry.dst + 64 * k))
  (s.onTile t (fun T => (T.dropParts tag).finish tag { r with code := 0, bad := bad ++ r.bad })).after t

/-- A `mv.send` completes when every frame that carries its messages has been acknowledged (R456). -/
def State.sendAcked (s : State) (l : Nat) (m : Msg) : State :=
  match s.sendOf m with
  | some (tag, r) =>
    if (s.link l).open_.any (fun x => x.tile == m.tile && x.tag == m.tag) then s else s.endSend m.tile tag r [] 0
  | none => s

/-- A message is abandoned (R449): its `mv.send` completes with LATE. -/
def State.abandon (s : State) (m : Msg) : State :=
  match s.sendOf m with
  | some (tag, r) =>
    let k := (m.dest + 2 ^ 64 - r.entry.dst) / 64 % 131072
    s.endSend m.tile tag r ((List.range m.lines.length).map (· + k)) 16
  | none => s

/-! ## Sending frames -/

/-- May a timetabled message be sent in beat `r`? (R449) -/
def canSend (lb r : Nat) (m : Msg) : Bool := r + 1 + lb + m.rxBeats ≤ m.deadline

/-- The first retry beat at or after a beat (R446). -/
def retryBeat (b : Nat) : Nat := b + (15 - b % 16)

/-- Take messages in order while slots remain; one that does not fit goes on in the next frame, whose free slots bound
it (R444). The answer gives the messages taken and the slots they need. -/
def fillSlots (avail next : Nat) : List Msg → List Msg × Nat
  | [] => ([], 0)
  | m :: ms =>
    if 0 < avail ∧ m.slots ≤ avail + next then
      let (l, n) := fillSlots (avail - m.slots) next ms
      (m :: l, m.slots + n)
    else ([], 0)

/-- Open messages within the credit (R452). -/
def withinCredit (credit : Nat) : List Msg → List Msg
  | [] => []
  | m :: ms => if m.slots ≤ credit then m :: withinCredit (credit - m.slots) ms else []

/-- Catch-up messages, earliest D first (R450). -/
def insertByD (m : Msg) : List Msg → List Msg
  | [] => [m]
  | x :: l => if m.deadline < x.deadline then m :: x :: l else x :: insertByD m l

/-- Catch-up messages in the order of R450: earliest D first, and those of one D in send order. -/
def byD (ms : List Msg) : List Msg := ms.foldl (fun l m => insertByD m l) []

/-- Reassembly lines that are not reserved for admitted flows and hold nothing (R452, R530, R531). -/
def State.openCredit (s : State) (l : Nat) : Nat :=
  let flows := s.tables.foldl (fun n tb => n + (tb.entries.foldl (fun n x =>
    if bitsOf x.w0 0 4 = 3 ∧ bitsOf x.w1 0 6 = l then n + bitsOf x.w0 32 12 + ceilDiv (bitsOf x.w0 32 12) 256 else n) 0)) 0
  let held := ((s.link l).held.filter (fun m => m.flow == 0)).foldl (fun n m => n + m.slots) 0
  min 65535 (131072 - flows - held)

/-- The frame header of beat `b` (R76, R443). DESIGN CHOICE (log 92): before a frame has been received on the link, ECHO_TS
is 0; no rule says what it holds then. -/
def State.frameHeader (s : State) (l b : Nat) (retry : Bool) : Nat :=
  let L := s.link l
  let f1 := b * 256 % 2 ^ 32 + s.ef F.TIME_STATE_STATE * 2 ^ 48 + s.ef F.TIME_STATE_HOPS * 2 ^ 50 +
    b2n (s.lf l F.LINK_TIME_CFG_ROLE == 2) * 2 ^ 54
  let (f2, f3) := match L.echo with
    | some (ts, at_) => (ts % 2 ^ 48, (b * 256 * 65536 - at_) % 2 ^ 32)
    | none => (0, 0)
  let f6 := s.openCredit l + (match L.swapReq with | some k => k * 2 ^ 16 + 2 ^ 20 | none => 0) +
    (match L.swapAt with | some (k, _) => k * 2 ^ 21 + 2 ^ 25 | none => 0)
  let f7 := match L.swapAt with | some (_, at_) => at_ % 2 ^ 56 | none => 0
  (b % 2 ^ 56 + b2n retry * 2 ^ 56) + f1 * 2 ^ 64 + f2 * 2 ^ 128 + f3 * 2 ^ 192 + (L.ackBase % 2 ^ 56) * 2 ^ 256 +
    (L.ackMap % 2 ^ 64) * 2 ^ 320 + f6 * 2 ^ 384 + f7 * 2 ^ 448

/-- What a frame carries, by the order of R446 and R450: timetabled messages reserved for the beat, or in a retry beat
the failed frames' messages and catch-up; then open messages. -/
def LinkSt.pick (L : LinkSt) (b lb : Nat) : List Msg × List Msg :=
  let reserved := fun (b : Nat) => if b % 16 = 15 ∨ b = 0 then [] else L.out.filter (fun m => m.flow != 0 && m.beat == b)
  let tt := if b % 16 = 15 then
      L.failed.flatMap (fun f => f.2.filter (fun m => m.flow != 0 && canSend lb b m)) ++
        byD (L.out.filter (fun m => m.flow != 0 && m.beat == 0 && canSend lb b m))
    else reserved b
  let next := 800 - ((reserved (b + 1)).foldl (fun n m => n + m.slots) 0)
  let (ts, n) := fillSlots (800 - L.carry) next tt
  let (os, _) := fillSlots (800 - L.carry - n) (next - (n - (800 - L.carry)))
    (withinCredit L.credit (L.out.filter (fun m => m.flow == 0)))
  (ts, os)

/-- Messages that can never be sent in time (R449). -/
def LinkSt.hopeless (L : LinkSt) (b lb : Nat) : List Msg :=
  (L.failed.flatMap (·.2) ++ L.out.filter (fun m => m.beat == 0)).filter
    (fun m => m.flow != 0 && !canSend lb (retryBeat b) m)

/-- Unlist messages from what waits and from the failed frames. -/
def LinkSt.without (L : LinkSt) (ms : List Msg) : LinkSt :=
  let gone := fun (m : Msg) => ms.any (fun x => x.same m)
  { L with out := L.out.filter (fun m => !gone m),
           failed := (L.failed.map (fun (f : Nat × List Msg) => (f.1, f.2.filter (fun m => !gone m)))).filter
             (fun f => f.2 != []) }

/-- Failed frames whose messages the frame with messages `ms` sends again, the last of them now (R477). An open message keeps its
failed frame in `beat`, one past its number. -/
def LinkSt.sentAgain (L : LinkSt) (ms : List Msg) : Nat :=
  let went := fun (m : Msg) => ms.any (fun x => x.same m)
  let open_ := fun (l : List Msg) => l.filter (fun (m : Msg) => m.flow == 0 && m.beat != 0)
  (L.failed.filter (fun f => f.2.all went)).length +
    (((open_ ms).map (·.beat)).eraseDups.filter (fun b =>
      !(open_ L.out).any (fun m => m.beat == b && !went m) && !L.failed.any (fun f => f.1 + 1 == b))).length

/-- A lane swap that the far end has requested is announced as the header is built (R466). -/
def LinkSt.announce (L : LinkSt) (b : Nat) (one : Bool) : LinkSt :=
  match L.swapAsk, L.swapAt with
  | some k, none => { L with swapAsk := none, swapAt := some (k, if one then b + 2 else b + 1) }
  | _, _ => L

/-- LINK_STATUS.SWAP_PEND follows the announced swap (R476). -/
def State.showSwap (s : State) (l : Nat) : State := s.setLf l F.LINK_STATUS_SWAP_PEND (b2n (s.link l).swapAt.isSome)

/-- The frame of beat `b` leaves (R442 to R452). -/
def State.frameSend (s : State) (l b : Nat) : State :=
  let lb := s.lf l F.LINK_STATUS_LINK_BEATS
  let lost := (s.link l).hopeless b lb
  let s := lost.foldl (fun (s : State) m => s.abandon m) (s.onLink l (fun L => L.without lost))
  let L := s.link l
  let carrying := 2 ≤ s.lstate l
  let (tt, op) := if carrying then L.pick b lb else ([], [])
  let ms := tt ++ op
  let used := ms.foldl (fun n m => n + m.slots) 0
  let room := 800 - L.carry
  let spillN := used - room
  let again := L.sentAgain ms
  let opSlots := op.foldl (fun n m => n + m.slots) 0
  let s := (s.onLink l (fun L => L.announce b (L.carry == 0 && ms.length == 1 && 0 < spillN))).showSwap l
  let header := s.frameHeader l b (b % 16 == 15)
  let s := if again = 0 then s else s.countLf l F.LINK_ERR_CNT_RETRANS again
  s.onLink l (fun L =>
    let spilled := L.spill
    let L := L.without ms
    { L with
      flight := L.flight ++ [(b, spilled ++ ms)], lastTx := b, header := header,
      spill := if 0 < spillN then (match ms.getLast? with | some m => [m] | none => []) else [], carry := spillN,
      credit := L.credit - opSlots, frames := L.frames + 1, retries := L.retries + b2n (b % 16 == 15),
      ttSlots := L.ttSlots + (used - opSlots), openSlots := L.openSlots + opSlots,
      idleSlots := L.idleSlots + (room - used) })

/-- FRAME_SEND (R442): once in each beat while the link is not DOWN. -/
def execFrameSend (l : LinkIx) (s : State) : Host.Outcome State Fault Refusal :=
  .next (if s.lstate l = 0 ∨ (s.link l).lastTx = s.beat then s else s.frameSend l s.beat)

/-- FRAME_FAILED (R448): frame `b` has not been acknowledged by the start of beat b + RD. Its open messages are sent
again in later open slots (R451); its timetabled ones in retry beats, or they are abandoned (R449). -/
def State.frameFailed (s : State) (l b : Nat) : State :=
  let rd := s.lf l F.LINK_STATUS_RD
  match (s.link l).flight.find? (fun f => f.1 == b) with
  | none => s
  | some (_, ms) =>
    if s.owl.ns < (b + rd) * 256 then s
    else
      let lb := s.lf l F.LINK_STATUS_LINK_BEATS
      let (lost, keep) := (ms.filter (fun m => m.flow != 0)).partition (fun m => !canSend lb (retryBeat s.beat) m)
      let s := s.onLink l (fun L =>
        { L with flight := L.flight.filter (fun f => f.1 != b),
                 failed := if keep = [] then L.failed else L.failed ++ [(b, keep)],
                 out := (ms.filter (fun m => m.flow == 0)).map (fun m => { m with beat := b + 1 }) ++ L.out })
      lost.foldl (fun (s : State) m => s.abandon m) s

/-- FRAME_FAILED. -/
def execFrameFailed (l : LinkIx) (b : BitVec 56) (s : State) : Host.Outcome State Fault Refusal :=
  .next (s.frameFailed l b.toNat)

/-! ## Receiving frames -/

/-- Word `n` of a slot or header. -/
def word512 (h : BitVec 512) (n : Nat) : Nat := bitsOf h.toNat (64 * n) 64

/-- A message from its header slot and data slots (R444). -/
def msgOf (w : BitVec 512) (ls : List (BitVec 512)) : Msg :=
  let m1 := word512 w 1
  let m3 := word512 w 3
  { beat := 0, dest := word512 w 0, flow := bitsOf m1 0 12, seq := bitsOf m1 12 16, last := bitOf m1 37,
    deadline := word512 w 2 % 2 ^ 56, tile := bitsOf m3 0 14, tag := bitsOf m3 14 23, part := bitsOf m3 37 4,
    ctx := bitsOf m3 41 6, rxBeats := 0, lines := (ls.take (bitsOf m1 28 9)).map (fun (x : BitVec 512) => x.toNat) }

/-- The partition that a message's DEST lies in: the flow's, and for an open message the one that DEST names. -/
def State.destPart (s : State) (l : Nat) (m : Msg) : Option Nat :=
  if m.flow ≠ 0 then (s.flowEntry l m.flow).map (fun x => x.1.part)
  else if spaceOf m.dest = 1 then s.ownerOfTile (bitsOf m.dest 46 14)
  else if viewOf m.dest = 0 then s.ownerOfBlock (blockOf m.dest) else some m.part

/-- The check of R460. -/
def State.destBad (s : State) (l : Nat) (m : Msg) : Bool :=
  let p := s.destPart l m
  let n := 64 * m.lines.length
  formBad m.dest || (spaceOf m.dest != 1 && spaceOf m.dest != 2) || m.dest % 64 != 0 || p.isNone ||
    localOut m.dest n || stackedOut (s.blockCount p) m.dest n || s.foreign p m.dest ||
    (spaceOf m.dest == 1 && s.ownerOfTile (bitsOf m.dest 46 14) != p)

/-- A transfer of a flow ends (R457, R463, R499): the end is counted, with its code; its held messages are discarded. After a
transfer that ended without its last message the SEQ of the next one is not known. -/
def State.endFlow (s : State) (l fl deadline code : Nat) : State :=
  let last := (s.link l).held.find? (fun m => m.flow == fl && m.deadline == deadline && m.last)
  let lost := (code == 16 || code == 3) && last.isNone
  let s := s.onFlow (flowKey l fl) (fun f =>
    let c := if f.lost then 19 else if f.closed then 0 else code
    { f with ends := f.ends + 1, since := f.since ++ [(c, f.dest)], dest := 0, lastD := deadline,
             resync := lost || (f.resync && last.isNone) })
  let s := match last with
    | some m => s.onLink l (fun L => { L with rxSeq := L.rxSeq.set (fun _ => 0) fl ((m.seq + 1) % 65536) })
    | none => s
  (s.onLink l (fun L => { L with held := L.held.filter (fun m => !(m.flow == fl && m.deadline ≤ deadline)) })).peerEvents

/-- Has a SEQ been released already? Sequence numbers are compared modulo 2^16. -/
def seqOld (next seq : Nat) : Bool := 32768 ≤ (seq + 65536 - next) % 65536

/-- The last message of the transfer that ended before it: the SEQ behind it is the next to release. -/
def State.lastSeen (s : State) (l : Nat) (m : Msg) : State :=
  let k := flowKey l m.flow
  if m.last ∧ m.deadline = (s.flow k).lastD then
    (s.onLink l (fun L => { L with rxSeq := L.rxSeq.set (fun _ => 0) m.flow ((m.seq + 1) % 65536) })).onFlow k
      (fun f => { f with resync := false })
  else s

/-- One message of an accepted frame (R460, R461, R463). -/
def State.receiveMsg (s : State) (l : Nat) (m : Msg) : State :=
  let drop := fun (s : State) => s.countLf l F.LINK_ERR_CNT_DROPPED 1
  if m.lines = [] then s
  else
    let k := flowKey l m.flow
    let f := s.flow k
    let next := (s.link l).rxSeq.get (fun _ => 0) m.flow
    let dup := (s.link l).held.any (fun x => x.flow == m.flow && x.seq == m.seq)
    if m.flow ≠ 0 ∧ (f.closed ∨ f.lost) then
      let s := drop s
      if m.last ∧ f.lastD < m.deadline then s.endFlow l m.flow m.deadline 0 else s
    else if m.flow ≠ 0 ∧ m.deadline ≤ f.lastD then drop (if f.resync then s.lastSeen l m else s)
    else if s.destBad l m then
      let s := s.countLf l F.LINK_ERR_CNT_REFUSED 1
      if m.flow ≠ 0 ∧ (s.flowEntry l m.flow).isSome then
        ((s.onFlow k (fun f => if f.dest = 0 then { f with dest := m.dest } else f)).endFlow l m.flow m.deadline 3).lastSeen l m
      else s
    else if dup ∨ (seqOld next m.seq ∧ !f.resync) then drop s
    else
      let s := s.onLink l (fun L => { L with held := L.held ++ [m] })
      if m.flow = 0 then s
      else s.onFlow k (fun f => if f.dest = 0 ∨ m.dest < f.dest then { f with dest := m.dest } else f)

/-- The acknowledgements of a header (R443, R448): frames acknowledged leave what waits, and their sends may complete. -/
def State.receiveAcks (s : State) (l base map : Nat) : State :=
  let acked := fun (b : Nat) => b ≤ base && base - b < 64 && bitOf map (base - b)
  let L := s.link l
  let ms := ((L.flight ++ L.failed).filter (fun f => acked f.1)).flatMap (·.2)
  let s := s.onLink l (fun L => { L with flight := L.flight.filter (fun f => !acked f.1),
                                         failed := L.failed.filter (fun f => !acked f.1) })
  ms.foldl (fun (s : State) m => s.sendAcked l m) s

/-- Extend a 32-bit count to 64 bits against the own counter (R76). -/
def extendTs (now ts : Nat) : Int :=
  let d : Nat := (ts + 2 ^ 32 - now % 2 ^ 32) % 2 ^ 32
  if d < 2 ^ 31 then (now : Int) + d else (now : Int) + d - 2 ^ 32

/-- The time fields of an accepted frame (R76, R77): one exchange gives θ and δ, in 2^-16 ns. `hold` is the sender's HOLD_ROUNDS
(R80), for which a frame has no field. DESIGN CHOICE (log 92): a sender whose map of accepted frames is empty has received
none, and its ECHO_TS is no echo. -/
def State.receiveTime (s : State) (l : Nat) (h : BitVec 512) (frac hold : Nat) : State :=
  let f1 := word512 h 1
  let f2 := word512 h 2
  let now := s.owl.ns
  let ts := fun (w : Nat) => extendTs now (w % 2 ^ 32) * 65536 + (bitsOf w 32 16 : Nat)
  let t1 : Int := ts f1
  let t2 : Int := now * 65536 + frac
  let t3 : Int := ts f2
  let t4 : Int := t1 - (word512 h 3 % 2 ^ 32 : Nat)
  let asym : Int := signed 16 (s.lf l F.LINK_TIME_CFG_ASYM) * 256
  let s := ((s.setLf l F.LINK_TIME_STAT_PEER_STATE (bitsOf f1 48 2)).setLf l F.LINK_TIME_STAT_PEER_HOPS (bitsOf f1 50 4)).setLf
    l F.LINK_TIME_STAT_PEER_DOWN (bitsOf f1 54 1)
  s.onLink l (fun L =>
    { L with peerHold := hold, theta := if word512 h 5 = 0 then L.theta else ((t2 - t1 - (t4 - t3) - asym) / 2, (t2 - t1 + (t4 - t3)) / 2) :: L.theta,
             echo := some (f1 % 2 ^ 48, now * 65536 + frac) })

/-- The control fields of an accepted frame: its acceptance, credit and lane swap (R443, R452, R466). -/
def LinkSt.accept (L : LinkSt) (h : BitVec 512) : LinkSt :=
  let g := word512 h 0 % 2 ^ 56
  let f6 := word512 h 6
  let L := if L.ackBase ≤ g then { L with ackMap := (L.ackMap * 2 ^ (min 64 (g - L.ackBase)) + 1) % 2 ^ 64, ackBase := g }
    else { L with ackMap := Nat.lor L.ackMap (2 ^ (L.ackBase - g)) % 2 ^ 64 }
  let L := { L with credit := bitsOf f6 0 16, accepted := L.accepted + 1, discards := 0, goodRound := L.goodRound + 1 }
  let L := if bitOf f6 20 ∧ L.swapAt = none then { L with swapAsk := some (bitsOf f6 16 4) } else L
  if bitOf f6 25 then { L with swapAt := some (bitsOf f6 21 4, word512 h 7 % 2 ^ 56), swapReq := none } else L

/-- Symbol corrections of a frame, by physical lane (R441, R478). -/
def State.countLanes (s : State) (l : Nat) (corr : List (Fin 9 × Nat)) : State :=
  corr.foldl (fun (s : State) (c : Fin 9 × Nat) =>
    (s.countLf l (F.LANE_CNT_CORR.at (8 * c.1)) c.2).onLink l (fun L =>
      { L with laneRun := L.laneRun.upd (fun _ => 0) c.1 (· + c.2) })) s

/-! ## Release and ends -/

/-- Write a line at a canonical address. -/
def State.writeLineAt (s : State) (g v : Nat) : State :=
  if spaceOf g = 1 then s.onTile (bitsOf g 46 14) (fun D => D.poke (localOf g) 64 v) else s.writeLine (g % 2 ^ 48) v

/-- Does the destination refuse a message now: a tile in Den, or one that runs a fenced context (R556, R615)? -/
def State.destRefuses (s : State) (m : Msg) : Bool :=
  let d := bitsOf m.dest 46 14
  spaceOf m.dest == 1 && ((s.tile d).padsHeld || ((s.tile d).work.isSome && s.fenced (s.ctxOfTile d)))

/-- The messages of one transfer when they are all there: from the lowest SEQ on without a gap to its last one, and as many lines
as the flow reserves (R528). -/
def wholeTransfer (lines : Nat) (ms : List Msg) : Option Msg :=
  match ms with
  | [] => none
  | x :: l =>
    let first := l.foldl (fun (b : Msg) m => if seqOld b.seq m.seq then m else b) x
    let n := ms.length
    if (List.range n).all (fun k => ms.any (fun m => m.seq == (first.seq + k) % 65536 && m.last == (k + 1 == n))) ∧
        ms.foldl (fun a m => a + m.lines.length) 0 = lines then some first else none

/-- The next message of a flow that can be released (R461): the one whose SEQ is due. DESIGN CHOICE (log 44): after a transfer
that ended without its last message the next SEQ is not known; the next transfer is then released once it is held whole, so that
no completion without an error delivers part of a buffer (R369). -/
def State.nextHeld (s : State) (l fl : Nat) : Option Msg :=
  let L := s.link l
  let mine := L.held.filter (fun m => m.flow == fl)
  if fl ≠ 0 ∧ (s.flow (flowKey l fl)).resync then
    match mine with
    | [] => none
    | x :: ms =>
      let d := ms.foldl (fun (b : Nat) m => min b m.deadline) x.deadline
      match s.flowEntry l fl with
      | some e => wholeTransfer (bitsOf e.2.w0 32 12) (mine.filter (fun m => m.deadline == d))
      | none => none
  else mine.find? (fun m => m.seq == L.rxSeq.get (fun _ => 0) fl)

/-- MESSAGE_RELEASE (R461, R462): the next message of a flow, or of open traffic (flow 0), goes to its destination. Its
last message ends the transfer, on time or late. -/
def State.release (s : State) (l fl : Nat) : State :=
  match s.nextHeld l fl with
  | none => s
  | some m =>
    let p := s.destPart l m
    let lines := m.lines.zipIdx.map (fun (x : Nat × Nat) => (s.canon p 0 (m.dest + 64 * x.2), x.1))
    if lines.any (fun x => spaceOf x.1 == 2 && !s.serves (blockOf x.1)) then s
    else
      let s := s.onLink l (fun L => { L with held := L.held.filter (fun x => !(x.flow == fl && x.seq == m.seq)),
                                             rxSeq := L.rxSeq.set (fun _ => 0) fl ((m.seq + 1) % 65536) })
      let s := if fl = 0 then s else s.onFlow (flowKey l fl) (fun f => { f with resync := false })
      if s.destRefuses m then
        let s := s.countLf l F.LINK_ERR_CNT_REFUSED 1
        if fl = 0 then s else s.endFlow l fl m.deadline 3
      else
        let s := lines.foldl (fun (s : State) (x : Nat × Nat) => s.writeLineAt x.1 x.2) s
        if fl = 0 ∨ !m.last then s else s.endFlow l fl m.deadline (if s.owl.ns ≤ m.deadline * 256 then 0 else 17)

/-- MESSAGE_RELEASE. -/
def execMessageRelease (l : LinkIx) (fl : BitVec 12) (s : State) : Host.Outcome State Fault Refusal :=
  .next (s.release l fl.toNat)

/-- The worst end among those counted, in the order of R458. -/
def worstEnd (l : List (Nat × Nat)) : Nat := ([19, 3, 16, 17].find? (fun c => l.any (fun e => e.1 == c))).getD 0

/-- RECV_COMPLETION (R458): the end count has grown by COUNT. -/
def State.recvDone (s : State) (t tag : Nat) : State :=
  match (s.tile t).req tag with
  | none => s
  | some r =>
    let sel := r.entry.sb.toNat
    let k := flowKey (sel % 64) (bitsOf sel 6 12)
    let ends := (s.flow k).since.take r.total
    if r.kind ≠ .recv ∨ r.done ∨ ends.length < r.total then s
    else
      let w := worstEnd ends
      let hit := ends.filter (fun e => e.1 == w)
      let s := s.onFlow k (fun f => { f with since := f.since.drop r.total })
      (s.onTile t (fun T => T.finish tag
        { r with code := w, limit := hit.length, deadline := (hit.head?.map (·.2)).getD 0 })).after t

/-- RECV_COMPLETION. -/
def execRecvCompletion (t : TileIx) (tag : BitVec 7) (s : State) : Host.Outcome State Fault Refusal :=
  .next (s.recvDone t tag.toNat)

/-- A bound `mv.dma` is not done at (D + H) × 256 (R462): it ends LATE, and lines already written stay written. -/
def State.streetLate (s : State) (t tag : Nat) : State :=
  match (s.tile t).req tag with
  | none => s
  | some r =>
    if r.kind ≠ .dma ∨ r.deadline = 0 ∨ r.done ∨ s.owl.ns < (r.deadline + s.ef F.NET_CFG_HORIZON) * 256 then s
    else
      let p := s.ownerOfTile t
      let part := (((s.tile t).parts tag).flatMap (fun q => q.2.pieces.filter (fun x => !q.2.wrote.contains x.idx))).map
        (fun (x : Piece) => (x.idx, 16, x.dst))
      let left := (List.range (r.total - r.launched)).map (fun k =>
        (r.launched + k, 16, s.canon p t (r.entry.dst + 64 * (r.launched + k))))
      let got := ((s.tile t).parts tag).flatMap (fun (q : Nat × XReq) => q.2.bad)
      (s.onTile t (fun T => (T.dropParts tag).finish tag { r with bad := part ++ left ++ got ++ r.bad })).after t

/-- The deadline beat of the first transfer of a flow that has not ended (R457). -/
def State.flowDue (s : State) (l fl : Nat) : Option Nat :=
  (s.flowEntry l fl).map (fun x =>
    let d := bitsOf x.2.w0 4 12 + bitsOf x.2.w0 44 12
    let last := (s.flow (flowKey l fl)).lastD
    if last < x.1.start * 4096 + d then x.1.start * 4096 + d else (last - d) / 4096 * 4096 + 4096 + d)

/-- TRANSFER_HORIZON_EXPIRY (R462): of a street transfer of a tile's tag, or of a link's flow. -/
def execTransferHorizonExpiry (x : Option (TileIx × BitVec 7)) (l : LinkIx) (fl : BitVec 12) (s : State) :
    Host.Outcome State Fault Refusal :=
  .next (match x with
    | some (t, tag) => s.streetLate t tag.toNat
    | none =>
      match s.flowDue l fl.toNat with
      | some d => if s.owl.ns < (d + s.lf l F.LINK_CFG_HORIZON) * 256 then s else s.endFlow l fl.toNat d 16
      | none => s)

/-! ## Lanes and link state -/

/-- Unfinished sends of a link: tile, tag and request. -/
def State.sendsOn (s : State) (l : Nat) : List (Nat × Nat × XReq) :=
  s.tiles.flatMap (fun (x : Nat × Tile) => (x.2.reqs.filter (fun (r : Nat × XReq) =>
    r.2.kind == .send && !r.2.done && (moveFields r.2.entry.instr).any (fun f => bitsOf f.1.w1.toNat 13 6 == l))).map
      (fun r => (x.1, r.1, r.2)))

/-- The lines of a send that no acknowledged frame has carried: all of it while its messages are not yet formed. -/
def State.unsent (s : State) (l t tag : Nat) (r : XReq) : List Nat :=
  if r.answer = none then List.range r.total
  else
    let ms := (s.link l).open_.filter (fun m => m.tile == t && m.tag == tag + r.gen * 128)
    (List.range r.total).filter (fun k => ms.any (fun m =>
      let k0 := (m.dest + 2 ^ 64 - r.entry.dst) / 64 % 131072
      k0 ≤ k && k < k0 + m.lines.length))

/-- A link leaves its state for DOWN (R456, R465, R468, R469): its sends complete with LINK_DOWN; from SYNC the held open
messages are discarded; the time fields stop. With EN 1 it enters TRAINING at once. DESIGN CHOICE (log 90): the SEQ of open traffic
starts at 0 anew in both directions, and the open messages held are discarded when the link leaves SERVICE too: the sender has
dropped what would have come before them. -/
def State.linkDown (s : State) (l : Nat) : State :=
  let s := (s.sendsOn l).foldl (fun (s : State) (x : Nat × Nat × XReq) =>
    s.endSend x.1 x.2.1 x.2.2 (s.unsent l x.1 x.2.1 x.2.2) 18) s
  let open_ := (s.link l).held.filter (fun m => m.flow == 0)
  let s := if open_ ≠ [] then s.countLf l F.LINK_ERR_CNT_DROPPED open_.length else s
  let s := s.onLink l (fun L =>
    { L with out := [], flight := [], failed := [], spill := [], carry := 0, credit := 0, ackMap := 0, echo := none,
             discards := 0, goodRound := 0, swapReq := none, swapAsk := none, leaveAt := none,
             held := L.held.filter (fun m => m.flow != 0), txSeq := L.txSeq.del 0, rxSeq := L.rxSeq.del 0 })
  let s := (s.setLf l F.LINK_TIME_STAT_BAD 1).setLf l F.LINK_STATUS_STATE (s.lf l F.LINK_CFG_EN)
  s

/-- Lanes in service that have lost lock (R468). -/
def State.lanesLost (s : State) (l : Nat) : Nat :=
  ((List.range 9).filter (fun k => k != s.lf l F.LINK_STATUS_OFF_LANE && s.lf l (F.LANE_CNT_LOCK.at (8 * k)) == 0)).length

/-- Does a link leave its state now? (R468, R469) -/
def State.leaves (s : State) (l : Nat) : Bool :=
  s.lstate l != 0 && ((s.link l).leaveAt.any (fun at_ => at_ ≤ s.owl.ns) ||
    (s.lstate l == 3 && (16 ≤ (s.link l).discards || 2 ≤ s.lanesLost l)))

/-- LINK_DOWN. -/
def execLinkDown (l : LinkIx) (s : State) : Host.Outcome State Fault Refusal :=
  .next (if s.leaves l then s.linkDown l else s)

/-- One lane is judged failed (R466, R468): it is reported, and a swap is requested; without a spare lane FAILED2 is set
and the link leaves SERVICE. -/
def State.laneFailed (s : State) (l k : Nat) : State :=
  let f := F.LANE_CNT_FAILED.at (8 * k)
  if s.lf l f = 1 then s
  else
    let s := s.setLf l f 1
    let off := s.lf l F.LINK_STATUS_OFF_LANE
    if k = off then s
    else if s.lf l F.LINK_STATUS_SPARE_USED = 1 ∨ (s.link l).swapReq.isSome ∨ (s.link l).swapAt.isSome ∨
        s.lf l (F.LANE_CNT_FAILED.at (8 * off)) = 1 then
      let s := s.setLf l F.LINK_STATUS_FAILED2 1
      if s.lstate l = 3 then s.onLink l (fun L => { L with leaveAt := some s.owl.ns }) else s
    else s.onLink l (fun L => { L with swapReq := some k })

/-- LANE_FAILURE (R466): lanes of the mask `lost` lose lock, and lanes that have reached LANE_LIMIT in this round are
judged failed. -/
def execLaneFailure (l : LinkIx) (lost : BitVec 9) (s : State) : Host.Outcome State Fault Refusal :=
  .next (if s.lstate l = 0 then s
  else (List.range 9).foldl (fun (s : State) k =>
    let s := if bitOf lost.toNat k then s.setLf l (F.LANE_CNT_LOCK.at (8 * k)) 0 else s
    if bitOf lost.toNat k ∨ s.lf l F.LINK_CFG_LANE_LIMIT ≤ (s.link l).laneRun.get (fun _ => 0) k then s.laneFailed l k
    else s) s)

/-- LANE_SWAP (R466): at SWAP_AT the logical lanes are mapped around the new OFF_LANE. -/
def execLaneSwap (l : LinkIx) (s : State) : Host.Outcome State Fault Refusal :=
  .next (match (s.link l).swapAt with
    | some (k, at_) =>
      if s.owl.ns < at_ * 256 then s
      else
        let s := s.setLf l F.LINK_STATUS_OFF_LANE k
        let s := if s.lf l F.LINK_STATUS_SPARE_USED = 0 ∧ k ≠ 8 then
            (s.setLf l F.LINK_STATUS_SPARE_USED 1).setEf F.SPARE_STATUS_LINK_SPARE (s.ef F.SPARE_STATUS_LINK_SPARE - 1)
          else s
        (s.onLink l (fun L => { L with swapAt := none, swapReq := none, swapAsk := none })).showSwap l
    | none => s)

/-- LINK_SYNC_ENTRY (R465): the lanes of a training link have aligned, and frames are accepted. -/
def execLinkSyncEntry (l : LinkIx) (s : State) : Host.Outcome State Fault Refusal :=
  .next (if s.lstate l = 1 ∧ 0 < (s.link l).goodRound then
    ((List.range 9).foldl (fun (s : State) k => s.setLf l (F.LANE_CNT_LOCK.at (8 * k)) 1) s).setLf l
      F.LINK_STATUS_STATE 2
  else s)

/-- LINK_SERVICE_ENTRY (R465): at a round boundary, after a whole round of accepted frames. -/
def execLinkServiceEntry (l : LinkIx) (s : State) : Host.Outcome State Fault Refusal :=
  let L := s.link l
  .next (if s.lstate l = 2 ∧ s.owl.ns % 1048576 = 0 ∧ 4096 + (L.ackBase + 1) % 4096 ≤ L.goodRound then
    s.setLf l F.LINK_STATUS_STATE 3 else s)

/-- LINK_CFG.EN is 1 on a link in DOWN: it enters TRAINING at once (R465). -/
def State.linkEnable (s : State) (l : Nat) : State :=
  let s := s.setLf l F.LINK_CFG_EN 1
  if s.lstate l = 0 then s.setLf l F.LINK_STATUS_STATE 1 else s

/-- The link leaves its state at the next beat boundary (R469). -/
def State.linkLeave (s : State) (l : Nat) : State :=
  if s.lstate l = 0 then s else s.onLink l (fun L => { L with leaveAt := some ((s.beat + 1) * 256) })

/-- LINK_CFG.CLR_CNT (R475): the error counts are cleared, the sticky flags are not. -/
def State.linkClear (s : State) (l : Nat) : State :=
  let s := s.setHost (linkPage l + F.LINK_ERR_CNT_UNCORR.reg) 0
  (List.range 9).foldl (fun (s : State) k =>
    (s.setLf l (F.LANE_CNT_CORR.at (8 * k)) 0).setLf l (F.LANE_CNT_LAST_ROUND.at (8 * k)) 0) s

/-- LINK_ENABLE: a write of EN = 1. -/
def execLinkEnable (l : LinkIx) (s : State) : Host.Outcome State Fault Refusal := .next (s.linkEnable l)

/-- LINK_DISABLE (R469): a write of EN = 0. -/
def execLinkDisable (l : LinkIx) (s : State) : Host.Outcome State Fault Refusal :=
  .next ((s.setLf l F.LINK_CFG_EN 0).linkLeave l)

/-- LINK_RETRAIN (R469): a write of RETRAIN = 1. -/
def execLinkRetrain (l : LinkIx) (s : State) : Host.Outcome State Fault Refusal := .next (s.linkLeave l)

/-- LINK_CLEAR_COUNTERS (R475). -/
def execLinkClearCounters (l : LinkIx) (s : State) : Host.Outcome State Fault Refusal := .next (s.linkClear l)

end Sys2Proof.Machine
end

