-- ==== Sys2Proof/Machine/Part.lean ====
section
/-!
DEFINITION. Contexts and admission (R519 to R551): CTX_CFG, timetable images, charges and limits, installation,
withdrawal and settlement.
-/
namespace Sys2Proof.Machine

/-! ## Contexts -/

/-- Does a context own a granule or a live timetable? (R520) -/
def State.ctxHolds (s : State) (c : Nat) : Bool :=
  s.cf c F.CTX_USE_MEM_USED != 0 || s.tables.any (fun tb => tb.ctx == c)

/-- A write to CTX_CFG (R520). -/
def State.writeCtxCfg (s : State) (c w src : Nat) : State :=
  let valid := s.cf c F.CTX_CFG_VALID == 1
  let part := s.cf c F.CTX_CFG_PART
  let newPart := if valid then part else bitsOf w 1 4
  s.writeHost (ctxPage c) w src (fun f =>
    if f = F.CTX_CFG_VALID then (if bitOf w 0 then s.pstate newPart != 2 else valid && s.ctxHolds c)
    else if f = F.CTX_CFG_PART then valid && bitsOf w 1 4 != part
    else f == F.CTX_CFG_QUEUES && valid && bitsOf w 5 3 != s.cf c F.CTX_CFG_QUEUES)

/-- CTX_CFG_WRITE. -/
def execCtxCfgWrite (c : CtxIx) (w : BitVec 64) (src : Fin 4) (s : State) : Host.Outcome State Fault Refusal :=
  .next (s.writeCtxCfg c w.toNat src)

/-! ## Routes -/

/-- TT_CAP of a street channel (R434). -/
def ttCap (plevel : Nat) : Nat := 192 * plMult plevel

/-- A leg of a route: direction, avenue, hops (R529). -/
def routeLeg (r k : Nat) : Nat × Bool × Nat := (bitsOf r (12 * k) 2, bitOf r (12 * k + 2), bitsOf r (12 * k + 3) 7)

/-- The legs of a route up to the first with no hops. -/
def routeLegs (r : Nat) : List (Nat × Bool × Nat) := ((List.range 5).map (routeLeg r)).takeWhile (fun l => l.2.2 != 0)

/-- Reserved bits and values of ROUTE: a leg of no hops ends it, and every later one is 0. -/
def routeReserved (r : Nat) : Bool :=
  bitsOf r 60 4 != 0 || (List.range 5).any (fun k => bitsOf r (12 * k + 10) 2 != 0) ||
    r % 2 ^ 60 / 2 ^ (12 * ((routeLegs r).length + 1)) != 0

/-- One step in a direction. -/
def stepDir (dir n : Nat) (i j : Int) : Int × Int :=
  match dir with
  | 0 => (i + n, j)
  | 1 => (i, j + n)
  | 2 => (i - n, j)
  | _ => (i, j - n)

/-- Resources of the wafer and the links, by class (R531): 0 street channel, 1 avenue channel, 2 and 3 source and
destination tile port, 4 ramp port, 5 memory channel, 6 memory bank, 7 link direction. -/
def resKey (cls n : Nat) : Nat := cls * 2 ^ 40 + n

/-- The channels of a leg and where it ends, or none where it leaves the grid or an avenue hop does not start at a
crossing (R429, R529). -/
def walkLeg (dir : Nat) (av : Bool) : Nat → Int → Int → Option (List Nat × Int × Int)
  | 0, i, j => some ([], i, j)
  | n + 1, i, j =>
    let (i', j') := stepDir dir (if av then 5 else 1) i j
    if i' < 0 ∨ 120 ≤ i' ∨ j' < 0 ∨ 90 ≤ j' ∨ (av ∧ (i % 5 ≠ 0 ∨ j % 5 ≠ 0)) then none
    else
      let c := resKey (b2n av) ((j * 120 + i).toNat * 4 + dir)
      (walkLeg dir av n i' j').map (fun x => (c :: x.1, x.2))

/-- The channels of a route and its end. -/
def walkRoute : List (Nat × Bool × Nat) → Int → Int → Option (List Nat × Int × Int)
  | [], i, j => some ([], i, j)
  | l :: ls, i, j =>
    match walkLeg l.1 l.2.1 l.2.2 i j with
    | none => none
    | some (cs, i', j') => (walkRoute ls i' j').map (fun x => (cs ++ x.1, x.2))

/-- Turns of a route (R433). -/
def turns : List (Nat × Bool × Nat) → Nat
  | a :: b :: l => (if a.1 = b.1 ∧ a.2.1 = b.2.1 then 0 else 1) + turns (b :: l)
  | _ => 0

/-- Cycles of a route's elements without serialisation (R433). -/
def routeCycles (r : Nat) : Nat :=
  let ls := routeLegs r
  6 + turns ls + ls.foldl (fun n l => n + l.2.2 * (if l.2.1 then 4 else 2)) 0

/-- The first ramp of a link (R430). -/
def rampOf (l : Nat) : Int × Int :=
  let m := l % 16
  let off := match m % 4 with
    | 0 => 1
    | 1 => 4
    | 2 => 8
    | _ => 11
  let along : Int := (15 * (m / 2) + 4 + 6 * (m % 2) : Nat)
  let up : Int := (15 * (1 + m / 4) + off : Nat)
  match l / 16 with
  | 0 => (along, 0)
  | 1 => (along, 89)
  | 2 => (0, up)
  | _ => (119, up)

/-- The square of a tile. -/
def squareOf (t : Nat) : Int × Int := ((t % 120 : Nat), (t / 120 : Nat))

/-! ## Entries -/

/-- KIND of an entry (R528). -/
def TEntry.kind (x : TEntry) : Nat := bitsOf x.w0 0 4
/-- BEAT. -/
def TEntry.beat (x : TEntry) : Nat := bitsOf x.w0 4 12
/-- TILE. -/
def TEntry.tile (x : TEntry) : Nat := bitsOf x.w0 16 14
/-- LINES. -/
def TEntry.lines (x : TEntry) : Nat := bitsOf x.w0 32 12
/-- D. -/
def TEntry.d (x : TEntry) : Nat := bitsOf x.w0 44 12
/-- The link of a SEND or RECV entry. -/
def TEntry.link (x : TEntry) : Nat := bitsOf x.w1 0 6
/-- FLOW. -/
def TEntry.flow (x : TEntry) : Nat := bitsOf x.w1 6 12
/-- RX_BEATS. -/
def TEntry.rxBeats (x : TEntry) : Nat := bitsOf x.w1 32 8
/-- GROUP. -/
def TEntry.group (x : TEntry) : Nat := bitsOf x.w1 40 8
/-- GTAG. -/
def TEntry.gtag (x : TEntry) : Bool := bitOf x.w1 48
/-- LSLOTS0. -/
def TEntry.lslots0 (x : TEntry) : Nat := bitsOf x.w1 49 10
/-- LOFF. -/
def TEntry.loff (x : TEntry) : Nat := bitsOf x.w3 0 8
/-- Link slots of an entry, headers included (R530). -/
def TEntry.slots (x : TEntry) : Nat := x.lines + ceilDiv x.lines 256
/-- The destination block of a MEM entry. -/
def TEntry.block (x : TEntry) : Nat := bitsOf x.w1 0 10

/-- Reserved bits and values of an entry (R527, R528). -/
def TEntry.reserved (x : TEntry) : Bool :=
  let link := x.kind == 2 || x.kind == 3
  4 ≤ x.kind || bitsOf x.w0 30 2 != 0 || bitsOf x.w0 56 8 != 0 || x.lines == 0 || x.d == 0 || 10800 ≤ x.tile ||
    bitsOf x.w1 18 14 != 0 || bitsOf x.w1 59 5 != 0 || x.w3 / 256 != 0 || routeReserved x.w2 ||
    (x.kind == 0 && (10800 ≤ bitsOf x.w1 0 18)) ||
    (x.kind == 1 && (720 ≤ x.block || 12 ≤ bitsOf x.w1 10 4 || bitsOf x.w1 14 4 != 0)) ||
    (link && x.flow == 0) || (if link then x.rxBeats == 0 else x.rxBeats != 0) ||
    (if x.kind == 2 then x.lslots0 == 0 || 800 < x.lslots0 || x.loff == 0 else x.lslots0 != 0 || x.loff != 0)

/-- Where the route of an entry starts and must end (R529). -/
def TEntry.ends (x : TEntry) : (Int × Int) × (Int × Int) :=
  match x.kind with
  | 0 => (squareOf x.tile, squareOf (bitsOf x.w1 0 14))
  | 1 => (squareOf x.tile, ((x.block % 24 * 5 : Nat), (x.block / 24 * 3 : Nat)))
  | 2 => (squareOf x.tile, rampOf x.link)
  | _ => (rampOf x.link, squareOf x.tile)

/-- The channels of an entry's route, if it runs where it must. -/
def TEntry.route (x : TEntry) : Option (List Nat) :=
  let (a, b) := x.ends
  match walkRoute (routeLegs x.w2) a.1 a.2 with
  | some (cs, i, j) => if i = b.1 ∧ j = b.2 then some cs else none
  | none => none

/-- `n` beats from beat `b` on, catch-up beats skipped (R530). -/
def plainBeats (b : Nat) : Nat → List Nat
  | 0 => []
  | n + 1 => let b := if b % 16 = 15 then b + 1 else b; b :: plainBeats (b + 1) n

/-- Slots per link beat of `left` slots after the first beat (R530). -/
def linkBeats (b left : Nat) : Nat → List (Nat × Nat)
  | 0 => []
  | n + 1 => if left = 0 then [] else (b, min 800 left) :: linkBeats (nextSlotBeat b) (left - 800) n

/-- The link beats of a SEND entry with their slots. -/
def TEntry.linkUse (x : TEntry) : List (Nat × Nat) :=
  let b := x.beat + x.loff
  (b, min x.lslots0 x.slots) :: linkBeats (nextSlotBeat b) (x.slots - x.lslots0) 8

/-- The charges of an entry (R530): resource, beat in the round, amount. -/
def TEntry.charges (x : TEntry) (plevel : Nat) : List (Nat × Nat × Nat) :=
  if x.freed then []
  else
    let cap := ttCap plevel
    let u := ceilDiv x.lines cap
    let amounts := (plainBeats x.beat u).zipIdx.map (fun (k : Nat × Nat) => (k.1 % 4096, min cap (x.lines - k.2 * cap)))
    let spread := fun (r : Nat) => amounts.map (fun a => (r, a.1, a.2))
    let chans := ((x.route).getD []).flatMap spread
    match x.kind with
    | 0 => chans ++ spread (resKey 2 x.tile) ++ spread (resKey 3 (bitsOf x.w1 0 14))
    | 1 => chans ++ spread (resKey 2 x.tile) ++
        amounts.flatMap (fun a => (List.range 16).map (fun c => (resKey 5 (x.block * 16 + c), a.1, ceilDiv a.2 16)) ++
          [(resKey 6 (x.block * 16 + bitsOf x.w1 10 4), a.1, 4 * ceilDiv a.2 1024)])
    | 2 => chans ++ spread (resKey 2 x.tile) ++
        amounts.flatMap (fun a => [(resKey 4 (x.link * 2), a.1, ceilDiv a.2 2), (resKey 4 (x.link * 2 + 1), a.1, ceilDiv a.2 2)]) ++
        x.linkUse.map (fun b => (resKey 7 x.link, b.1 % 4096, b.2))
    | _ => chans ++ spread (resKey 3 x.tile)

/-- Is an entry feasible? (R532) Ticks are compared times the clock multiple. -/
def TEntry.feasible (x : TEntry) (plevel rd lb : Nat) : Bool :=
  let m := plMult plevel
  let cap := ttCap plevel
  let u := ceilDiv x.lines cap
  let cyc := fun (n : Nat) => routeCycles x.w2 + ceilDiv n 4 - 1
  let tM := 256 * (u - 1) * m + 4 * cyc (x.lines - (u - 1) * cap)
  let slack := tM + 100 * ceilDiv x.d 16 * m ≤ x.d * 256 * m
  match x.kind with
  | 1 => slack && 4 * cyc (min cap x.lines) ≤ 192 * m && 4 * cyc (x.lines - (u - 1) * cap) ≤ 192 * m
  | 2 =>
    let r := (x.linkUse.getLast?.map (·.1)).getD 0
    ceilDiv tM (256 * m) + 1 ≤ x.loff && (x.beat + x.loff) % 16 != 15 &&
      retryBeat (r + rd) + 1 + lb + x.rxBeats ≤ x.beat + x.d
  | _ => slack

/-! ## Limits -/

/-- The limit of a resource in one beat (R531). -/
def State.limitOf (s : State) (r : Nat) : Nat :=
  let cap := ttCap s.plevel
  match r / 2 ^ 40 with
  | 1 => 2 * cap * s.shares.1 / 16
  | 5 => 1280 * s.shares.2.1 / 16
  | 6 => 128
  | 7 => 800 * s.shares.2.2 / 16
  | _ => cap * s.shares.1 / 16

/-- The charges of a timetable. -/
def TTable.charges (tb : TTable) : List (Nat × Nat × Nat) :=
  if tb.suspended then [] else tb.entries.flatMap (fun x => x.charges tb.plevel)

/-- The amount charged on a resource in a beat. -/
def loadOf (l : List (Nat × Nat × Nat)) (r b : Nat) : Nat :=
  l.foldl (fun n x => if x.1 = r ∧ x.2.1 = b then n + x.2.2 else n) 0

/-- The resources and beats that carry more than their limit. -/
def State.overloads (s : State) (l : List (Nat × Nat × Nat)) : List (Nat × Nat × Nat) :=
  l.filter (fun x => s.limitOf x.1 < loadOf l x.1 x.2.1)

/-- Reassembly bytes of a link that flow entries hold. -/
def storeUse (l : Nat) (xs : List TEntry) : Nat :=
  xs.foldl (fun n x => if x.kind = 3 ∧ x.link = l then n + 64 * x.slots else n) 0

/-- The bandwidth use of a context, in slots per round (R524). -/
def State.bandwidth (s : State) (c : Nat) : Nat :=
  (s.tables.filter (fun tb => tb.ctx == c)).foldl (fun n tb => n + tb.charges.foldl (fun n x => n + x.2.2) 0) 0

/-- Is a context over its bandwidth quota in force with a use of `n` slots? -/
def State.overQuota (s : State) (c n : Nat) : Bool :=
  (s.ctx c).quota != 0xFFFFFF && (s.ctx c).quota * 1024 < n

/-- CTX_USE and PART_STATUS follow the timetables that live (R524, R525, R543). -/
def State.recount (s : State) (p c : Nat) : State :=
  let use := s.bandwidth c
  let live := s.tables.filter (fun tb => tb.part == p)
  let s := if live = [] then s.onPart p (fun P => { P with partSeq := 0 }) else s
  let s := (s.setCf c F.CTX_USE_TT_USED (ceilDiv use 1024)).setCf c F.CTX_USE_OVER_TT (b2n (s.overQuota c use))
  ((s.setPf p F.PART_STATUS_LIVE live.length).setPf p F.PART_STATUS_SUSP (b2n (live.any (·.suspended)))).setPf p
    F.PART_STATUS_PART_SEQ ((s.part p).partSeq % 2 ^ 32)

/-! ## Submission -/

/-- A 64-bit word of a partition's stacked memory. -/
def State.partWord (s : State) (p g : Nat) : Nat := memRead s.mem (s.canon (some p) 0 g % 2 ^ 48) 8

/-- Can a range of a partition's stacked memory not be read: a bad address, or a line that is uncorrectable or
poisoned? -/
def State.unreadable (s : State) (p g n : Nat) : Bool :=
  formBad g || spaceOf g != 2 || stackedOut (s.blockCount (some p)) g n || s.foreign (some p) g ||
    (List.range (ceilDiv n 64)).any (fun k =>
      let a := s.canon (some p) 0 (g + 64 * k) % 2 ^ 48
      s.memUE.contains a || s.memPoison.contains a)

/-- The partition's controller reads the lines of `n` bytes from partition address `g` on, in class N (R399): each line that it
finds uncorrectable is counted and logged (R408). -/
def State.readLines (s : State) (p g n : Nat) : State :=
  (List.range (ceilDiv (g % 64 + n) 64)).foldl (fun (s : State) k =>
    (s.readStacked (s.canon (some p) 0 (g / 64 * 64 + 64 * k)) 64 [] false 0 1).1) s

/-- Entry `k` of an image at `g`. -/
def State.imageEntry (s : State) (p g k : Nat) : TEntry :=
  let w := fun n => s.partWord p (g + 64 + 32 * k + 8 * n)
  { w0 := w 0, w1 := w 1, w2 := w 2, w3 := w 3, epoch := 0, freed := false }

/-- The header of an image has a bad MAGIC or FORMAT, or a reserved bit or value (R527). -/
def State.headerBad (s : State) (p g : Nat) : Bool :=
  let w := fun n => s.partWord p (g + 8 * n)
  w 0 != 0x31545442 + 2 ^ 32 || bitsOf (w 1) 6 10 != 0 || w 1 / 2 ^ 33 != 0 || bitsOf (w 1) 16 17 == 0 ||
    65536 < bitsOf (w 1) 16 17 || w 2 / 2 ^ 44 != 0 || w 3 / 4 != 0 || w 4 != 0 || w 5 != 0 || w 6 != 0 || w 7 != 0

/-- SCOPE of R533 for an entry. -/
def State.outOfScope (s : State) (p : Nat) (x : TEntry) : Bool :=
  let link := x.kind == 2 || x.kind == 3
  let gp := groupPage x.group
  s.ownerOfTile x.tile != some p || (x.kind == 0 && s.ownerOfTile (bitsOf x.w1 0 14) != some p) ||
    (x.kind == 1 && s.ownerOfBlock x.block != some p) ||
    (link && (!bitOf (s.lf x.link F.LINK_OWNER_PARTS) p || s.lstate x.link != 3 || s.lf x.link F.LINK_TIME_STAT_BAD == 1)) ||
    (x.gtag && (s.hf gp F.GRP_CTRL_VALID == 0 || s.hf gp F.GRP_CTRL_PART != p ||
      (link && (s.lf x.link F.LINK_AXIS_AXIS == 0 ||
        !bitOf (s.hf gp F.GRP_CTRL_AXES) (s.lf x.link F.LINK_AXIS_AXIS - 1)))))

/-- The first entry that fails a test. -/
def firstEntry (xs : List TEntry) (bad : TEntry → Bool) : Option Nat :=
  (xs.zipIdx.find? (fun x => bad x.1)).map (·.2)

/-- A flow used twice in one link direction: the entry that repeats it (R531). -/
def flowTwice (live : List TEntry) (xs : List TEntry) : Option Nat :=
  (xs.zipIdx.find? (fun x => (x.1.kind == 2 || x.1.kind == 3) &&
    (live ++ xs.take x.2).any (fun y => y.kind == x.1.kind && y.link == x.1.link && y.flow == x.1.flow))).map (·.2)

/-- More launch entries than a tile holds, or reassembly than a link has (R531). -/
def tableFull (launch live xs : List TEntry) : Bool :=
  let mine := xs.filter (fun x => x.kind < 3)
  mine.any (fun x => 64 < ((launch ++ mine).filter (fun y => y.tile == x.tile)).length) ||
    (List.range 64).any (fun l => 7 * 2 ^ 20 < storeUse l (live ++ xs) && storeUse l xs != 0)

/-- The tests of R533 in order (while a change of P-level is pending none is in force, R606): RESULT and the failing entry, or the entries of an accepted image. -/
def State.judge (s : State) (p g : Nat) : (Nat × Nat) ⊕ List TEntry :=
  let count := bitsOf (s.partWord p (g + 8)) 16 17
  let c := bitsOf (s.partWord p (g + 8)) 0 6
  let pl := bitsOf (s.partWord p (g + 24)) 0 2
  let start := bitsOf (s.partWord p (g + 16)) 0 44
  if g % 64 ≠ 0 ∨ s.unreadable p g 64 ∨ s.headerBad p g ∨ s.unreadable p g (64 + 32 * count) then .inl (1, 0)
  else
    let xs := (List.range count).map (s.imageEntry p g)
    let live := s.tables.flatMap (·.entries)
    let launch := (s.tables.filter (fun tb => !tb.suspended)).flatMap (fun tb => tb.entries.filter (fun x => x.kind < 3))
    match firstEntry xs TEntry.reserved with
    | some k => .inl (1, k)
    | none =>
      if s.pstate p ≠ 2 ∨ s.cf c F.CTX_CFG_VALID = 0 ∨ s.cf c F.CTX_CFG_PART ≠ p ∨ pl ≠ s.plevel ∨ s.ef F.PWR_PLVL_PEND = 1 then
        .inl (2, 0)
      else if s.ef F.TIME_STATE_STATE = 0 ∨ s.owl.stepOk.isSome then .inl (3, 0)
      else if s.tables.any (fun tb => tb.part == p && tb.suspended) ∨ s.cf c F.CTX_USE_OVER_TT = 1 then .inl (4, 0)
      else if start < s.round + 2 then .inl (5, 0)
      else match firstEntry xs (s.outOfScope p), firstEntry xs (fun x => x.route.isNone),
          firstEntry xs (fun x => !x.feasible pl (s.lf x.link F.LINK_STATUS_RD) (s.lf x.link F.LINK_STATUS_LINK_BEATS)),
          flowTwice live xs with
        | some k, _, _, _ => .inl (6, k)
        | _, some k, _, _ => .inl (7, k)
        | _, _, some k, _ => .inl (8, k)
        | _, _, _, some k => .inl (9, k)
        | none, none, none, none =>
          let new := xs.flatMap (fun x => x.charges pl)
          let all := s.tables.flatMap TTable.charges ++ new
          if tableFull launch live xs ∨ 256 ≤ (s.tables.filter (fun tb => tb.part == p)).length then .inl (9, 0)
          else if new.any (fun x => s.limitOf x.1 < loadOf all x.1 x.2.1) then .inl (10, 0)
          else if s.overQuota c (s.bandwidth c + new.foldl (fun n x => n + x.2.2) 0) then .inl (11, 0)
          else .inr xs

/-- ADM_CTL submits the image at ADM_ADDR (R526, R533, R534). Which free TT_ID a timetable receives is a free value. -/
def State.submit (s : State) (p : Nat) : State :=
  let g := s.pf p F.ADM_ADDR_ADDR
  let verdict := s.judge p g
  let form := g % 64 = 0 ∧ spaceOf g = 2 ∧ !formBad g ∧ !stackedOut (s.blockCount (some p)) g 64 ∧ !s.foreign (some p) g
  let size := 64 + 32 * (if s.headerBad p g then 0 else bitsOf (s.partWord p (g + 8)) 16 17)
  let s := if form then s.readLines p g (if stackedOut (s.blockCount (some p)) g size then 64 else size) else s
  match verdict with
  | .inl (res, k) => ((s.setPf p F.ADM_STATUS_RESULT res).setPf p F.ADM_STATUS_ENTRY k).setPf p F.ADM_STATUS_BUSY 0
  | .inr xs =>
    let ids := (List.range 256).filter (fun i => !s.tables.any (fun tb => tb.part == p && tb.id == i))
    let id := ids.getD (Config.tagPick s.free % ids.length) 0
    let c := bitsOf (s.partWord p (g + 8)) 0 6
    let n := s.admCount
    let first := !s.tables.any (fun tb => tb.part == p)
    let tb : TTable :=
      { part := p, id := id, ctx := c, count := n, start := bitsOf (s.partWord p (g + 16)) 0 44,
        plevel := bitsOf (s.partWord p (g + 24)) 0 2, entries := xs, installed := false, suspended := false, withdrawn := none,
        gone := false }
    let s := { s with tables := s.tables ++ [tb], admCount := n + 1, free := s.free + 1 }
    let s := if first then s.onPart p (fun P => { P with partSeq := n }) else s
    let s := ((s.setPf p F.ADM_STATUS_RESULT 0).setPf p F.ADM_STATUS_TT_ID id).setPf p F.ADM_STATUS_SEQ (n % 2 ^ 32)
    (s.setPf p F.ADM_STATUS_ENTRY 0).recount p c

/-- TIMETABLE_SUBMIT. -/
def execTimetableSubmit (p : PartIx) (s : State) : Host.Outcome State Fault Refusal := .next (s.submit p)

/-- Change the timetables that satisfy a test. -/
def State.onTables (s : State) (p : TTable → Bool) (f : TTable → TTable) : State :=
  { s with tables := s.tables.map (fun tb => if p tb then f tb else tb) }

/-- ADM_CTL withdraws a timetable (R535): it is removed at the next round boundary. -/
def State.withdraw (s : State) (p id : Nat) : State :=
  let mine := fun (tb : TTable) => tb.part == p && tb.id == id
  let s := s.setPf p F.ADM_STATUS_ENTRY 0
  if s.tables.any mine then
    (s.onTables mine (fun tb => { tb with withdrawn := some (tb.withdrawn.getD s.round) })).setPf p F.ADM_STATUS_RESULT 0
  else s.setPf p F.ADM_STATUS_RESULT 12

/-- TIMETABLE_WITHDRAW. -/
def execTimetableWithdraw (p : PartIx) (id : BitVec 8) (s : State) : Host.Outcome State Fault Refusal :=
  .next (s.withdraw p id.toNat)

/-- TIMETABLE_INSTALL (R534): at START_ROUND the entries come into force, each tagged entry with its group's EPOCH. -/
def execTimetableInstall (p : PartIx) (id : BitVec 8) (s : State) : Host.Outcome State Fault Refusal :=
  .next (s.onTables (fun tb => tb.part == p && tb.id == id.toNat && tb.start ≤ s.round && !tb.installed && tb.withdrawn.isNone)
    (fun tb => { tb with installed := true, entries := tb.entries.map (fun x =>
      { x with epoch := if x.gtag then s.hf (groupPage x.group) F.GRP_STATUS_EPOCH else 0 }) }))

/-- WITHDRAWAL_EFFECT (R535): at the round boundary after the withdrawal the entries and the charge are gone, and the
flows with them. -/
def execWithdrawalEffect (p : PartIx) (id : BitVec 8) (s : State) : Host.Outcome State Fault Refusal :=
  let mine := fun (tb : TTable) => tb.part == p.val && tb.id == id.toNat && tb.withdrawn.any (fun r => r < s.round)
  .next (match s.tables.find? mine with
    | none => s
    | some tb =>
      let s := { s with tables := s.tables.filter (fun tb => !mine tb) }
      let keys := (tb.entries.filter (fun x => x.kind == 3)).map (fun x => flowKey x.link x.flow)
      let s := { s with flows := s.flows.keep (fun k => !keys.contains k) }
      s.recount p tb.ctx)

/-! ## Settlement -/

/-- The timetable with the highest admission count among those that satisfy a test. -/
def State.lastAdmitted (s : State) (p : TTable → Bool) : Option TTable :=
  (s.tables.filter p).foldl (fun (b : Option TTable) tb =>
    match b with
    | some x => if x.count < tb.count then some tb else some x
    | none => some tb) none

/-- Suspend a timetable (R538). -/
def State.suspend (s : State) (tb : TTable) : State :=
  (s.onTables (fun x => x.count == tb.count) (fun x => { x with suspended := true })).recount tb.part tb.ctx

/-- Suspend a context's timetables, the last admitted first, until its use fits its quota (R537). -/
def State.settleCtx (s : State) (c : Nat) : Nat → State
  | 0 => s
  | n + 1 =>
    if s.overQuota c (s.bandwidth c) then
      match s.lastAdmitted (fun tb => tb.ctx == c && !tb.suspended) with
      | some tb => (s.suspend tb).settleCtx c n
      | none => s
    else s

/-- While a resource is over its limit, suspend in the partition with the highest PART_SEQ its last admitted timetable that
charges one (R537). -/
def State.settleLoad (s : State) : Nat → State
  | 0 => s
  | n + 1 =>
    let hot := s.overloads (s.tables.flatMap TTable.charges)
    let guilty := fun (tb : TTable) => tb.charges.any (fun x => hot.any (fun h => h.1 == x.1 && h.2.1 == x.2.1))
    let seq := (s.tables.filter guilty).foldl (fun m tb => max m (s.part tb.part).partSeq) 0
    match s.lastAdmitted (fun tb => guilty tb && (s.part tb.part).partSeq == seq) with
    | some tb => (s.suspend tb).settleLoad n
    | none => s

/-- ADMISSION_SETTLEMENT (R537): at a round boundary, after withdrawals and group closes. A value written in this very tick
waits for the next one (R19). -/
def execAdmissionSettlement (s : State) : Host.Outcome State Fault Refusal :=
  .next (if s.owl.ns % 1048576 ≠ 0 then s
  else
    let s := { s with shares := (s.fieldAsOf 0 F.ADM_SHARE_SHARE_WAFER, s.fieldAsOf 0 F.ADM_SHARE_SHARE_MEM,
                                 s.fieldAsOf 0 F.ADM_SHARE_SHARE_LINK) }
    let s := (List.range 64).foldl (fun (s : State) c =>
      s.onCtx c (fun C => { C with quota := s.fieldAsOf (ctxPage c) F.CTX_QUOTA_TT })) s
    let s := (List.range 64).foldl (fun (s : State) c => s.settleCtx c s.tables.length) s
    s.settleLoad s.tables.length)

end Sys2Proof.Machine
end

