-- ==== Sys2Proof/Machine/Coll.lean ====
section
/-!
DEFINITION. Groups and collective instances (R479 to R513): membership, the COLL command, its completion, and membership
changes.
-/
namespace Sys2Proof.Machine

/-! ## Groups -/

/-- LO and N of an axis (0 x to 3 w) in a GRP_HALL word (R509). -/
def hallAxis (hall a : Nat) : Nat × Nat := (bitsOf hall (11 * a) 5, bitsOf hall (11 * a + 5) 6)

/-- This engine's coordinate on an axis (R506). -/
def State.coord (s : State) (a : Nat) : Nat := bitsOf (s.hostWord F.HALL_COORD_X.reg).toNat (5 * a) 5

/-- The valid exclusion entries of three GRP_EXCL words, as coordinates by axis (R511). -/
def exclusions (ws : List Nat) : List Nat :=
  ws.flatMap (fun w => ((List.range 3).filter (fun k => bitOf w (21 * k + 20))).map (fun k => bitsOf w (21 * k) 20))

/-- The axes of a mask. -/
def axesOf (axes : Nat) : List Nat := (List.range 4).filter (bitOf axes)

/-- Is the engine at a coordinate (5 bits per axis) a member? (R481) A group with AXES = 0 has this engine alone (R482). -/
def State.isMember (s : State) (axes hall : Nat) (excl : List Nat) (x : Nat) : Bool :=
  (List.range 4).all (fun a =>
    let v := bitsOf x (5 * a) 5
    if bitOf axes a then (hallAxis hall a).1 ≤ v && v < (hallAxis hall a).1 + (hallAxis hall a).2 else v == s.coord a) &&
  (axesOf axes == [] || !excl.any (fun e => (axesOf axes).all (fun a => bitsOf e (5 * a) 5 == bitsOf x (5 * a) 5)))

/-- The member engines, in rank order (R482). -/
def State.memberEngines (s : State) (axes hall : Nat) (excl : List Nat) : List Nat :=
  (List.range (2 ^ 20)).filter (s.isMember axes hall excl)

/-- A word of a group's page. -/
def State.gw (s : State) (g o : Nat) : Nat := (s.hostWord (groupPage g + o)).toNat

/-- Hall and exclusions in force for a group at a round, counting a pending change (R488). -/
def State.membership (s : State) (g beat : Nat) : Nat × List Nat :=
  match s.changes.find? (fun x => x.1 == g && x.2.1 * 4096 ≤ beat) with
  | some (_, _, ws) => ((ws.headD 0).toNat, exclusions (ws.tail.map (·.toNat)))
  | none => (s.gw g 8, exclusions [s.gw g 0x18, s.gw g 0x20, s.gw g 0x28])

/-- The member tiles (R481), in tile rank order (R482). -/
def State.memberTiles (s : State) (g : Nat) : List (Nat × Nat) :=
  let w := s.gw g 0x10
  let f := fun lo n => bitsOf w lo n
  (List.range (f 25 7)).flatMap (fun b => (List.range (f 7 7)).map (fun a =>
    (f 0 7 + a * f 14 4, f 18 7 + b * f 32 4)))

/-- T of a group (R482). -/
def State.tileCount (s : State) (g : Nat) : Nat := bitsOf (s.gw g 0x10) 7 7 * bitsOf (s.gw g 0x10) 25 7

/-- Does a hall fail R483: LO + N above 32, or N of 0, on an axis in AXES? -/
def hallBad (axes hall : Nat) : Bool :=
  (axesOf axes).any (fun a => (hallAxis hall a).2 == 0 || 32 < (hallAxis hall a).1 + (hallAxis hall a).2)

/-- A write of VALID = 1 is refused (R483). -/
def State.groupBad (s : State) (g part axes : Nat) : Bool :=
  (s.memberTiles g).any (fun x => 120 ≤ x.1 || 90 ≤ x.2 || s.ownerOfTile (x.2 * 120 + x.1) != some part) ||
    hallBad axes (s.gw g 8)

/-- A write to GRP_CTRL (R483). -/
def State.writeGrpCtrl (s : State) (g w src : Nat) : State :=
  let valid := bitOf (s.gw g 0) 0
  s.writeHost (groupPage g) w src (fun f =>
    if f = F.GRP_CTRL_VALID then
      if bitOf w 0 then !valid && s.groupBad g (bitsOf w 1 4) (bitsOf w 5 4)
      else valid && (s.hf (groupPage g) F.GRP_STATUS_PEND == 1 || s.colls.any (fun x => x.group == g))
    else valid && bitsOf w f.lo f.width != bitsOf (s.gw g 0) f.lo f.width)

/-- GRP_CTRL_WRITE. -/
def execGrpCtrlWrite (g : GroupIx) (w : BitVec 64) (src : Fin 4) (s : State) : Host.Outcome State Fault Refusal :=
  .next (s.writeGrpCtrl g w.toNat src)

/-! ## Instances -/

/-- A field of the descriptor (R484). -/
def State.dw (s : State) (p g n lo w : Nat) : Nat := bitsOf (s.partWord p (g + 8 * n)) lo w

/-- Bytes of a chunk of `cap` elements: a header line and the slots (R485); as record blocks, the lines that WCAP
budgets (R495). -/
def chunkBytes (dfmt cap : Nat) (exact records : Bool) (wcap : Nat) : Nat :=
  let n := if exact then roundUp cap 32 else cap
  if records then 64 + n / 32 * (1 + 4 * wcap) * 64 else 64 + roundUp (ceilDiv (n * fmtBits dfmt) 8) 64

/-- The bad cases of an extent (R487): alignment, SPACE, and the partition under R391. -/
def State.extentBad (s : State) (p g n align : Nat) : Bool :=
  formBad g || spaceOf g != 2 || g % align != 0 || stackedOut (s.blockCount (some p)) g n || s.foreign (some p) g

/-- COLL_BAD (R487). -/
def State.collBad (s : State) (p g : Nat) : Bool :=
  let f := s.dw p g
  let op := f 0 0 4
  let combine := f 0 4 2
  let rkind := f 0 6 2
  let dfmt := f 0 8 4
  let wcap := f 2 16 7
  let cap := f 4 0 40
  let grp := f 0 16 8
  let t := s.tileCount grp
  let hall := s.membership grp (f 1 0 56)
  let axes := s.hf (groupPage grp) F.GRP_CTRL_AXES
  let m := (s.memberEngines axes hall.1 hall.2).length * t
  let reserved := 6 ≤ op || combine == 3 || rkind == 3 || 12 ≤ dfmt || 4 ≤ f 0 12 3 || f 1 56 8 != 0 || f 2 0 16 == 0 ||
    f 2 31 33 != 0 || f 3 40 24 != 0 || f 4 40 24 != 0 || f 5 32 32 != 0 ||
    (List.range 7).any (fun k => s.partWord p (g + 8 * (9 + k)) != 0)
  let barrier := f 0 4 12 != 0 || f 2 16 15 != 0 || f 3 0 64 != 0 || f 4 0 64 != 0 || f 5 0 64 != 0 || f 6 0 64 != 0 ||
    f 7 0 64 != 0
  let exactOk := [0, 1, 2, 3, 4, 5, 8, 10].contains dfmt
  let reduce := if rkind = 0 then
      (combine == 0 && (wcap == 0 || 67 < wcap || !exactOk)) || (combine == 1 && dfmt != 1) || (combine == 2 && dfmt != 3) ||
        (combine != 0 && bitOf (f 0 15 1) 0)
    else combine != 0 || wcap != 0 || f 0 15 1 != 0 || dfmt == 7 || dfmt == 11
  let other := combine != 0 || rkind != 0 || f 0 12 3 != 0 || f 0 15 1 != 0 || wcap != 0 || dfmt == 11 ||
    (op == 4 && m ≤ f 5 0 32)
  let exact := op < 2 && combine == 0 && rkind == 0
  let size := chunkBytes dfmt cap exact false wcap
  let ssize := chunkBytes dfmt cap exact (f 0 15 1 == 1) wcap
  let srcN := if op = 1 ∨ op = 3 then m * ssize else ssize
  let me := (List.range 4).foldl (fun n a => n + s.coord a * 2 ^ (5 * a)) 0
  let rootHere := ((s.memberEngines axes hall.1 hall.2).drop (f 5 0 32 / t)).head? == some me
  let dstN := if op = 2 ∨ op = 3 then m * size else size
  reserved || s.extentBad p (f 8 0 64) (8 * t) 8 ||
    (if op = 5 then barrier
     else (if op < 2 then reduce else other) || cap == 0 || ((op != 4 || rootHere) && s.extentBad p (f 6 0 64) srcN 64) || s.extentBad p (f 7 0 64) dstN 64)

/-- The decision of R488: 0 accepts. -/
def State.collJudge (s : State) (p g : Nat) : Nat :=
  let grp := s.dw p g 0 16 8
  let gp := groupPage grp
  let start := s.dw p g 1 0 56
  let pend := s.changes.any (fun x => x.1 == grp && x.2.1 * 4096 ≤ start)
  let epoch := (s.hf gp F.GRP_STATUS_EPOCH + b2n pend) % 65536
  let m := s.membership grp start
  let me := (List.range 4).foldl (fun n a => n + s.coord a * 2 ^ (5 * a)) 0
  let lines := [0, 1].map (fun k => s.canon (some p) 0 (g + 64 * k) % 2 ^ 48)
  if lines.any (fun a => s.memPoison.contains a) then 2
  else if lines.any (fun a => s.memUE.contains a) then 1
  else if s.collBad p g then 23
  else if s.hf gp F.GRP_CTRL_VALID = 0 ∨ s.hf gp F.GRP_CTRL_PART ≠ p ∨ s.dw p g 0 24 16 ≠ epoch then 20
  else if !s.isMember (s.hf gp F.GRP_CTRL_AXES) m.1 m.2 me then 21
  else if s.dw p g 0 40 24 ≠ s.hf gp F.GRP_STATUS_NEXT_CSEQ ∨ start < s.windows.get (fun _ => 0) grp ∨ start ≤ s.beat then 22
  else 0

/-- A COLL command starts (R484, R488): the instance is opened or refused, NEXT_CSEQ advances, and an accepted instance's
report area is zero-filled. -/
def State.startColl (s : State) (c q g : Nat) : State :=
  let p := s.cf c F.CTX_CFG_PART
  let code := s.collJudge p g
  let grp := s.dw p g 0 16 8
  let gp := groupPage grp
  let cseq := s.dw p g 0 40 24
  let start := s.dw p g 1 0 56
  let beats := s.dw p g 2 0 16
  let t := s.tileCount grp
  let report := s.dw p g 8 0 64
  let s := s.readLines p g 128
  let own := s.hf gp F.GRP_CTRL_VALID == 1 && s.hf gp F.GRP_CTRL_PART == p && code != 1 && code != 2
  let s := if own ∧ cseq = s.hf gp F.GRP_STATUS_NEXT_CSEQ then s.setHf gp F.GRP_STATUS_NEXT_CSEQ (cseq + 1) else s
  let s := if code ≠ 0 then s
    else
      let s := { s with windows := s.windows.set (fun _ => 0) grp (start + beats) }
      (List.range t).foldl (fun (s : State) k => s.writeMem (s.canon (some p) 0 (report + 8 * k) % 2 ^ 48) 8 0) s
  let i : Coll := { group := grp, cseq := cseq, ctx := c, queue := q, refused := code, start := start, beats := beats,
                    report := report, tiles := t, part := p, cut := false }
  ({ s with colls := s.colls ++ [i] } : State).onQueue c q (fun Q => { Q with phase := 2, started := s.owl.ns })

/-- The reports of an instance. -/
def State.reports (s : State) (i : Coll) : List Nat :=
  (List.range i.tiles).map (fun k => s.partWord i.part (i.report + 8 * k))

/-- The precedence of R490. -/
def collOrder : List Nat := [19, 18, 16, 1, 2, 6, 5, 3, 4, 17, 24]

/-- STATUS, FLAGS, DROPPED and SPILL of an instance (R490). -/
def State.collResult (s : State) (i : Coll) : Nat × Nat × Nat × Nat :=
  if i.refused ≠ 0 then (i.refused, 0, 0, 0)
  else
    let rs := s.reports i
    let dropped := rs.foldl (fun n r => n + bitsOf r 12 20) 0
    let codes := rs.map (fun r => bitsOf r 1 6) ++ (if i.cut then [19] else []) ++ (if dropped ≠ 0 then [24] else [])
    let codes := codes.filter (fun x => x != 24 || dropped != 0)
    ((collOrder.find? (fun c => codes.contains c)).getD 0, rs.foldl (fun n r => Nat.lor n (bitsOf r 7 5)) 0, dropped,
      rs.foldl (fun n r => n + bitsOf r 32 20) 0)

/-- An instance ends with a result: its command ends, and its number counts as posted. -/
def State.endColl (s : State) (i : Coll) (r : Nat × Nat × Nat × Nat) : State :=
  let s := { s with colls := s.colls.filter (fun x => x != i) }
  let s := if i.refused = 22 ∧ s.collPosted i.group i.cseq then s
    else { s with posted := s.posted.set (fun _ => 0) i.group ((i.cseq + 1) % 2 ^ 24) }
  let s := (s.onPart i.part (fun P => { P with collsDone := P.collsDone + 1 })).endCmd i.ctx i.queue r.1 r.2.1 r.2.2.1 r.2.2.2
  s.peerEvents

/-- Is an instance the first of its group that has not been posted (R490)? -/
def State.collFirst (s : State) (i : Coll) : Bool := (s.colls.find? (fun x => x.group == i.group)) == some i

/-- COLL_COMPLETION (R490): once every report reads DONE and the earlier instances of the group have completed, and the
completion ring has room. -/
def execCollCompletion (c : CtxIx) (q : QueueIx) (s : State) : Host.Outcome State Fault Refusal :=
  .next (match s.colls.find? (fun i => i.ctx == c.val && i.queue == q.val) with
    | none => s
    | some i =>
      if s.collFirst i ∧ (i.refused ≠ 0 ∨ (s.reports i).all (fun r => bitOf r 0)) then
        if s.ringRoom c q then (s.endColl i (s.collResult i)).postEntry c q
        else s.setHf (queuePage c q) F.CQ_PTR_FULL 1
      else s)

/-! ## Membership changes -/

/-- GRP_CHG.GO (R498): the staged change becomes pending, or it is refused. -/
def State.submitChange (s : State) (g src : Nat) : State :=
  let gp := groupPage g
  let valid := s.hf gp F.GRP_CTRL_VALID == 1
  let er := s.ef F.GRP_CHG_AT_ROUND
  let w := fun a => s.hostWord a
  if !valid ∨ s.hf gp F.GRP_STATUS_PEND = 1 ∨ er < s.round + 2 ∨
      hallBad (s.hf gp F.GRP_CTRL_AXES) (w F.GRP_STAGE_HALL_X_LO.reg).toNat then
    let s := if valid then s.setHf gp F.GRP_STATUS_CHG_REFUSED 1 else s
    s.hostReject F.GRP_CHG_GO.reg src
  else
    ({ s with changes := s.changes ++ [(g, er, [w 0x328, w 0x330, w 0x338, w 0x340])] } : State).setHf gp F.GRP_STATUS_PEND 1

/-- GROUP_CHANGE_SUBMIT. -/
def execGroupChangeSubmit (g : GroupIx) (src : Fin 4) (s : State) : Host.Outcome State Fault Refusal :=
  .next (s.submitChange g src)

/-- The change of a group takes effect at the start of round ER (R499). A change that removes no engine cuts nothing and closes no
flow (R500), and then frees no charge. -/
def State.applyChange (s : State) (g er : Nat) (ws : List Word) : State :=
  let gp := groupPage g
  let axes := s.hf gp F.GRP_CTRL_AXES
  let old := s.memberEngines axes (s.gw g 8) (exclusions [s.gw g 0x18, s.gw g 0x20, s.gw g 0x28])
  let new := fun x => s.isMember axes (ws.headD 0).toNat (exclusions (ws.tail.map (·.toNat))) x
  let removes := old.any (fun x => !new x)
  let epoch := s.hf gp F.GRP_STATUS_EPOCH
  let s := { s with changes := s.changes.filter (fun x => x.1 != g),
                    colls := s.colls.map (fun (i : Coll) =>
                      if i.group = g ∧ i.refused = 0 ∧ i.start < er * 4096 ∧ er * 4096 < i.start + i.beats ∧ removes then
                        { i with cut := true } else i) }
  let keys := if !removes then [] else s.tables.flatMap (fun tb => (tb.entries.filter (fun x =>
    tb.installed && x.kind == 3 && x.gtag && x.group == g && x.epoch == epoch)).map (fun x => flowKey x.link x.flow))
  let s := keys.foldl (fun (s : State) k => s.onFlow k (fun f => { f with closed := true, lost := true })) s
  let s := s.onTables (fun tb => tb.installed) (fun tb => { tb with entries := tb.entries.map (fun x =>
    if removes ∧ x.gtag ∧ x.group = g ∧ x.epoch = epoch then { x with freed := true } else x) })
  let s := (s.setHf gp F.GRP_STATUS_PEND 0).setHf gp F.GRP_STATUS_EPOCH (epoch + 1)
  (ws.zip [8, 0x18, 0x20, 0x28]).foldl (fun (s : State) x => s.setHost (gp + x.2) x.1) s

/-- MEMBERSHIP_CHANGE. -/
def execMembershipChange (g : GroupIx) (s : State) : Host.Outcome State Fault Refusal :=
  .next (match s.changes.find? (fun x => x.1 == g.val) with
    | some (_, er, ws) => if er ≤ s.round then s.applyChange g er ws else s
    | none => s)

end Sys2Proof.Machine
end

