-- ==== Sys2Proof/Machine/Prov.lean ====
section
/-!
DEFINITION. Provenance (R594 to R601): SHA-256, the map image and its digest, PROV, and the digest cache.
-/
namespace Sys2Proof.Machine

/-! ## SHA-256 (FIPS 180-4) -/

/-- The round constants. -/
def shaK : List (BitVec 32) :=
  [0x428A2F98, 0x71374491, 0xB5C0FBCF, 0xE9B5DBA5, 0x3956C25B, 0x59F111F1, 0x923F82A4, 0xAB1C5ED5,
   0xD807AA98, 0x12835B01, 0x243185BE, 0x550C7DC3, 0x72BE5D74, 0x80DEB1FE, 0x9BDC06A7, 0xC19BF174,
   0xE49B69C1, 0xEFBE4786, 0x0FC19DC6, 0x240CA1CC, 0x2DE92C6F, 0x4A7484AA, 0x5CB0A9DC, 0x76F988DA,
   0x983E5152, 0xA831C66D, 0xB00327C8, 0xBF597FC7, 0xC6E00BF3, 0xD5A79147, 0x06CA6351, 0x14292967,
   0x27B70A85, 0x2E1B2138, 0x4D2C6DFC, 0x53380D13, 0x650A7354, 0x766A0ABB, 0x81C2C92E, 0x92722C85,
   0xA2BFE8A1, 0xA81A664B, 0xC24B8B70, 0xC76C51A3, 0xD192E819, 0xD6990624, 0xF40E3585, 0x106AA070,
   0x19A4C116, 0x1E376C08, 0x2748774C, 0x34B0BCB5, 0x391C0CB3, 0x4ED8AA4A, 0x5B9CCA4F, 0x682E6FF3,
   0x748F82EE, 0x78A5636F, 0x84C87814, 0x8CC70208, 0x90BEFFFA, 0xA4506CEB, 0xBEF9A3F7, 0xC67178F2]

/-- The initial hash value. -/
def shaH : List (BitVec 32) := [0x6A09E667, 0xBB67AE85, 0x3C6EF372, 0xA54FF53A, 0x510E527F, 0x9B05688C, 0x1F83D9AB, 0x5BE0CD19]

/-- The message schedule, newest word first: `n` further words. -/
def shaSchedule (ws : List (BitVec 32)) : Nat → List (BitVec 32)
  | 0 => ws
  | n + 1 =>
    let at_ := fun k => ws.getD k 0
    let s0 := (at_ 14).rotateRight 7 ^^^ (at_ 14).rotateRight 18 ^^^ at_ 14 >>> 3
    let s1 := (at_ 1).rotateRight 17 ^^^ (at_ 1).rotateRight 19 ^^^ at_ 1 >>> 10
    shaSchedule ((at_ 15 + s0 + at_ 6 + s1) :: ws) n

/-- One round: the eight working variables a to h. -/
def shaRound (v : List (BitVec 32)) (kw : BitVec 32 × BitVec 32) : List (BitVec 32) :=
  let x := fun k => v.getD k 0
  let s1 := (x 4).rotateRight 6 ^^^ (x 4).rotateRight 11 ^^^ (x 4).rotateRight 25
  let ch := (x 4 &&& x 5) ^^^ (~~~(x 4) &&& x 6)
  let t1 := x 7 + s1 + ch + kw.1 + kw.2
  let s0 := (x 0).rotateRight 2 ^^^ (x 0).rotateRight 13 ^^^ (x 0).rotateRight 22
  let maj := (x 0 &&& x 1) ^^^ (x 0 &&& x 2) ^^^ (x 1 &&& x 2)
  [t1 + (s0 + maj), x 0, x 1, x 2, x 3 + t1, x 4, x 5, x 6]

/-- A big-endian word of four bytes. -/
def beWord (b : List Nat) : BitVec 32 := BitVec.ofNat 32 (b.foldl (fun n x => n * 256 + x) 0)

/-- One block of 64 bytes. -/
def shaBlock (h : List (BitVec 32)) (b : List Nat) : List (BitVec 32) :=
  let ws := (List.range 16).map (fun k => beWord ((b.drop (4 * k)).take 4))
  let sched := (shaSchedule ws.reverse 48).reverse
  (h.zip ((shaK.zip sched).foldl shaRound h)).map (fun p => p.1 + p.2)

/-- The blocks of a padded message. -/
def shaBlocks (m : List Nat) : Nat → List (BitVec 32) → List (BitVec 32)
  | 0, h => h
  | n + 1, h => shaBlocks (m.drop 64) n (shaBlock h (m.take 64))

/-- `n` bytes of a number, the most significant first. -/
def beBytes (x : Nat) : Nat → List Nat
  | 0 => []
  | n + 1 => x / 2 ^ (8 * n) % 256 :: beBytes x n

/-- `n` bytes of a number, the least significant first. -/
def leBytes (x : Nat) : Nat → List Nat
  | 0 => []
  | n + 1 => x % 256 :: leBytes (x / 256) n

/-- Bytes as a number, the first least significant. -/
def ofLeBytes (b : List Nat) : Nat := b.foldr (fun x n => x + 256 * n) 0

/-- SHA-256 of a message of bytes: 32 bytes. -/
def sha256 (m : List Nat) : List Nat :=
  let z := (119 - m.length % 64) % 64
  let padded := m ++ 0x80 :: (List.replicate z 0 ++ beBytes (8 * m.length) 8)
  (shaBlocks padded (padded.length / 64) shaH).flatMap (fun w => beBytes w.toNat 4)

/-! ## The map image -/

/-- The map image (R50): 43,264 bytes. -/
def State.mapImage (s : State) : List Nat :=
  leBytes 0x314D5544 4 ++ leBytes 1 2 ++ leBytes 0 2 ++ leBytes (s.ef F.DUM_INFO_GENERATION) 4 ++ leBytes 10800 4 ++
    leBytes Config.serial.toNat 16 ++ List.replicate 32 0 ++
    (List.range 10800).flatMap (fun t => leBytes (s.mapEntry t % 2 ^ 32) 4)

/-- DUM_DIGEST (R51). -/
def State.mapDigest (s : State) : List Nat := sha256 s.mapImage

/-! ## PROV -/

/-- `n` bytes of a partition's memory. -/
def State.partBytes (s : State) (p g n : Nat) : List Nat :=
  (List.range n).map (fun k => (memByte s.mem (s.canon (some p) 0 (g + k) % 2 ^ 48)).toNat)

/-- The first line of a range that cannot be read: its ECODE (R398), or 0. -/
def State.rangeError (s : State) (p g n : Nat) : Nat :=
  ((List.range (ceilDiv (g % 64 + n) 64)).findSome? (fun k =>
    let a := s.canon (some p) 0 (g / 64 * 64 + 64 * k) % 2 ^ 48
    if s.memPoison.contains a then some 2 else if s.memUE.contains a then some 1 else none)).getD 0

/-- The component digest of an extent (R596). -/
def componentDigest (bytes : List Nat) : List Nat :=
  let n := bytes.length
  sha256 (leBytes n 8 ++ (List.range (ceilDiv n (2 ^ 21))).flatMap (fun i => sha256 ((bytes.drop (i * 2 ^ 21)).take (2 ^ 21))))

/-- Is a descriptor malformed (R595, order 2)? -/
def State.provBad (s : State) (p g : Nat) : Bool :=
  let w := fun n => s.partWord p (g + 8 * n)
  let count := bitsOf (w 0) 48 7
  let entry := fun k n => w (8 + 2 * k + n)
  bitsOf (w 0) 0 48 != 0x56525044 + 2 ^ 32 || count == 0 || 64 < count || bitsOf (w 0) 55 9 != 0 ||
    (List.range 5).any (fun n => w (3 + n) != 0) || w 1 % 64 != 0 ||
    !((spaceOf (w 1) == 2 && viewOf (w 1) == 1 && !formBad (w 1)) || spaceOf (w 1) == 3) ||
    (spaceOf (w 1) == 2 && stackedOut (s.blockCount (some p)) (w 1) 256) ||
    (List.range count).any (fun k =>
      let a := entry k 0
      let n := bitsOf (entry k 1) 0 40
      spaceOf a != 2 || viewOf a != 1 || formBad a || a % 64 != 0 || n == 0 || bitsOf (entry k 1) 43 21 != 0 ||
        stackedOut (s.blockCount (some p)) a n)

/-- Do the 256 bytes at DST overlap an extent (R595, order 3)? -/
def State.provOverlap (s : State) (p g : Nat) : Bool :=
  let w := fun n => s.partWord p (g + 8 * n)
  spaceOf (w 1) == 2 && (List.range (bitsOf (w 0) 48 7)).any (fun k =>
    overlaps (w 1) 256 (w (8 + 2 * k)) (bitsOf (w (9 + 2 * k)) 0 40))

/-- Set the cache of a partition, and PROV_CACHE.VALID with it. -/
def State.setCache (s : State) (p : Nat) (l : List PCache) : State :=
  (s.onPart p (fun P => { P with cache := l })).setPf p F.PROV_CACHE_VALID l.length

/-- Place an entry in the cache as the most recent (R599). -/
def cachePlace (l : List PCache) (e : PCache) : List PCache :=
  let l := l.filter (fun x => !(x.addr == e.addr && x.len == e.len))
  (if 256 ≤ l.length then l.tail else l) ++ [e]

/-- What a PROV has gathered: its components, bytes read, bytes served, and an ECODE. -/
structure ProvAcc where
  comps : List ProvComp
  read : Nat
  hit : Nat
  code : Nat
  deriving DecidableEq, Repr

/-- One entry of a descriptor (R598, R599): served from the cache, or read and hashed. -/
def State.provEntry (s : State) (p g : Nat) (a : ProvAcc) (k : Nat) : State × ProvAcc :=
  if a.code ≠ 0 then (s, a)
  else
    let addr := s.partWord p (g + 64 + 16 * k)
    let w1 := s.partWord p (g + 72 + 16 * k)
    let n := bitsOf w1 0 40
    let cls := bitsOf w1 40 2
    let cache := s.pf p F.PROV_CACHE_EN == 1 && !bitOf w1 42
    match (s.part p).cache.find? (fun e => cache && e.addr == addr % 2 ^ 45 && e.len == n) with
    | some e =>
      let s := (s.setCache p (cachePlace (s.part p).cache e)).satHf (partPage p) F.PROV_CACHE_HITS 1
      (s, { a with comps := a.comps ++ [⟨cls, e.digest, 0, 0, false⟩], hit := a.hit + n })
    | none =>
      let code := s.rangeError p addr n
      let s := s.readLines p addr n
      if code ≠ 0 then (s, { a with code := code })
      else
        let d := componentDigest (s.partBytes p addr n)
        let s := if cache then s.setCache p (cachePlace (s.part p).cache ⟨addr % 2 ^ 45, n, ofLeBytes d⟩) else s
        (s, { a with comps := a.comps ++ [⟨cls, ofLeBytes d, addr % 2 ^ 45, n, false⟩], read := a.read + n })

/-- A class digest (R596). -/
def classDigest (comps : List (Nat × List Nat)) (c : Nat) : List Nat :=
  let l := comps.filter (fun x => x.1 == c)
  if l = [] then List.replicate 32 0 else sha256 (l.flatMap (·.2))

/-- Bytes 0x00 to 0x3F of the record (R597), taken at the tick at which the command starts. -/
def State.provHead (s : State) (p : Nat) : List Nat :=
  leBytes 0x56525052 4 ++ leBytes 1 2 ++ leBytes 0 2 ++ leBytes ((s.hostWord F.FW_VERSION_BUILD.reg).toNat % 2 ^ 32) 4 ++
    [s.ef F.ENGINE_INFO_GRADE, s.ef F.ENGINE_INFO_STEPPING, s.plevel, s.pf p F.PART_CFG_STRICT] ++ s.mapDigest ++
    leBytes (s.hostWord (partPage p)).toNat 8 ++ List.replicate 8 0

/-- The digest of a component: that of the bytes read, and for a torn one a free value, since no rule says which of its bytes
were read before the write (R598; log 49). -/
def State.compDigest (s : State) (k : Nat) (c : ProvComp) : List Nat :=
  if c.torn then (List.range 4).flatMap (fun j => leBytes (Config.freeWord (s.free + 4 * k + j)).toNat 8)
  else leBytes c.digest 32

/-- The provenance record (R597). -/
def State.provRecord (s : State) (r : ProvRun) : List Nat :=
  let hashed := leBytes r.head 64 ++ (List.range 4).flatMap (classDigest ((r.comps.zipIdx).map (fun x => (x.1.cls, s.compDigest x.2 x.1))))
  hashed ++ sha256 hashed ++ leBytes r.user 8 ++ leBytes s.owl.ns 8 ++
    leBytes (r.read % 2 ^ 40 + b2n (r.comps.any (·.torn)) * 2 ^ 40) 8 ++ leBytes (r.hit % 2 ^ 40) 8

/-- A PROV command starts (R594 to R599): it ends with an ECODE, or its extents are read and it runs until its record is formed. -/
def State.provStart (s : State) (p g key : Nat) : State × Nat :=
  let first := s.rangeError p g 64
  let count := bitsOf (s.partWord p g) 48 7
  let size := if count ≤ 64 then 64 + 16 * count else 64
  let all := s.rangeError p g size
  let bad := s.provBad p g || s.provOverlap p g
  let s := s.readLines p g (if first ≠ 0 then 64 else size)
  if first ≠ 0 then (s, first)
  else if all ≠ 0 then (s, all)
  else if bad then (s, 3)
  else
    let (s', a) := (List.range count).foldl (fun (x : State × ProvAcc) k => x.1.provEntry p g x.2 k) (s, ⟨[], 0, 0, 0⟩)
    if a.code ≠ 0 then (s', a.code)
    else
      let run : ProvRun := { key := key, dst := s.partWord p (g + 8), user := s.partWord p (g + 16), head := ofLeBytes (s.provHead p),
                             comps := a.comps, read := a.read, hit := a.hit }
      (s'.onPart p (fun P => { P with provs := P.provs ++ [run] }), 0)

/-- The record of a PROV command that runs is formed and written (R597): its status. -/
def State.provEnd (s : State) (p : Nat) (r : ProvRun) : State × Nat :=
  let b := s.provRecord r
  let s := { s with free := s.free + 4 * r.comps.length }
  if spaceOf r.dst = 3 then
    if s.linkUp then (s.hostWrite (r.dst % 2 ^ 60) 256 (ofLeBytes b), 0) else (s, 3)
  else
    ((List.range 4).foldl (fun (s : State) k =>
      s.writeLine (s.canon (some p) 0 (r.dst + 64 * k) % 2 ^ 48) (ofLeBytes ((b.drop (64 * k)).take 64))) s, 0)

/-- PROV_CACHE.CLEAR, or EN written 0 (R600). -/
def State.provClear (s : State) (p : Nat) : State := s.setCache p []

/-- PROV_CACHE_CLEAR (R601). -/
def execProvCacheClear (p : PartIx) (s : State) : Host.Outcome State Fault Refusal := .next (s.provClear p)

end Sys2Proof.Machine
end

