-- ==== Sys2Proof/Machine/Sleep.lean ====
section
/-!
DEFINITION. Shared operations on a tile as the clock of its tile stops and starts (R99 to R102, R607 to R617), tile reset
(R572), the saved flags (R574, R696), and pending asynchronous events (R143).
-/
namespace Sys2Proof.Machine

/-! ## The tile clock -/

/-- The clock of a tile stops at a hall tick; the total of nominal cycles at that tick is kept with it. -/
def Tile.stopClock (T : Tile) (ns : Nat) : Tile := { T with sleepFrom := some (ns, T.nominal ns) }

/-- The clock of a tile starts again (R99, R102): the missed nominal cycles and the length of the sleep are recorded. -/
def Tile.startClock (T : Tile) (ns kind : Nat) : Tile :=
  match T.sleepFrom with
  | none => T
  | some (from_, total) =>
    let T := T.addFld F.TIME_SLEEP_GAP_GAP (T.nominal ns - total)
    { (T.setFld F.TIME_SLEEP_LAST_LAST (satTo 40 (ns - from_))).setFld F.TIME_SLEEP_LAST_KIND kind with sleepFrom := none }

/-- TIME_SLEEP_GAP (R99): while the clock is stopped it counts the cycles that are missing. -/
def Tile.sleepGap (T : Tile) (ns : Nat) : Nat :=
  let gap := match T.sleepFrom with
    | some (_, n) => T.nominal ns - n
    | none => 0
  (T.fld F.TIME_SLEEP_GAP_GAP + gap) % 2 ^ 64

/-- CYCLE_COUNT (R101): the total of nominal cycles less those lost to stretching and to sleep. -/
def Tile.cycleCount (T : Tile) (ns : Nat) (late : Bool) : Nat :=
  let total := match T.sleepFrom with
    | some (_, n) => n
    | none => (T.ctlWord F.CLK_EPOCH_CYC_CYC.reg).toNat + T.cycleIn ns late
  (total + 2 ^ 64 + 2 ^ 64 - T.fld F.STRETCH_CYCLES_LOST - T.fld F.TIME_SLEEP_GAP_GAP) % 2 ^ 64

/-- The first beat at or after a hall tick: a tile clock starts at a beat boundary (R100). -/
def beatUp (ns : Nat) : Nat := ceilDiv ns 256

/-- The tile clock starts after Hibernate or a tile reset (R100): CLK_EPOCH is loaded, the counters are 0, and the clock waits
for the beat boundary. -/
def Tile.startEpoch (T : Tile) (ns plevel : Nat) : Tile :=
  let T := (T.setFld F.CLK_EPOCH_BEAT (beatUp ns)).setFld F.CLK_EPOCH_MULT (plMult plevel)
  let T := T.setCtl F.CLK_EPOCH_CYC_CYC.reg 0
  { (T.setCtl F.STRETCH_CYCLES_LOST.reg 0).setCtl F.TIME_SLEEP_GAP_GAP.reg 0 with clockHold := ns % 256 != 0 }

/-! ## Waking -/

/-- WAKE_SOURCE (R633). -/
def Tile.wakeSource (T : Tile) (source state cause unit : Nat) : Tile :=
  (((T.setFld F.WAKE_SOURCE_SOURCE source).setFld F.WAKE_SOURCE_STATE state).setFld F.WAKE_SOURCE_CAUSE cause).setFld
    F.WAKE_SOURCE_UNIT unit

/-- A barrier instruction completes: its slot is retired and dispatch goes on behind it (R104). -/
def Tile.barrierDone (T : Tile) : Tile :=
  ({ T with barrier := .none, dozing := false }.slot (retFld 1) 1).goto T.pc4

/-- A `wait` that stands completes. -/
def Tile.waitDone (T : Tile) : Tile := if T.barrier = .wait then T.barrierDone else T

/-- A wake source reaches a tile that dozes, or that waits for Doze (R609, R610). -/
def Tile.dozeWake (T : Tile) (ns source : Nat) : Tile :=
  match T.power with
  | .doze => ({ (T.startClock ns 1).wakeSource source 1 0 0 with power := .on } : Tile).waitDone
  | .on => if T.dozing then T.waitDone else T
  | _ => T

/-- Control registers that Den keeps (R614). -/
def denKeeps (a : Nat) : Bool :=
  a ≤ 2 || a == 0x3FF || (0x408 ≤ a && a ≤ 0x40D) || a == 0x410 || a == 0x411 || (0x440 ≤ a && a ≤ 0x462) ||
    (0x800 ≤ a && a ≤ 0x806) || a == 0x810 || (0x820 ≤ a && a ≤ 0x824) || (0xC2 ≤ a && a ≤ 0xC4)

/-- The bank of a local address (R113): eight banks of 384 KiB. -/
def bankOf (a : Nat) : Nat := a / 0x60000

/-- Is a bank a sett bank (R614, R631)? -/
def Tile.sett (T : Tile) (b : Nat) : Bool := b == 0 || bitOf (T.fld F.SLEEPCFG_SETT) (b - 1)

/-- What is left of a tile whose logic has been off in Den (R203, R282, R307, R322, R348, R614): the kept registers, the
sett banks, s and PC, tags' generations. -/
def Tile.afterDen (T : Tile) : Tile :=
  { T with ctl := T.ctl.keep denKeeps, v := [], k := [], d := [], store := T.store.keep (fun a => T.sett (bankOf a)),
           ue := T.ue.filter (fun a => T.sett (bankOf a)), lacc := [], mLast := none, root0 := Root.reset,
           root1 := Root.reset, cPre := none, checkedEpi := none, checkedTp := none, trapSlot := none, run := none }

/-- The tick at which the clock of a tile restarts in a wake from Den that started at a tick (R617, step 2): a free value, at
a 4-tick boundary and at most 1,900 ticks after the start, that is reached by now. -/
def denRestart (start ns pick : Nat) : Nat := (start + pick % (min (ns - start) 1900 + 1)) / 4 * 4

/-- The wake from Den (R617): the clock restarts, the registers are restored and the `wait` completes. The pads stay held. -/
def Tile.denWake (T : Tile) (ns source pick : Nat) : Tile :=
  if T.power = .den then
    let stop := (T.sleepFrom.map (·.1)).getD 0
    let T := ((T.afterDen.startClock (max stop (denRestart (T.waking.getD ns) ns pick)) 2).wakeSource source 2 0 0)
    { T with power := .on, waking := none }.waitDone
  else T

/-- A unit refuses in Den prepare (R613): the stopped units restart, and the `wait` completes. -/
def Tile.denRefuse (T : Tile) (cause : Nat) : Tile :=
  match T.den with
  | some d => if d.unit < 4 then { T.wakeSource 9 2 cause d.unit with den := none }.waitDone else T
  | none => T

/-- An asynchronous event (source 4) or a debug request (source 5) reaches a tile that sleeps or prepares to (R609, R612,
R616): from Den the wake starts. -/
def Tile.arrive (T : Tile) (ns source : Nat) : Tile :=
  let T := (T.denRefuse (source - 1)).dozeWake ns source
  if T.power = .den then { T with waking := some (T.waking.getD ns) } else T

/-- PAD_RELEASE.REL releases the pads that a tile's domain holds (R628, R635). -/
def Tile.releasePads (T : Tile) : Tile := { (T.setFld F.PAD_RELEASE_HELD 0) with padsHeld := false }

/-! ## Hibernate (R620 to R629) -/

/-- The tiles of a block are held from dispatching, or released (R620, R621). -/
def State.holdBlock (s : State) (b : Nat) (h : Bool) : State :=
  (tilesOfBlock b).foldl (fun (s : State) t => s.onTile t (fun T => { T with hibHold := h })) s

/-- The partition's WAKE_SOURCE (R633). -/
def State.partWake (s : State) (p source state cause unit : Nat) : State :=
  (((s.setPf p F.PART_WAKE_SOURCE_SOURCE source).setPf p F.PART_WAKE_SOURCE_STATE state).setPf p
    F.PART_WAKE_SOURCE_CAUSE cause).setPf p F.PART_WAKE_SOURCE_UNIT unit

/-- An entry into Hibernate aborts (R621): the stopped blocks restart and the tiles are released. -/
def State.hibAbort (s : State) (p source cause unit : Nat) : State :=
  let s := (s.blocksOf p).foldl (fun (s : State) b => (s.holdBlock b false).onBlock b (fun B => { B with stopped := false })) s
  let s := ((s.setPf p F.HIB_STATUS_PHASE 0).setPf p F.HIB_STATUS_ABORTED 1).partWake p source 3 cause unit
  (s.onPart p (fun P => { P with stopped := 0 })).irq (irqPart p)

/-- The wake of a hibernating partition starts, from a source at a tick (R625). -/
def State.hibStartAt (s : State) (p source at_ : Nat) : State :=
  (s.setPf p F.HIB_STATUS_PHASE 3).onPart p (fun P => { P with wake := some (s.owl.ns, source, at_) })

/-- The wake of a hibernating partition starts at its source (R625). -/
def State.hibStart (s : State) (p source : Nat) : State := s.hibStartAt p source s.owl.ns

/-- A reset step, WAKE or management command meets Hibernate (R629): an entry aborts, and a hibernating partition wakes. -/
def State.hibMeet (s : State) (p source : Nat) : State :=
  match s.pf p F.HIB_STATUS_PHASE with
  | 1 => s.hibAbort p source 0 0
  | 2 => s.hibStart p source
  | _ => s

/-! ## Tile reset -/

/-- A tile at its Reset values, with what is part data and not the tile's state: the mark and its block's vacancy (R41, R583). -/
def Tile.unitKept (T : Tile) : Tile := { Tile.reset with marked := T.marked, out := T.out }

/-- A tile after a tile reset (R572, R662): firmware in handler mode with OPSTATE 1; the generations, the mark and the
count of resets are kept, and the clock starts with its counters at 0 (R100). -/
def Tile.resetTo (T : Tile) (ns plevel : Nat) : Tile :=
  { T.unitKept with gens := T.gens, resets := T.resets + 1 }.startEpoch ns plevel

/-- The `hold`s of a tile leave the homes at which they wait, and its reservation ends. -/
def Home.leave (t : Nat) (H : Home) : Home :=
  { H with waiting := H.waiting.filter (fun w => w.1 != t), holder := if H.holder = some t then none else H.holder,
           status := if H.holder = some t then 0 else H.status }

/-- Nothing of a tile is left at any home. -/
def State.leaveHomes (s : State) (t : Nat) : State :=
  let f := fun (h : NMap Home) => h.mapv homeDflt (fun _ H => H.leave t)
  { s with homes := f s.homes, tiles := s.tiles.mapv tileDflt (fun _ T => { T with homes := f T.homes }) }

/-- Holds that wait at the homes of a tile's own store return the value read and place nothing: the store is reset under
them. -/
def State.flushHomes (s : State) (t : Nat) : State :=
  (s.tile t).homes.foldl (fun (s : State) (e : Nat × Home) => e.2.waiting.foldl (fun (s : State) w =>
    match (s.tile w.1).req w.2 with
    | some r =>
      match r.pieces with
      | [x] => if r.answer = none then s.serveHold w.1 w.2 r x false else s
      | _ => s
    | none => s) s) s

/-- A tile reset (R572): its tags are answered and freed, its registers take their Reset values and the tile store is
zero-filled. Reservations that other tiles hold on its lines are broken. -/
def State.resetTile (s : State) (t : Nat) : State :=
  let s := (s.flushHomes t).leaveHomes t
  let s := { s with tiles := s.tiles.mapv tileDflt (fun k T =>
    if (s.tile t).homes.any (fun (h : Nat × Home) => h.2.holder == some k && h.2.status == 0) then T.breakResv 1 else T) }
  s.onTile t (fun T => T.resetTo s.owl.ns s.plevel)

end Sys2Proof.Machine
end

