-- ==== Sys2Proof/Machine/Cmd.lean ====
section
/-!
DEFINITION. The commands of the command queues (R377 to R379, R687 to R694): fetching, waiting on a peer event, starting,
RUN, DMA and the granules.
-/
namespace Sys2Proof.Machine

/-! ## Checks -/

/-- Words `n` on of a command must be 0 (R689). -/
def HostQ.zeroFrom (Q : HostQ) (n : Nat) : Bool := Q.cmd.toNat / 2 ^ (64 * n) == 0

/-- The peer event of a command cannot be named by its context, or W0 or W1 hold a reserved bit or value (R688, R692). -/
def State.headBad (s : State) (p : Nat) (Q : HostQ) : Bool :=
  let w := Q.word 1
  bitsOf (Q.word 0) 9 7 != 0 || bitsOf (Q.word 0) 32 32 != 0 || bitsOf w 20 12 != 0 ||
  match Q.pkind with
  | 0 => w != 0
  | 1 =>
    bitsOf w 8 12 == 0 || s.tables.any (fun tb => tb.part != p && tb.entries.any (fun x =>
      x.kind == 3 && x.link == bitsOf w 2 6 && x.flow == bitsOf w 8 12))
  | 2 =>
    let g := groupPage (bitsOf w 8 8)
    bitsOf w 2 6 != 0 || bitsOf w 16 4 != 0 || bitsOf w 56 8 != 0 ||
      (s.hf g F.GRP_CTRL_VALID == 1 && s.hf g F.GRP_CTRL_PART != p)
  | _ => true

/-- An address of the context's partition: SPACE 0x2, VIEW 1, a multiple of 64, `n` bytes inside the partition. -/
def State.viewBad (s : State) (p g n : Nat) : Bool := s.extentBad p g n 64 || viewOf g != 1

/-- An address of a DMA (R689): of the partition, or of the host as R682 checks it. -/
def State.dmaBad (s : State) (p c g n : Nat) (write : Bool) : Bool :=
  if spaceOf g = 3 then g % 64 != 0 || (s.hostCause true c g n write).isSome else s.viewBad p g n

/-! ## The rectangle of a RUN -/

/-- The tiles of a rectangle of logical columns and rows. -/
def rectTiles (iLo iN jLo jN : Nat) : List Nat :=
  (List.range jN).flatMap (fun j => (List.range iN).map (fun i => (jLo + j) * 120 + iLo + i))

/-- The tiles that a RUN names (R690). -/
def HostQ.rectangle (Q : HostQ) : List Nat :=
  let w := Q.word 5
  rectTiles (bitsOf w 0 7) (bitsOf w 7 7) (bitsOf w 14 7) (bitsOf w 21 7)

/-- BAD_CMD of a RUN (R690, R692). -/
def State.runBad (s : State) (p : Nat) (Q : HostQ) : Bool :=
  let len := bitsOf (Q.word 3) 0 22
  let load := bitsOf (Q.word 3) 24 22
  let w := Q.word 5
  bitsOf (Q.word 3) 22 2 != 0 || bitsOf (Q.word 3) 46 18 != 0 || bitsOf (Q.word 4) 22 42 != 0 || bitsOf w 28 36 != 0 ||
    bitsOf (Q.word 7) 22 42 != 0 || len % 64 != 0 || len == 0 || load % 64 != 0 || load < 0x10000 || storeEnd < load + len ||
    Q.word 4 % 4 != 0 || Q.word 7 % 4 != 0 || s.viewBad p (Q.word 2) len ||
    bitsOf w 7 7 == 0 || 120 < bitsOf w 0 7 + bitsOf w 7 7 || bitsOf w 21 7 == 0 || 90 < bitsOf w 14 7 + bitsOf w 21 7 ||
    Q.rectangle.any (fun t => s.ownerOfTile t != some p)

/-- Firmware places work of queue `q` of context `c` on a tile (R690): it wakes the tile, copies the image, loads the saved
flags, sets s1 to ARG and every other scalar register to 0, and enters user mode at ENTRY in OPSTATE 0. -/
def State.place (s : State) (c q t : Nat) (Q : HostQ) (image : List Byte) : State :=
  let s := s.onTile t (fun T =>
    let T := if T.power = .den then T.denWake s.owl.ns 4 0 else T.dozeWake s.owl.ns 4
    let T := if T.padsHeld then T.releasePads else T
    let T := (T.pokeBytes (bitsOf (Q.word 3) 24 22) image).setFld F.TILE_STATUS_CTX_ID c
    let T := (((T.setFld F.TILE_STATUS_OPSTATE 0).setFld F.TILE_STATUS_MODE 0).setFld F.TILE_STATUS_FROZEN 0).setFld
      F.EXC_CAUSE_DISCARD 0
    { { T with s := [], sWait := [], barrier := .none }.setS 1 (BitVec.ofNat 64 (Q.word 6)) with
      pc := BitVec.ofNat 64 (bitsOf (Q.word 4) 0 22), work := some (c, q), ending := false })
  s.loadFlags t c

/-! ## Granules (R522) -/

/-- The key of a granule. -/
def granKey (p g : Nat) : Nat := p * 2 ^ 24 + g

/-- One past the context that owns a granule, 0 for a free one. -/
def State.granOwner (s : State) (p g : Nat) : Nat := s.granules.get (fun _ => 0) (granKey p g)

/-- Set the owner of `n` granules from `g` on. -/
def State.setGranules (s : State) (p g n o : Nat) : State :=
  { s with granules := (List.range n).foldl (fun m k => m.set (fun _ => 0) (granKey p (g + k)) o) s.granules }

/-- The lowest run of `n` free granules, found among the places where a run may begin: 0 and behind each owned granule. -/
def State.freeRun (s : State) (p n : Nat) : Option Nat :=
  let owned := (s.granules.filter (fun (e : Nat × Nat) => e.1 / 2 ^ 24 == p)).map (fun (e : Nat × Nat) => e.1 % 2 ^ 24)
  let total := 12288 * s.blockCount (some p)
  (0 :: owned.map (· + 1)).find? (fun g => g + n ≤ total && !owned.any (fun o => g ≤ o && o < g + n))

/-- CTX_USE.MEM_USED and OVER_MEM (R523). -/
def State.setMemUsed (s : State) (c n : Nat) : State :=
  let quota := s.cf c F.CTX_QUOTA_MEM
  (s.setCf c F.CTX_USE_MEM_USED n).setCf c F.CTX_USE_OVER_MEM (b2n (quota < n))

/-- A released granule is written with zeros, in class W, before it is allocated again (R522). -/
def State.zeroGranule (s : State) (p g : Nat) : State :=
  (List.range 512).foldl (fun (s : State) k =>
    let a := s.interleave p (g * 2 ^ 21 + 4096 * k) % 2 ^ 48
    ((s.zeroMem a 4096).uncache a 4096).slotMem (blockOf a) 2 64) s

/-- Release `n` granules from `g` on. -/
def State.release_ (s : State) (c p g n : Nat) : State :=
  let s := s.setGranules p g n 0
  let s := (List.range n).foldl (fun (s : State) k => s.zeroGranule p (g + k)) s
  s.setMemUsed c (s.cf c F.CTX_USE_MEM_USED - n)

/-! ## Starting -/

/-- Is the command at the head of a queue ready to start? (R377, R555, R570, R687, R694) -/
def State.headReady (s : State) (c q : Nat) : Bool :=
  let p := s.cf c F.CTX_CFG_PART
  let Q := s.queue c q
  Q.phase == 1 && s.cf c F.CTX_CFG_VALID == 1 && s.pstate p == 2 && !s.fenced c &&
    (s.pf p F.RECOV_CTL_SOLO_EN == 0 || s.pf p F.RECOV_CTL_SOLO_CTX == c) && Q.waitFrom == none

/-- Does the head of another queue of the context wait for its peer event? The context then starts no other work but the alternate
work of R379 (R377, R378, R381). A head that has waited itself and resumed is not held. -/
def State.peerHeld (s : State) (c q : Nat) : Bool :=
  (s.queue c q).eventAt == none && (List.range 8).any (fun w =>
    let W := s.queue c w
    w != q && W.phase == 1 && W.waitFrom.isSome && W.eventAt == none)

/-- May the command at the head of a queue start by its own row? -/
def State.canStart (s : State) (c q : Nat) : Bool := s.headReady c q && !s.peerHeld c q

/-- One line of a DMA (R689): its status, 0 where it has been copied. The host answers the lines in `refused` with an
error and those in `poisoned` with poisoned data (R683). -/
def State.dmaLine (s : State) (p : Nat) (lat : Bool) (src dst k : Nat) (refused poisoned : List Nat) : State × Nat :=
  let a := src + 64 * k
  let b := dst + 64 * k
  let (s, v, code) :=
    if spaceOf a = 3 then
      if !s.linkUp ∨ refused.contains k then (s, 0, 67)
      else if poisoned.contains k then (s, 0, 1)
      else (s, memRead s.host (a % 2 ^ 60) 64, 0)
    else s.readStacked (s.canon (some p) 0 a) 64 [] false 0 (if lat then 0 else 1)
  if code ≠ 0 then (s, code)
  else if spaceOf b = 3 then (if s.linkUp then (s.hostWrite (b % 2 ^ 60) 64 v, 0) else (s, 67))
  else s.writeStacked (s.canon (some p) 0 b) 64 v [] 2

/-- A DMA copies its lines in address order and posts its first failure. -/
def State.dma (s : State) (p n : Nat) (lat : Bool) (src dst : Nat) (refused poisoned : List Nat) : State × Nat :=
  (List.range n).foldl (fun (a : State × Nat) k =>
    let (s, code) := a.1.dmaLine p lat src dst k refused poisoned
    (s, if a.2 = 0 then code else a.2)) (s, 0)

/-- What the host answers to the reads of a command: lines refused and lines poisoned (R683). -/
structure HostAns where
  refused : List Nat
  poisoned : List Nat
  deriving DecidableEq, Repr

/-- The command at the head of queue `q` of context `c` starts, if it is ready (R689). -/
def State.startCmd (s : State) (c q : Nat) (ans : HostAns) : State :=
  if !s.headReady c q then s
  else
    let p := s.cf c F.CTX_CFG_PART
    let Q := s.queue c q
    let s := s.onQueue c q (fun Q => { Q with started := s.owl.ns, watch := some (Q.watch.getD s.owl.ns) })
    let bad := s.endCmd c q 64 0 0 0
    if s.headBad p Q then bad
    else match Q.opc with
    | 0 => if Q.zeroFrom 2 then s.endCmd c q 0 0 0 0 else bad
    | 1 =>
      if s.runBad p Q then bad
      else if Q.rectangle.any (fun t => (s.tile t).work.isSome) then s.onQueue c q (fun Q' => { Q' with started := Q.started, watch := Q.watch })
      else
        let n := bitsOf (Q.word 3) 0 22
        let code := s.rangeError p (Q.word 2) n
        let s := s.readLines p (Q.word 2) n
        if code ≠ 0 then s.endCmd c q code 0 0 0
        else
          let image := (s.partBytes p (Q.word 2) n).map (BitVec.ofNat 8)
          (Q.rectangle.foldl (fun (s : State) t => s.place c q t Q image) s).onQueue c q (fun Q => { Q with phase := 2 })
    | 2 =>
      let n := bitsOf (Q.word 4) 0 40
      if Q.word 4 / 2 ^ 40 ≠ 0 ∨ Q.word 5 / 2 ≠ 0 ∨ !Q.zeroFrom 6 ∨ n % 64 ≠ 0 ∨ n = 0 ∨ s.dmaBad p c (Q.word 2) n false ∨
          s.dmaBad p c (Q.word 3) n true then bad
      else
        let (s, code) := s.dma p (n / 64) (bitOf (Q.word 5) 0) (Q.word 2) (Q.word 3) ans.refused ans.poisoned
        s.endCmd c q code 0 0 0
    | 3 =>
      if !Q.zeroFrom 3 ∨ s.extentBad p (Q.word 2) 128 64 then bad else s.startColl c q (Q.word 2)
    | 4 =>
      if !Q.zeroFrom 3 ∨ s.viewBad p (Q.word 2) 64 then bad
      else
        let (s, code) := s.provStart p (Q.word 2) (c * 8 + q)
        if code = 0 then s.onQueue c q (fun Q => { Q with phase := 2 }) else s.endCmd c q code 0 0 0
    | 5 =>
      let n := Q.word 2
      let used := s.cf c F.CTX_USE_MEM_USED
      let quota := s.cf c F.CTX_QUOTA_MEM
      if 2 ^ 24 ≤ n ∨ n = 0 ∨ !Q.zeroFrom 3 then bad
      else if (quota ≠ 0xFFFFFF ∧ quota < used + n) ∨ s.cf c F.CTX_USE_OVER_MEM = 1 then s.endCmd c q 65 0 0 0
      else match s.freeRun p n with
        | none => s.endCmd c q 66 0 0 0
        | some g => ((s.setGranules p g n (c + 1)).setMemUsed c (used + n)).endCmd c q 0 0 (g * 2 ^ 21) 0
    | 6 =>
      let n := Q.word 3
      let g := Q.word 2 / 2 ^ 21
      if 2 ^ 24 ≤ n ∨ !Q.zeroFrom 4 ∨ Q.word 2 % 2 ^ 21 ≠ 0 ∨ 12288 * s.blockCount (some p) < g + n ∨
          (List.range n).any (fun k => s.granOwner p (g + k) != c + 1) then bad
      else (s.release_ c p g n).endCmd c q 0 0 0 0
    | _ => bad

/-- Start the command at the head of a queue if its opcode is `opc` and no other queue's wait holds it. -/
def State.startOpc (s : State) (c q opc : Nat) (ans : HostAns) : State :=
  if (s.queue c q).opc = opc ∧ !s.peerHeld c q then s.startCmd c q ans else s

/-- CMD_NOP: OPC 0x00, and every undefined OPC, which ends with BAD_CMD (R689, R692). -/
def execCmdNop (c : CtxIx) (q : QueueIx) (s : State) : Host.Outcome State Fault Refusal :=
  .next (if ((s.queue c q).opc = 0 ∨ 7 ≤ (s.queue c q).opc) ∧ !s.peerHeld c q then s.startCmd c q ⟨[], []⟩ else s)
/-- RUN: OPC 0x01 (R690). -/
def execRun (c : CtxIx) (q : QueueIx) (s : State) : Host.Outcome State Fault Refusal := .next (s.startOpc c q 1 ⟨[], []⟩)
/-- CMD_DMA: OPC 0x02 (R689), with what the host answers to its lines. -/
def execCmdDma (c : CtxIx) (q : QueueIx) (refused poisoned : List Nat) (s : State) : Host.Outcome State Fault Refusal :=
  .next (s.startOpc c q 2 ⟨refused, poisoned⟩)
/-- COLL: OPC 0x03 (R484, R488). -/
def execColl (c : CtxIx) (q : QueueIx) (s : State) : Host.Outcome State Fault Refusal := .next (s.startOpc c q 3 ⟨[], []⟩)
/-- PROV: OPC 0x04 (R594 to R599). The row comes twice for a command that runs: its start, and the record that ends it. -/
def execProv (c : CtxIx) (q : QueueIx) (s : State) : Host.Outcome State Fault Refusal :=
  let p := s.cf c F.CTX_CFG_PART
  .next (if (s.queue c q).phase = 2 then
    match (s.part p).provs.find? (fun r => r.key == c.val * 8 + q.val) with
    | some r =>
      let (s, code) := s.provEnd p r
      s.endCmd c q code 0 0 0
    | none => s
  else s.startOpc c q 4 ⟨[], []⟩)
/-- MEM_ALLOC: OPC 0x05 (R522, R689). -/
def execMemAlloc (c : CtxIx) (q : QueueIx) (s : State) : Host.Outcome State Fault Refusal := .next (s.startOpc c q 5 ⟨[], []⟩)
/-- MEM_FREE: OPC 0x06 (R522, R689). -/
def execMemFree (c : CtxIx) (q : QueueIx) (s : State) : Host.Outcome State Fault Refusal := .next (s.startOpc c q 6 ⟨[], []⟩)

/-! ## Fetching -/

/-- The engine fetches the command at the head of a queue (R687): `ok` says that the host answers the read with good data,
`w` is the 64 bytes. A queue beyond CTX_CFG.QUEUES does not exist (R714). A command whose peer event has not occurred waits at the head (R688). -/
def State.fetch (s : State) (c q : Nat) (ok : Bool) (w : Line) : State :=
  let b := queuePage c q
  let head := s.hf b F.Q_PTR_HEAD
  if s.cf c F.CTX_CFG_VALID = 0 ∨ s.hf b F.Q_CFG_EN = 0 ∨ !s.linkUp ∨ s.pstate (s.cf c F.CTX_CFG_PART) ≠ 2 ∨ s.fenced c ∨
      s.cf c F.CTX_CFG_QUEUES < q ∨ (s.queue c q).phase ≠ 0 ∨ head = s.hf b F.Q_PTR_TAIL then s
  else
    let s := s.setHf b F.Q_PTR_HEAD (head + 1)
    if ok then
      let s := s.onQueue c q (fun _ => { HostQ.empty with cmd := w, idx := head, phase := 1 })
      let Q := s.queue c q
      if s.headBad (s.cf c F.CTX_CFG_PART) Q ∨ s.peerOccurred Q then s
      else s.onQueue c q (fun Q => { Q with waitFrom := some s.owl.ns, watch := some s.owl.ns })
    else
      (s.setHf b F.Q_CFG_EN 0).onQueue c q (fun _ =>
        { HostQ.empty with idx := head, phase := 3, status := 67, r0 := head, ended := s.owl.ns })

/-- COMMAND_FETCH. -/
def execCommandFetch (c : CtxIx) (q : QueueIx) (ok : Bool) (w : BitVec 512) (s : State) : Host.Outcome State Fault Refusal :=
  .next (s.fetch c q ok w)

/-- COMPLETION_POST (R691). -/
def execCompletionPost (c : CtxIx) (q : QueueIx) (s : State) : Host.Outcome State Fault Refusal := .next (s.postEntry c q)

/-! ## Waiting (R377 to R379) -/

/-- The timetabled deadline of the peer event of a waiting head: a global beat, none for a collective (R379). -/
def State.peerDue (s : State) (Q : HostQ) : Option Nat :=
  let w := Q.word 1
  if Q.pkind = 1 then
    let l := bitsOf w 2 6
    let fl := bitsOf w 8 12
    (s.flowDue l fl).map (fun d => d + 4096 * (bitsOf w 32 32 - (s.flow (flowKey l fl)).ends - 1))
  else none

/-- Can the head of a queue run as an alternate: it is ready and waits for nothing? -/
def State.altReady (s : State) (c q : Nat) : Bool := s.headReady c q && (s.queue c q).phase == 1

/-- ALTERNATE_START (R379): while the head of queue `q` waits, the head of the lowest-numbered queue in ALT_QMASK that is
ready starts. -/
def State.alternate (s : State) (c q : Nat) (ans : HostAns) : State :=
  let Q := s.queue c q
  let gap : Bool := match s.peerDue Q with
    | some d => decide (s.beat + s.cf c F.CTX_TRAIN_CFG_MIN_GAP ≤ d)
    | none => true
  if Q.phase = 1 ∧ Q.waitFrom.isSome ∧ Q.eventAt = none ∧ Q.covered = none ∧ s.cf c F.CTX_TRAIN_CFG_WAIT_MODE = 1 ∧ gap then
    match (List.range 8).find? (fun a => a != q && bitOf (s.cf c F.CTX_TRAIN_CFG_ALT_QMASK) a && s.altReady c a) with
    | none => s
    | some a =>
      let s' := ((s.account c q).onQueue c q (fun Q => { Q with covered := some a })).startCmd c a ans
      if (s'.queue c a).phase = 1 then s else s'
  else s

/-- ALTERNATE_START. -/
def execAlternateStart (c : CtxIx) (q : QueueIx) (refused poisoned : List Nat) (s : State) :
    Host.Outcome State Fault Refusal := .next (s.alternate c q ⟨refused, poisoned⟩)

/-- The waiting queue resumes at the first command boundary after its event (R379). That its event is noted stays with it until
its command has started and ended. -/
def State.resume (s : State) (c q : Nat) : State :=
  let Q := s.queue c q
  if Q.phase = 1 ∧ Q.waitFrom.isSome ∧ Q.eventAt.isSome ∧ Q.covered = none then
    (s.account c q).onQueue c q (fun Q => { Q with waitFrom := none })
  else s

/-- PEER_EVENT_RESUME. -/
def execPeerEventResume (c : CtxIx) (q : QueueIx) (s : State) : Host.Outcome State Fault Refusal := .next (s.peerEvents.resume c q)

end Sys2Proof.Machine
end

