-- ==== Sys2Proof/Machine/Halt.lean ====
section
/-!
DEFINITION. Debug halts of a tile (R137, R665 to R670): requests, halting, resuming, stepping and breakpoints.
-/
namespace Sys2Proof.Machine

/-- A halt request is taken: the tile stops dispatch (R665). -/
def Tile.stopping (T : Tile) (why : Nat) : Tile :=
  { (T.setFld F.DBG_STATUS_STOPPING 1).setFld F.DBG_STATUS_HALT_WHY why with haltReq := none }

/-- A halt request (R137, R665, R670): a sleeping tile wakes first, the tile of a hibernating partition holds the request,
and while a reservation is live the halt is deferred. -/
def State.haltRequest (s : State) (t why : Nat) : State :=
  let s := s.onTile t (fun T => T.arrive s.owl.ns 5)
  let T := s.tile t
  if T.fld F.DBG_STATUS_HALTED = 1 ∨ T.fld F.DBG_STATUS_STOPPING = 1 ∨ T.haltReq.isSome then s
  else if T.power ≠ .on then s.setTile t { T with haltReq := some (s.tileCycle t, why) }
  else if s.resvLive t then
    s.setTile t { T.setFld F.DBG_STATUS_DEFERRED 1 with haltReq := some (s.tileCycle t, why) }
  else s.setTile t (T.stopping why)

/-- A request that was deferred is taken once no reservation is live (R137). -/
def State.haltDue (s : State) (t : Nat) : State :=
  match (s.tile t).haltReq with
  | some (_, why) => if (s.tile t).power = .on ∧ !s.resvLive t then s.onTile t (fun T => T.stopping why) else s
  | none => s

/-- Has every instruction that has started run to its end (R665)? -/
def Tile.stopped (T : Tile) : Bool :=
  T.run.isNone && !T.reqs.any (fun (r : Nat × XReq) =>
    (r.2.kind == .dma || r.2.kind == .stream || r.2.kind == .send) && r.2.launched != r.2.total)

/-- The tile becomes halted (R665, R666). -/
def State.halted (s : State) (t : Nat) : State :=
  let s := s.haltDue t
  let T := s.tile t
  if T.fld F.DBG_STATUS_STOPPING = 1 ∧ T.stopped then
    s.setTile t { (T.setFld F.DBG_STATUS_STOPPING 0).setFld F.DBG_STATUS_HALTED 1 with haltFrom := some (s.tileCycle t), skid := 7 }
  else s

/-- TILE_HALTED. -/
def execTileHalted (t : TileIx) (s : State) : Host.Outcome State Fault Refusal := .next (s.halted t)

/-- HALT_DEFER_EXPIRY (R137): 64 tile cycles after the request the reservation is broken and the tile halts. -/
def execHaltDeferExpiry (t : TileIx) (s : State) : Host.Outcome State Fault Refusal :=
  .next (match (s.tile t).haltReq with
    | some (c, why) =>
      if (s.tile t).power = .on ∧ s.resvLive t ∧ c + 64 ≤ s.tileCycle t then
        s.onTile t (fun T => (T.breakResv 2).stopping why)
      else s
    | none => s)

/-- A halted tile goes on (R667): its cycles of halt are counted, a `twait` acts again, and a stamp is judged anew. -/
def Tile.unhalt (T : Tile) (now : Nat) : Tile :=
  let T := T.addFld F.HALT_CYCLES_COUNT (now - T.haltFrom.getD now)
  let T := (T.setFld F.DBG_STATUS_HALTED 0).setFld F.DBG_STATUS_HALT_WHY 0
  { T with haltFrom := none, fresh := true, stampAt := none, barrier := if T.barrier = .wait then .wait else .none }

/-- DBG_CTL.RESUME (R667): without a halt it has no effect and sets CFG_REJECT. -/
def State.resumeTile (s : State) (t src : Nat) : State :=
  if (s.tile t).fld F.DBG_STATUS_HALTED = 1 then (s.onTile t (fun T => T.unhalt (s.tileCycle t))).advance t
  else s.onTile t (fun T => T.cfgReject F.DBG_CTL_HALT.reg src)

/-- DBG_CTL.STEP (R668): one instruction is dispatched, and the tile halts again. A `wait` completes at once. -/
def State.stepTile (s : State) (t src : Nat) : State :=
  if (s.tile t).fld F.DBG_STATUS_HALTED = 1 then
    s.onTile t (fun T => { T.unhalt (s.tileCycle t) with stepping := true })
  else s.onTile t (fun T => T.cfgReject F.DBG_CTL_HALT.reg src)

/-- A write to DBG_CTL (R673). -/
def State.writeDbgCtl (s : State) (t w src : Nat) : State :=
  let before := s.tile t
  let s := s.onTile t (fun T => T.writeSpec F.DBG_CTL_HALT.reg w src noBad)
  let s := if bitOf w 0 then s.haltRequest t 1 else s
  let s := if bitOf w 1 then s.resumeTile t src else s
  let s := if bitOf w 2 then s.stepTile t src else s
  s.onTile t (fun T => T.onceRejected before)

/-- BREAKPOINT_MATCH (R668): the tile halts before it dispatches the instruction at an enabled breakpoint. -/
def execBreakpointMatch (t : TileIx) (s : State) : Host.Outcome State Fault Refusal :=
  .next (let T := s.tile t
    if T.breakHit ∧ T.barrier = .none ∧ T.power = .on ∧ T.fld F.DBG_STATUS_HALTED = 0 then s.haltRequest t 2 else s)

/-- Is debug unlocked (R660, R700)? -/
def State.debugOpen (s : State) : Bool := s.ef F.BOOT_STATUS_DEBUG_OPEN == 1

/-- DEBUG_HALT: a debug write of DBG_CTL.HALT; while debug is locked it has no effect (R660). -/
def execDebugHalt (t : TileIx) (s : State) : Host.Outcome State Fault Refusal :=
  .next (if s.debugOpen then s.haltRequest t 1 else s)

/-- DEBUG_RESUME: a debug write of DBG_CTL.RESUME. -/
def execDebugResume (t : TileIx) (s : State) : Host.Outcome State Fault Refusal :=
  .next (if s.debugOpen then s.resumeTile t 2 else s)

/-- DEBUG_STEP: a debug write of DBG_CTL.STEP. -/
def execDebugStep (t : TileIx) (s : State) : Host.Outcome State Fault Refusal :=
  .next (if s.debugOpen then s.stepTile t 2 else s)

/-! ## Partition halts (R669) -/

/-- The halt or resume armed for a partition acts at its tick on every tile. -/
def State.partDebug (s : State) (p op : Nat) : State :=
  if s.pf p F.DBG_PART_CTL_ARMED = 1 ∧ s.pf p F.DBG_PART_CTL_OP = op ∧ s.pf p F.DBG_PART_AT_NS ≤ s.owl.ns then
    let s := s.setPf p F.DBG_PART_CTL_ARMED 0
    (s.tilesOf p).foldl (fun (s : State) t =>
      if op = 1 then s.haltRequest t 3
      else if (s.tile t).fld F.DBG_STATUS_HALTED = 1 then s.resumeTile t 2 else s) s
  else s

/-- PARTITION_HALT. -/
def execPartitionHalt (p : PartIx) (s : State) : Host.Outcome State Fault Refusal := .next (s.partDebug p 1)

/-- PARTITION_RESUME. -/
def execPartitionResume (p : PartIx) (s : State) : Host.Outcome State Fault Refusal := .next (s.partDebug p 2)

end Sys2Proof.Machine
end

