-- ==== Sys2Proof/Machine/TileCtl.lean ====
section
/-!
DEFINITION. Reading and writing the control space of a tile (R147 to R155): the fields that a read computes, and what a
write does beyond storing fields.
-/
namespace Sys2Proof.Machine

/-! ## Reading -/

/-- Is a LACC in a special state? -/
def Lacc.special (l : Lacc) : Bool := l.sp != .none

/-- MSTATUS (R230): BUSY while an epilogue holds the array (R297). -/
def Tile.mstatus (T : Tile) (now : Nat) : Tile :=
  let held := T.run.any (fun r => r.epilogue && !r.released)
  ((T.setFld F.MSTATUS_BUSY (b2n held)).setFld F.MSTATUS_SETTLED (b2n (!T.mCarry || T.settleWait now == 0))).setFld F.MSTATUS_SPECIAL
    (b2n (T.lacc.any (fun (e : Nat × Lacc) => e.2.special)))

/-- VSTATUS (R278): a C-queue instruction whose run is pending is a `tprog` (R293). -/
def Tile.vstatus (T : Tile) (now : Nat) : Tile :=
  let T := T.setFld F.VSTATUS_BUSY (b2n (T.run.any (fun r => !r.epilogue)))
  let T := (T.setFld F.VSTATUS_ROOT0_SETTLED (b2n (T.root0.settleWait now == 0))).setFld F.VSTATUS_ROOT1_SETTLED
    (b2n (T.root1.settleWait now == 0))
  let T := (T.setFld F.VSTATUS_ROOT0_KIND T.root0.kind).setFld F.VSTATUS_ROOT1_KIND T.root1.kind
  (T.setFld F.VSTATUS_ROOT0_SPECIAL (b2n T.root0.acc.special)).setFld F.VSTATUS_ROOT1_SPECIAL (b2n T.root1.acc.special)

/-- TPROG_STATUS (R310). -/
def Tile.tprogStatus (T : Tile) : Tile :=
  let T := (T.setFld F.TPROG_STATUS_RUN (b2n T.run.isSome)).setFld F.TPROG_STATUS_HELD
    (b2n (T.run.any (fun r => r.epilogue && !r.released)))
  let T := T.setFld F.TPROG_STATUS_EPI (b2n (T.run.any (·.epilogue)))
  (T.setFld F.TPROG_STATUS_CHECKED_EPI (b2n T.checkedEpi.isSome)).setFld F.TPROG_STATUS_CHECKED_TP (b2n T.checkedTp.isSome)

/-- Elements of gather engine `g`'s stream that are not done (R281). -/
def Tile.gatherLeft (T : Tile) (g : Nat) : Nat :=
  match T.reqs.find? (fun (r : Nat × XReq) => r.2.kind == .stream && recordEngine r.2 == g && !r.2.done) with
  | some (tag, r) =>
    let out := (T.parts tag).foldl (fun n (q : Nat × XReq) => n + (q.2.pieces.filter (fun x => !q.2.settled x)).length) 0
    r.total - r.launched + out
  | none => 0

/-- MV_PEND (R417): tags `lo` to `lo + 63`. -/
def Tile.pend (T : Tile) (lo : Nat) : Word :=
  BitVec.ofNat 64 ((List.range 64).foldl (fun n i => if (T.req (lo + i)).isSome then n + 2 ^ i else n) 0)

/-- What a read of a control register returns (R24, R147): a WO field reads 0, and the fields that report the state of the
tile are computed. No read of the control space has a side effect. `late`: the read executes in the second tile cycle that starts in
this tick (R63). -/
def State.readCtlAt (s : State) (late : Bool) (t a : Nat) : Word :=
  let T := s.tile t
  let now := s.tileCycle t
  match a with
  | 0x04 => (T.mstatus now).ctlWord a
  | 0x21 => (T.vstatus now).ctlWord a
  | 0x29 => ((T.setFld F.GATH_STATUS_LEFT_G0 (T.gatherLeft 1)).setFld F.GATH_STATUS_LEFT_G1 (T.gatherLeft 2)).ctlWord a
  | 0x42 => T.tprogStatus.ctlWord a
  | 0xC0 => T.pend 0
  | 0xC1 => T.pend 64
  | 0x400 => BitVec.ofNat 64 (T.cycleStart s.owl.ns late / 65536)
  | 0x401 => BitVec.ofNat 64 (T.cycleStart s.owl.ns late % 65536 + T.cycleStart s.owl.ns late / 65536 % 2 ^ 32 * 2 ^ 16)
  | 0x408 => BitVec.ofNat 64 (T.cycleCount s.owl.ns late)
  | 0x40A => BitVec.ofNat 64 (T.sleepGap s.owl.ns)
  | 0x410 => ((T.setFld F.TILE_STATUS_HOLD_LIVE (b2n (s.resvLive t))).setFld F.TILE_STATUS_PRED_OFF
      (1 - T.fld F.TILE_CFG_SPEC_EN)).setFld F.TILE_STATUS_FENCE_PEND (b2n (T.handler && T.events.fenced.isSome)) |>.ctlWord a
  | 0x411 => BitVec.ofNat 64 (t % 120 + t / 120 * 2 ^ 8 + t * 2 ^ 15)
  | 0x44F => (T.addFld F.HALT_CYCLES_COUNT (now - T.haltFrom.getD now)).ctlWord a
  | 0xC02 => BitVec.ofNat 64 (T.pc.toNat % 2 ^ 22)
  | _ => T.ctlWord a

/-- A read in the first tile cycle of the tick. -/
def State.readCtl (s : State) (t a : Nat) : Word := s.readCtlAt false t a

/-! ## Writing -/

/-- Fields of a control write that hold a reserved encoding for a reason beyond the tables: GATH_CFG (R281),
MV_ERRQ_PTR.HEAD (R420) and DBG_PC (R673). -/
def Tile.badField (T : Tile) (a w : Nat) (f : Fld) : Bool :=
  match a with
  | 0x28 => 120 < bitsOf w 0 7 + bitsOf w 8 7 && (f == F.GATH_CFG_SLOTS_G0 || f == F.GATH_CFG_SLOTS_G1)
  | 0xC3 => f == F.MV_ERRQ_PTR_HEAD &&
      2 ^ T.fld F.MV_ERRQ_CFG_SIZE < (T.fld F.MV_ERRQ_PTR_TAIL + 8192 - bitsOf w 16 13) % 8192
  | 0xC02 => T.fld F.DBG_STATUS_HALTED == 0
  | _ => false

/-- A write to SOLV_BASE or SOLV_REGION clears SOLV_READY (R349, R350). -/
def Tile.writeSolv (T : Tile) (a w src : Nat) : Tile := (T.writeSpec a w src noBad).setCtl F.SOLV_READY_READY.reg 0

/-- A sample entry of a block's next dump (R656): at most 64; a further one is counted as dropped. -/
def State.foxSample (s : State) (t pc : Nat) : State :=
  match s.ownerOfTile t with
  | none => s
  | some p =>
    let b := blockOfTile t
    let T := s.tile t
    let w1 := ltileOf t + T.fld F.SAMPLE_CFG_EVENT * 2 ^ 4 + T.fld F.SAMPLE_STATUS_SKID * 2 ^ 10 +
      T.fld F.SAMPLE_CFG_USER * 2 ^ 13 + s.beat % 2 ^ 50 * 2 ^ 14
    s.onPart p (fun P =>
      if ((P.samples.filter (fun x => x.1 == b)).length) < 64 then { P with samples := P.samples ++ [(b, pc, w1)] }
      else { P with sampleDrops := P.sampleDrops.upd (fun _ => 0) b (· + 1) })

/-- A write of `w` to control register `a` of tile `t` by source `src` (R24, R25, R155), with its effects. -/
def State.writeCtl (s : State) (t a w src : Nat) : State :=
  let T := s.tile t
  match a with
  | 0x40 => s.setTile t { T.writeSpec a w src noBad with checkedEpi := none }
  | 0x80 | 0x81 => s.setTile t (T.writeSolv a w src)
  | 0xC2 => s.setTile t (T.writeErrq w src)
  | 0x472 => s.foxSample t w
  | 0x824 =>
    let s := s.setTile t (T.writeSpec a w src noBad)
    if bitOf w 0 then (s.onTile t (fun T => T.releasePads)).advance t else s
  | 0xC00 => s.writeDbgCtl t w src
  | 0xC02 =>
    let T' := T.writeSpec a w src (T.badField a w)
    s.setTile t (if T.badField a w F.DBG_PC_PC ∨ bitsOf w 0 2 ≠ 0 then T' else { T' with pc := BitVec.ofNat 64 (bitsOf w 0 22) })
  | _ => s.setTile t (T.writeSpec a w src (T.badField a w))

/-- SOLV_BASE_WRITE (R349), by a source that the S queue does not hold back. -/
def execSolvBaseWrite (t : TileIx) (w : BitVec 64) (src : Fin 4) (s : State) : Host.Outcome State Fault Refusal :=
  .next (s.onTile t (fun T => T.writeSolv F.SOLV_BASE_BASE.reg w.toNat src))

/-- SOLV_REGION_WRITE (R350). -/
def execSolvRegionWrite (t : TileIx) (w : BitVec 64) (src : Fin 4) (s : State) : Host.Outcome State Fault Refusal :=
  .next (s.onTile t (fun T => T.writeSolv F.SOLV_REGION_BASE.reg w.toNat src))

/-- FOX_SAMPLE_WRITE (R656). -/
def execFoxSampleWrite (t : TileIx) (w : BitVec 64) (s : State) : Host.Outcome State Fault Refusal :=
  .next (s.foxSample t w.toNat)

end Sys2Proof.Machine
end

