-- ==== Sys2Proof/Machine/Reset.lean ====
section
/-!
DEFINITION. Fencing, draining and captures (R555 to R565), and the recovery steps up to the partition reset (R552 to R577).
-/
namespace Sys2Proof.Machine

/-! ## Fencing -/

/-- The tiles that run a context (R555). -/
def State.tilesRunning (s : State) (c : Nat) : List Nat :=
  (s.tiles.filter (fun (e : Nat × Tile) => s.runsCtx e.1 c)).map (·.1)

/-- The drain bound of a fence that takes effect now (R558). -/
def State.drainTick (s : State) : Nat := s.owl.ns + s.ef F.RECOV_CFG_DRAIN_BEATS * 256

/-- The lines or elements of a started instruction that have not been launched never launch (R555): they end with ECODE 5,
those of a gather stream with REASON 3. The address of one is that of its source, or of the stream's element. -/
def State.cutShort (s : State) (t : Nat) (r : XReq) : XReq :=
  let p := s.ownerOfTile t
  let addr := fun (k : Nat) =>
    if r.kind = .stream then s.canon p t (streamElem (s.tile t) r.entry k).1 else s.canon p t (r.entry.sb.toNat + 64 * k)
  let rest := (List.range (r.total - r.launched)).map (fun j =>
    let k := r.launched + j
    (k, failCode r 5, addr k))
  { r with bad := rest ++ r.bad, launched := r.total }

/-- Is a request one whose parts launch one after another? -/
def XReq.chunked (r : XReq) : Bool := r.kind == .dma || r.kind == .stream || r.kind == .send

/-- What a fence does in a tile that runs the context (R555): FENCED is pending, a live reservation is broken, and nothing
more launches. -/
def State.fenceTile (s : State) (t gen : Nat) : State :=
  let s := s.onTile t (fun T =>
    ({ T.breakResv 7 with events := { T.events with fenced := some gen } } : Tile).arrive s.owl.ns 4)
  let open_ := (s.tile t).reqs.filter (fun (e : Nat × XReq) => e.2.chunked && e.2.launched != e.2.total)
  open_.foldl (fun (s : State) (e : Nat × XReq) =>
    (s.onTile t (fun T => T.setReq e.1 (s.cutShort t e.2))).settle t e.1) s

/-- The flows whose destination a context is (R463). -/
def State.ctxFlows (s : State) (c : Nat) : List Nat :=
  (s.tables.filter (fun tb => tb.ctx == c)).flatMap (fun tb =>
    (tb.entries.filter (fun x => x.kind == 3)).map (fun x => flowKey x.link x.flow))

/-- Flows close (R463). -/
def State.closeFlows (s : State) (keys : List Nat) : State :=
  keys.foldl (fun (s : State) k => s.onFlow k (fun f => { f with closed := true })) s

/-- A fence of a context takes effect (R555), the capture apart. A context that is fenced already stays as it is. -/
def State.fence (s : State) (c cause : Nat) : State :=
  if s.fenced c then s
  else
    let gen := (s.cf c F.CTX_FENCE_GEN + 1) % 65536
    let s := ((s.setCf c F.CTX_FENCE_GEN gen).setCf c F.CTX_FENCE_FENCED 1).setCf c F.CTX_FENCE_CAUSE cause
    let s := s.onCtx c (fun C => { C with drainAt := some s.drainTick })
    let s := (s.tilesRunning c).foldl (fun (s : State) t => s.fenceTile t gen) s
    (s.closeFlows (s.ctxFlows c)).ctxEvent c F.CTX_EVENT_FENCED

/-- A fence of a context is accepted: it takes effect in the next tick (R555). The first one accepted gives the CAUSE. -/
def State.askFence (s : State) (c cause : Nat) : State :=
  if s.fenced c then s else s.onCtx c (fun C => { C with fenceDue := some (C.fenceDue.getD cause) })

/-- A fence that has been accepted takes effect. -/
def State.actFence (s : State) (c : Nat) : State :=
  match (s.ctx c).fenceDue with
  | none => s
  | some cause => (s.fence c cause).onCtx c (fun C => { C with fenceDue := none })

/-- The valid contexts of a partition. -/
def State.ctxsOf (s : State) (p : Nat) : List Nat :=
  (List.range 64).filter (fun c => s.cf c F.CTX_CFG_VALID == 1 && s.cf c F.CTX_CFG_PART == p)

/-! ## Captures -/

/-- CTX_IDLE_0 (R382): whole beats, each field saturating. -/
def State.ctxIdle0 (s : State) (c : Nat) : Nat := satTo 32 ((s.ctx c).peer / 256) + satTo 32 ((s.ctx c).coll / 256) * 2 ^ 32
/-- CTX_IDLE_1 (R382). -/
def State.ctxIdle1 (s : State) (c : Nat) : Nat := satTo 32 ((s.ctx c).covered / 256) + satTo 32 ((s.ctx c).lag / 256) * 2 ^ 32

/-- Words with their slot offsets, those that are 0 left out. -/
def wordsAt (base : Nat) (ws : List Nat) : List (Nat × Nat) :=
  (ws.zipIdx.map (fun (w : Nat × Nat) => (base + 8 * w.2, w.1))).filter (fun w => w.2 != 0)

/-- The state of a command queue in a context record (R564). -/
def State.queueCode (s : State) (c q : Nat) : Nat :=
  let Q := s.queue c q
  let b := queuePage c q
  match Q.phase with
  | 1 => if Q.waitFrom.isSome then 3 else 1
  | 2 => 2
  | _ => if s.hf b F.Q_PTR_HEAD = s.hf b F.Q_PTR_TAIL then 0 else 1

/-- A context record (R564). -/
def State.ctxRecord (s : State) (c : Nat) : List (Nat × Nat) :=
  let f := fun (x : Fld) => s.cf c x
  let w0 := f F.CTX_CFG_VALID + f F.CTX_CFG_PART * 2 + f F.CTX_FENCE_SUSPECT * 2 ^ 5 + f F.CTX_FENCE_GUILTY * 2 ^ 6 +
    f F.CTX_FENCE_GEN * 2 ^ 7 + f F.CTX_FENCE_CAUSE * 2 ^ 23
  let w1 := (List.range 8).foldl (fun n q => n + s.queueCode c q * 2 ^ (8 * q)) 0
  let ptr := fun q => s.hf (queuePage c q) F.Q_PTR_HEAD + s.hf (queuePage c q) F.Q_PTR_TAIL * 2 ^ 32
  let running := ((List.range 8).filter (fun q => (s.queue c q).phase == 2)).map (fun q => (s.queue c q).started / 256)
  let oldest := running.foldl (fun (m : Option Nat) x => some (match m with
    | some y => min x y
    | none => x)) none
  wordsAt (0x40 + 128 * c) ([w0, w1] ++ (List.range 8).map ptr ++
    [(s.hostWord (ctxPage c + F.CTX_USE_MEM_USED.reg)).toNat, s.ctxIdle0 c, s.ctxIdle1 c, oldest.getD 0])

/-- A group record (R564). -/
def State.groupRecord (s : State) (g : Nat) : List (Nat × Nat) :=
  let w2 := match s.colls.find? (fun i => i.group == g) with
    | some i => i.cseq + 2 ^ 24
    | none => 0
  wordsAt (0x2040 + 32 * g) [s.gw g 0, (s.hostWord (groupPage g + F.GRP_STATUS_EPOCH.reg)).toNat, w2]

/-- Which Badger of a tile has fired (R564): the one that BADGER_STATUS of its partition names. -/
def State.badgerBits (s : State) (t : Nat) : Nat :=
  match s.ownerOfTile t with
  | some p =>
    if s.pf p F.BADGER_STATUS_HUNG = 1 ∧ s.pf p F.BADGER_STATUS_KIND = 0 ∧ s.pf p F.BADGER_STATUS_TILE = t then
      2 ^ s.pf p F.BADGER_STATUS_QUEUE
    else 0
  | none => 0

/-- A tile record (R564). The beats since the last progress are a free value, since instructions take no hall time here. -/
def State.tileRecord (s : State) (t : Nat) : List (Nat × Nat) :=
  let r := fun (a : Nat) => (s.readCtl t a).toNat
  wordsAt (0x4040 + 256 * t) ([1 + s.badgerBits t] ++
    ([F.TILE_STATUS_MODE.reg, F.EXC_CAUSE_CODE.reg, F.EXC_PC_PC.reg, F.EXC_QPC_QPC.reg, F.EXC_INFO_INFO.reg, mflagsAddr,
      vflagsAddr, sflagsAddr, F.VRES_ELEM.reg, F.SOLV_RES_SLOT.reg, F.SOLV_STATUS_BUSY.reg, F.MSTATUS_BUSY.reg,
      F.TPROG_STATUS_RUN.reg, 0xC0, 0xC1, F.MV_ERRQ_PTR_TAIL.reg, F.GATH_STATUS_BUSY_G0.reg, 0x408].map r) ++
    [(Config.freeWord (s.free + t)).toNat, (s.tile t).pc.toNat])

/-- The words of a capture (R564): KIND, CAUSE, partition, and the context or tile of the step. -/
def State.captWords (s : State) (kind cause p id : Nat) : List (Nat × Nat) :=
  let ctx := if kind = 2 then id else 0
  let tile := if kind = 1 then id else 0
  let cs := match kind with
    | 2 => [id]
    | 3 => s.ctxsOf p
    | 4 => List.range 64
    | _ => []
  let gs := match kind with
    | 3 => (List.range 256).filter (fun g => s.hf (groupPage g) F.GRP_CTRL_VALID == 1 && s.hf (groupPage g) F.GRP_CTRL_PART == p)
    | 4 => List.range 256
    | _ => []
  let ts := match kind with
    | 1 => [id]
    | 2 => s.tilesRunning id
    | 3 => s.tilesOf p
    | _ => List.range 10800
  let badger := if kind = 4 then 0 else (s.hostWord (partPage p + F.BADGER_STATUS_HUNG.reg)).toNat
  let head := wordsAt 0 [0x54504143 + 2 ^ 32, kind * 2 ^ 32 + cause * 2 ^ 35 + p * 2 ^ 39 + ctx * 2 ^ 43, s.owl.ns,
    s.ef F.DUM_INFO_GENERATION + tile * 2 ^ 32, badger]
  head ++ cs.flatMap s.ctxRecord ++ gs.flatMap s.groupRecord ++ ts.flatMap s.tileRecord

/-- The capture of a step that comes with a fence is latched in the tick of the fence (R563). -/
def State.askCapture (s : State) (kind cause p id : Nat) : State :=
  { s with captures := s.captures ++ [⟨kind, id, cause, p, false, 0, []⟩] }

/-- A capture is latched, and may be written from the drain bound on (R563). -/
def State.latchOne (s : State) (x : Capt) : State :=
  { s with captures := s.captures.map (fun y =>
             if y = x then { x with latched := true, due := s.drainTick, words := s.captWords x.kind x.cause x.part x.id } else y),
           free := s.free + 10800 }

/-- Latch a capture now. -/
def State.latch (s : State) (kind cause p id : Nat) : State :=
  (s.askCapture kind cause p id).latchOne ⟨kind, id, cause, p, false, 0, []⟩

/-- The accepted fences of the contexts `cs` take effect, and then the captures that satisfy `mine` are latched (R555, R563). -/
def State.actFences (s : State) (cs : List Nat) (mine : Capt → Bool) : State :=
  let s := cs.foldl (fun (s : State) c => s.actFence c) s
  (s.captures.filter (fun x => !x.latched && mine x)).foldl (fun (s : State) x => s.latchOne x) s

/-- What was accepted in the tick before takes effect in this one. -/
def State.tickFences (s : State) : State := s.actFences (List.range 64) (fun _ => true)

/-- The engine writes a latched capture into host memory (R563 to R565), or sets FAIL. -/
def State.writeCapture (s : State) (x : Capt) : State :=
  let s := { s with captures := s.captures.filter (fun y => y != x) }
  if s.ef F.CAPT_CFG_EN = 0 ∨ !s.linkUp then (s.setEf F.CAPT_STATUS_FAIL 1).irq F.IRQ_STATUS_CAPT
  else
    let n := s.ef F.CAPT_STATUS_SEQ
    let a := s.ef F.CAPT_CFG_ADDR * 2 ^ 22 + n % 8 * 2 ^ 22
    let h := x.words.foldl (fun (m : NMap Byte) w => memWrite m (a + w.1) 8 w.2) (memZero s.host a (2 ^ 22))
    let h := memWrite h (a + 8) 4 n
    let s := { s with host := h }
    ((s.setEf F.CAPT_STATUS_SEQ (n + 1)).setEf F.CAPT_STATUS_NEXT ((n + 1) % 8)).irq F.IRQ_STATUS_CAPT

/-- Is the step of a capture in progress? -/
def State.inStep (s : State) (x : Capt) : Bool :=
  match x.kind with
  | 1 => (s.tile x.id).inReset
  | 2 => (s.ctx x.id).reset.isSome
  | 3 => (s.part x.id).step.isSome
  | _ => s.engReset.isSome

/-- Write the capture of a step, if it has not been written. -/
def State.flushCapture (s : State) (kind id : Nat) : State :=
  match s.captures.find? (fun x => x.latched && x.kind == kind && x.id == id) with
  | some x => s.writeCapture x
  | none => s

/-- CAPTURE_WRITE (R563): after the drain bound, the first capture of a step in progress. -/
def execCaptureWrite (s : State) : Host.Outcome State Fault Refusal :=
  .next (match s.captures.find? (fun x => x.latched && x.due ≤ s.owl.ns && s.inStep x) with
    | some x => s.writeCapture x
    | none => s)

/-- A write of CTX_FENCE.FENCE, or a context fault raised by firmware, is accepted (R555, R561). -/
def State.fenceCtx (s : State) (c cause src : Nat) : State :=
  if s.cf c F.CTX_CFG_VALID = 0 then s.hostReject (ctxPage c + F.CTX_FENCE_FENCE.reg) src
  else if s.fenced c ∨ (s.ctx c).fenceDue.isSome then s
  else (s.askFence c cause).askCapture 2 cause (s.cf c F.CTX_CFG_PART) c

/-- CONTEXT_FENCE. -/
def execContextFence (c : CtxIx) (fw : Bool) (src : Fin 4) (s : State) : Host.Outcome State Fault Refusal :=
  .next (s.fenceCtx c (if fw then 2 else 1) src)

/-! ## The drain bound -/

/-- A part that is outstanding at the drain bound is answered: what has not taken effect is dropped (R558, R560). -/
def State.answerPart (s : State) (t tag : Nat) (r : XReq) : State :=
  let left := (r.pieces.filter (fun x => !r.settled x)).map (fun x =>
    (x.idx, failCode r 5, if (r.data x).isNone then x.src else x.dst))
  s.onTile t (fun T =>
    let T := T.freeTag tag
    match T.req r.parent with
    | some q =>
      T.setReq r.parent { q with bad := left ++ r.bad ++ q.bad, got := if q.kind = .send then r.got ++ q.got else q.got }
    | none => T)

/-- An instruction that is outstanding at the drain bound is answered (R558, R560). The ADDR of the record of an `mv.recv`
is not stated, so it is a free value. -/
def State.answerOwn (s : State) (t tag : Nat) (r : XReq) : State :=
  match r.kind, r.pieces with
  | .dma, _ | .stream, _ => s.settle t tag
  | .send, _ =>
    if r.answer = none ∧ r.bad ≠ [] then s.settle t tag
    else s.onTile t (fun T => T.finish tag { r with code := 5, limit := r.total, deadline := s.canon (s.ownerOfTile t) t r.entry.sb.toNat })
  | .recv, _ =>
    ({ s with free := s.free + 1 } : State).onTile t (fun T =>
      T.finish tag { r with code := 5, limit := 1, deadline := (Config.freeWord s.free).toNat })
  | .part, _ => s
  | k, [x] =>
    let s := s.onHome x.dst (fun H => { H with waiting := H.waiting.filter (fun w => w != (t, tag)) })
    s.onTile t (fun T =>
      { (T.writeDest r.entry.instr (if k = .commit then 7 else 0)).finish tag { r with bad := [(0, 5, x.dst)] } with
        resv := if k = .atomic then T.resv else none })
  | _, _ => s

/-- Every request of a tile that is outstanding is answered. -/
def State.answerTile (s : State) (t : Nat) : State :=
  let parts := (s.tile t).reqs.filter (fun (e : Nat × XReq) => e.2.kind == .part)
  let s := parts.foldl (fun (s : State) (e : Nat × XReq) => s.answerPart t e.1 e.2) s
  let own := (s.tile t).reqs.filter (fun (e : Nat × XReq) => e.2.kind != .part && !e.2.done)
  (own.foldl (fun (s : State) (e : Nat × XReq) => s.answerOwn t e.1 e.2) s).after t

/-- The drain bound of a context (R558, R560, R693): requests outstanding are answered, an instance of which a report is
missing completes FENCED, and a command still running ends with STATUS 5. -/
def State.drain (s : State) (c : Nat) : State :=
  let s := (s.tilesRunning c).foldl (fun (s : State) t => s.answerTile t) s
  let s := { s with colls := s.colls.map (fun (i : Coll) =>
    if i.ctx = c ∧ i.refused = 0 ∧ !(s.reports i).all (fun r => bitOf r 0) then { i with refused := 5 } else i) }
  (List.range 8).foldl (fun (s : State) q =>
    if (s.queue c q).phase = 2 ∧ !s.colls.any (fun i => i.ctx == c && i.queue == q) then s.endCmd c q 5 0 0 0 else s) s

/-- Has the drain bound of a context passed? -/
def State.drained (s : State) (c : Nat) : Bool := (s.ctx c).drainAt.any (fun d => d ≤ s.owl.ns)

/-- DRAIN_BOUND. -/
def execDrainBound (c : CtxIx) (s : State) : Host.Outcome State Fault Refusal :=
  .next (if s.fenced c ∧ s.drained c then s.drain c else s)

/-- Is a tile quiesced (R559)? A halted tile is not (R670). -/
def Tile.quiesced (T : Tile) : Bool := T.fld F.DBG_STATUS_HALTED == 0 && T.mq == [] && T.cq == [] && T.xq == [] && T.reqs == [] && T.run == none

/-- Is a context quiesced? (R559) -/
def State.ctxQuiesced (s : State) (c : Nat) : Bool :=
  (s.tilesRunning c).all (fun t => (s.tile t).quiesced) && (List.range 8).all (fun q => (s.queue c q).phase != 2)

/-- Has the quiesce limit of a context passed? (R559) -/
def State.pastQuiesce (s : State) (c : Nat) : Bool := (s.ctx c).drainAt.any (fun d => d + 16 * 256 ≤ s.owl.ns)

/-- QUIESCE_LIMIT (R559): a tile that is not quiesced at the limit is reset. -/
def execQuiesceLimit (t : TileIx) (s : State) : Host.Outcome State Fault Refusal :=
  let c := s.ctxOfTile t
  .next (if s.runsCtx t c ∧ s.fenced c ∧ s.pastQuiesce c ∧ !(s.tile t).quiesced then s.resetTile t else s)

/-! ## Common parts of the steps -/

/-- The IRQ_STATUS bit of the partition in which a reset step ended (R709). -/
def State.stepEnded (s : State) (p : Option Nat) : State :=
  match p with
  | some p => s.irq (irqPart p)
  | none => s

/-- Every timetable that satisfies a test is withdrawn under R535, its launch entries at once (R573), and its RECV flows
close. -/
def State.withdrawAll (s : State) (mine : TTable → Bool) : State :=
  let keys := (s.tables.filter mine).flatMap (fun tb =>
    (tb.entries.filter (fun x => x.kind == 3)).map (fun x => flowKey x.link x.flow))
  (s.closeFlows keys).onTables mine (fun tb => { tb with withdrawn := some (tb.withdrawn.getD s.round), gone := true })

/-- The queued commands of a context are discarded, and each TAIL set to its HEAD (R693). An ended command is still
posted. -/
def State.discardQueues (s : State) (c : Nat) : State :=
  (List.range 8).foldl (fun (s : State) q =>
    let b := queuePage c q
    let s := s.setHf b F.Q_PTR_TAIL (s.hf b F.Q_PTR_HEAD)
    if (s.queue c q).phase = 3 then s else s.onQueue c q (fun _ => HostQ.empty)) s

/-- The fence of a context is cleared. -/
def State.unfence (s : State) (c : Nat) : State :=
  ((s.setCf c F.CTX_FENCE_FENCED 0).setCf c F.CTX_FENCE_RESETTING 0).onCtx c
    (fun C => { C with fenceDue := none, drainAt := none, reset := none })

/-- The granules of a context are released (R522). -/
def State.freeGranules (s : State) (c : Nat) : State :=
  let mine := s.granules.filter (fun (e : Nat × Nat) => e.2 == c + 1)
  mine.foldl (fun (s : State) (e : Nat × Nat) => s.release_ c (e.1 / 2 ^ 24) (e.1 % 2 ^ 24) 1) s

/-- The saved flags of a context are 0 in every block (R573, R696). -/
def State.clearSaved (s : State) (c : Nat) : State := { s with saved := s.saved.keep (fun k => k % 64 != c) }

/-! ## Context reset (R573) -/

/-- A context reset starts: the context is fenced, and RESETTING is set. It takes over the resets of the tiles in its scope.
Inside a wider step, or one of its own, the request is rejected (R554). -/
def State.startCtxReset (s : State) (c cause src : Nat) : State :=
  let p := s.cf c F.CTX_CFG_PART
  if s.cf c F.CTX_CFG_VALID = 0 ∨ (s.part p).step.isSome ∨ s.engReset.isSome ∨ (s.ctx c).reset.isSome then
    s.hostReject (ctxPage c + F.CTX_FENCE_FENCE.reg) src
  else
    let s := if s.pf p F.HIB_STATUS_PHASE = 1 then s.hibMeet p 10 else s
    let ts := s.tilesRunning c
    let s := ts.foldl (fun (s : State) t => s.onTile t (fun T => { T with inReset := false })) s
    let s := { s with captures := s.captures.filter (fun x => !(x.kind == 1 && ts.contains x.id)) }
    let s := if s.fenced c ∨ (s.ctx c).fenceDue.isSome then s else (s.askFence c cause).askCapture 2 cause p c
    (s.setCf c F.CTX_FENCE_RESETTING 1).onCtx c (fun C => { C with reset := some (s.owl.ns, cause) })

/-- The rest of a context reset, once the context has drained and is quiesced or past the quiesce limit (R573). -/
def State.endCtxReset (s : State) (c : Nat) : State :=
  if (s.ctx c).reset.isNone ∨ !s.drained c then s
  else
    let s' := s.drain c
    if !s'.ctxQuiesced c ∧ !s'.pastQuiesce c then s'
    else
      let s := s'.flushCapture 2 c
      let s := s.withdrawAll (fun tb => tb.ctx == c)
      let s := (s.tilesRunning c).foldl (fun (s : State) t => s.resetTile t) s
      let s := ((s.discardQueues c).freeGranules c).clearSaved c
      let s := s.onCtx c (fun C => { C with peer := 0, coll := 0, covered := 0, lag := 0 })
      ((s.unfence c).ctxEvent c F.CTX_EVENT_RESET_DONE).stepEnded (some (s.cf c F.CTX_CFG_PART))

/-- CONTEXT_RESET: the request by CTX_FENCE.RESET, or with `fin` the engine's completion of the step. -/
def execContextReset (c : CtxIx) (fin : Bool) (src : Fin 4) (s : State) : Host.Outcome State Fault Refusal :=
  .next (if fin then s.endCtxReset c else s.startCtxReset c 1 src)

/-- VF_FLR (R552): a Function Level Reset of VF c + 1 resets the function's configuration and starts a reset of context c. -/
def execVfFlr (c : CtxIx) (s : State) : Host.Outcome State Fault Refusal :=
  let s := { s with master := s.master.filter (· != c.val + 1), d3 := s.d3.filter (· != c.val + 1) }
  .next (if s.cf c F.CTX_CFG_VALID = 1 then s.startCtxReset c 7 1 else s)

/-! ## Tile reset (R572) -/

/-- Does a wider step cover a tile? (R554) -/
def State.covered (s : State) (t : Nat) : Bool :=
  s.engReset.isSome || (s.ownerOfTile t).any (fun p => (s.part p).step.isSome) ||
    ((s.tile t).work.isSome && (s.ctx (s.ctxOfTile t)).reset.isSome)

/-- A tile reset on its own starts: the capture is latched, and a context that the tile runs is fenced first. -/
def State.startTileReset (s : State) (t : Nat) : State :=
  let T := s.tile t
  let c := s.ctxOfTile t
  let cause := if T.fld F.TILE_STATUS_DOUBLE = 1 then 2 else 1
  let s := match s.ownerOfTile t with
    | some p => s.hibMeet p 10
    | none => s
  let s := if T.work.isSome then s.askFence c cause else s
  (s.latch 1 cause ((s.ownerOfTile t).getD 0) t).onTile t (fun T => { T with inReset := true, resetAt := s.owl.ns })

/-- A tile reset on its own ends, once the context that the tile runs has drained. -/
def State.endTileReset (s : State) (t : Nat) : State :=
  let c := s.ctxOfTile t
  if (s.tile t).work.isSome ∧ !s.drained c ∨ (s.tile t).power = .hib then s
  else
    let s := if (s.tile t).work.isSome then s.drain c else s
    ((s.flushCapture 1 t).resetTile t).stepEnded (s.ownerOfTile t)

/-- TRESET (R571): RECOV_CTL.TRESET of partition `p`; a tile outside the partition is a reserved encoding, and a request
inside a wider step is rejected. -/
def State.treset (s : State) (p t src : Nat) : State :=
  if s.ownerOfTile t ≠ some p ∨ s.covered t ∨ (s.tile t).inReset then s.hostReject (partPage p + F.RECOV_CTL_RESET.reg) src
  else s.startTileReset t

/-- TRESET. -/
def execTreset (p : PartIx) (t : BitVec 14) (src : Fin 4) (s : State) : Host.Outcome State Fault Refusal :=
  .next (s.treset p t.toNat src)

/-- TILE_RESET (R144, R572): a double fault starts the reset, and the engine completes one that has started. A wider step
that covers the tile resets it itself. -/
def execTileReset (t : TileIx) (s : State) : Host.Outcome State Fault Refusal :=
  .next (if s.covered t then s
  else if (s.tile t).inReset then s.endTileReset t
  else if (s.tile t).fld F.TILE_STATUS_DOUBLE = 1 then s.startTileReset t else s)

/-! ## Partition reset (R575 to R577) -/

/-- A partition reset starts (R554, R575): it takes over the steps inside its scope, fences every valid context, and its
capture is latched. -/
def State.startPartReset (s : State) (p cause : Nat) : State :=
  let cs := s.ctxsOf p
  let s := s.hibMeet p 10
  let s := cs.foldl (fun (s : State) c =>
    ((s.setCf c F.CTX_FENCE_RESETTING 0).onCtx c (fun C => { C with reset := none })).askFence c cause) s
  let s := { s with captures := s.captures.filter (fun x =>
    !((x.kind == 2 && cs.contains x.id) || (x.kind == 1 && s.ownerOfTile x.id == some p))) }
  let s := (s.tilesOf p).foldl (fun (s : State) t => s.onTile t (fun T => { T with inReset := false })) s
  let s := ((s.setPf p F.PART_STATUS_STATE 1).setPf p F.RECOV_STATUS_STEP 1).askCapture 3 cause p p
  s.onPart p (fun P => { P with step := some (s.owl.ns, cause), mode := 0 })

/-- A request for a partition reset (R554, R571): of a partition that is NONE, or inside a step in progress, it is
rejected. -/
def State.partReset (s : State) (p cause src : Nat) : State :=
  if s.pstate p = 0 ∨ (s.part p).step.isSome ∨ s.engReset.isSome then s.hostReject (partPage p + F.RECOV_CTL_RESET.reg) src
  else s.startPartReset p cause

/-- PARTITION_RESET_CMD: RECOV_CTL.RESET. The contexts are fenced with CAUSE 5 (R562). -/
def execPartitionResetCmd (p : PartIx) (src : Fin 4) (s : State) : Host.Outcome State Fault Refusal :=
  .next (s.partReset p 5 src)

/-- The blocks whose map entries say that they are vacant, counted. -/
def State.vacantBlocks (s : State) : Nat := ((List.range 720).filter (fun b => s.vacant b)).length

/-- The entry of a tile that moves to physical block `pb` and tile `pt`, its array with column 32 disabled. -/
def moveEntry (e pb pt : Nat) : Nat := setBits (setBits (setBits e 6 4 pb) 10 4 pt) 14 6 32

/-- A logical block becomes vacant (R40, R41): its tiles are out of service, and its entries keep the place last in service. -/
def State.vacateBlock (s : State) (b : Nat) : State :=
  (tilesOfBlock b).foldl (fun (s : State) t =>
    (s.setMap t (setBits (s.mapEntry t) 24 2 1)).onTile t (fun T => { T with out := true })) s

/-- A logical block takes its quarter's spare block, zero-filled, its tiles in increasing physical tile index (R46, R404, R576). -/
def State.takeSpare (s : State) (b : Nat) : State :=
  let q := quarterOfBlock b
  let old := (tilesOfBlock b).map s.mapEntry
  let s := ((tilesOfBlock b).zipIdx).foldl (fun (s : State) (x : Nat × Nat) => s.setMap x.1 (moveEntry (s.mapEntry x.1) 15 x.2)) s
  { s with spareBlocks := insertNat q s.spareBlocks, spareTiles := s.spareTiles.filter (· != b),
           spareTook := s.spareTook.put q (s.owl.ns, b, old) }.zeroMem (b * 2 ^ 35) blockBytes

/-- The block that took its quarter's spare in this tick loses it to one with a lower lblock (R39): it is vacant in the place it
had before. -/
def State.yieldSpare (s : State) (b : Nat) (old : List Nat) : State :=
  (((tilesOfBlock b).zip old).foldl (fun (s : State) (x : Nat × Nat) => s.setMap x.1 x.2) s).vacateBlock b

/-- A logical block needs a replacement (R37, R39, R40): its marks go with it, and it takes its quarter's spare block, or becomes
vacant where the spare is in use. -/
def State.spareBlock (s : State) (b : Nat) : State :=
  let s := (tilesOfBlock b).foldl (fun (s : State) t => s.onTile t (fun T => { T with marked := false })) s
  let s := { s with markCols := s.markCols.keep (fun t => blockOfTile t != b), spentCols := s.spentCols.filter (fun t => blockOfTile t != b) }
  let s := (s.onBlock b (fun _ => BlockSt.empty)).setHost (blockPage b + F.MEM_STATUS_RETIRE.reg) (hostDflt (blockPage b + F.MEM_STATUS_RETIRE.reg))
  match s.spareTook.find (quarterOfBlock b) with
  | none => s.takeSpare b
  | some (at_, b', old) =>
    if at_ = s.owl.ns ∧ lblockOf b < lblockOf b' then (s.yieldSpare b' old).takeSpare b else s.vacateBlock b

/-- A logical tile takes its block's spare tile, or with that in use the block is replaced (R40, R576). -/
def State.spareTile (s : State) (t : Nat) : State :=
  let b := blockOfTile t
  if s.spareTiles.contains b then s.spareBlock b
  else
    let s := s.setMap t (moveEntry (s.mapEntry t) (bitsOf (s.mapEntry t) 6 4) 15)
    ({ s with spareTiles := insertNat b s.spareTiles, markCols := s.markCols.del t,
              spentCols := s.spentCols.filter (· != t) } : State).onTile t (fun T => { T with marked := false })

/-- Has a tile's array no spare column left: column 32 is in service, or has failed its test (R38)? -/
def State.noColumn (s : State) (t : Nat) : Bool := bitsOf (s.mapEntry t) 14 6 != 32 || s.spentCols.contains t

/-- A failing array column: the spare column replaces it, or with none left the tile is replaced (R40, R583). Column 32 that
fails while it is disabled is retired in its place. -/
def State.spareColumn (s : State) (t c : Nat) : State :=
  if c = bitsOf (s.mapEntry t) 14 6 then (if c = 32 then { s with spentCols := insertNat t s.spentCols } else s)
  else if s.noColumn t then s.spareTile t
  else { s.setMap t (setBits (s.mapEntry t) 14 6 c) with markCols := s.markCols.del t }

/-- A built-in test finds a failing column, or another failure of a tile: the unit is replaced at once. -/
def State.replaceFound (s : State) (x : TileIx × Option (Fin 33)) : State :=
  match x.2 with
  | some c => s.spareColumn x.1 c
  | none => s.spareTile x.1

/-- What a test finds in a unit that stays in service until the next reset is marked (R583): the column, or the tile where it has
no spare column. -/
def State.markFound (s : State) (x : TileIx × Option (Fin 33)) : State :=
  let tile := fun (s : State) => s.onTile x.1 (fun T => { T with marked := true })
  match x.2 with
  | some c =>
    if c.val = bitsOf (s.mapEntry x.1) 14 6 then s.spareColumn x.1 c
    else if s.noColumn x.1 then tile s else { s with markCols := s.markCols.put x.1 c.val }
  | none => tile s

/-- Insert into a rising list of numbers, for sorting. -/
def sortNat (l : List Nat) : List Nat := l.foldl (fun a x => insertNat x a) []

/-- The unit of a tile that is marked for retirement is replaced (R576). -/
def State.replaceMarked (s : State) (t : Nat) : State :=
  if s.vacant (blockOfTile t) then s
  else if (s.block (blockOfTile t)).retire then s.spareBlock (blockOfTile t)
  else if (s.tile t).marked then s.spareTile t
  else match s.markCols.find t with
    | some c => s.spareColumn t c
    | none => s

/-- Marked units of the tiles `ts` are replaced, in ascending tile_index. Then come the built-in tests (R576): what they find in a
unit that has been brought in, or with `all` in any tile, is replaced by the next wider spare; what they find in a unit that has
been in service before is marked (R583). -/
def State.bringIn (s : State) (ts : List Nat) (found : List (TileIx × Option (Fin 33))) (all : Bool) : State :=
  let old := s
  let s := (sortNat ts).foldl (fun (s : State) t => s.replaceMarked t) s
  found.foldl (fun (s : State) (x : TileIx × Option (Fin 33)) =>
    if !ts.contains x.1 ∨ s.vacant (blockOfTile x.1) then s
    else if all ∨ s.mapEntry x.1 ≠ old.mapEntry x.1 then s.replaceFound x else s.markFound x) s

/-- The map generation rises if the map has changed (R49), and every provenance cache is emptied (R600). -/
def State.newMap (s old : State) : State :=
  if s.map = old.map then s
  else (List.range 16).foldl (fun (s : State) p => s.provClear p) (s.setEf F.DUM_INFO_GENERATION (s.ef F.DUM_INFO_GENERATION + 1))

/-- A partition reset ends in NONE because a block has become vacant (R577). -/
def State.vacate (s : State) (p : Nat) : State :=
  let s := (s.ctxsOf p).foldl (fun (s : State) c => (s.freeGranules c).setCf c F.CTX_CFG_VALID 0) s
  let s := (List.range 256).foldl (fun (s : State) g =>
    if s.hf (groupPage g) F.GRP_CTRL_VALID = 1 ∧ s.hf (groupPage g) F.GRP_CTRL_PART = p then
      s.setHost (groupPage g) (hostDflt (groupPage g))
    else s) s
  let s := (List.range 64).foldl (fun (s : State) l =>
    s.setHf (linkPage l) F.LINK_OWNER_PARTS (Nat.land (s.hf (linkPage l) F.LINK_OWNER_PARTS) (65535 - 2 ^ p))) s
  (s.setPf p F.PART_STATUS_STATE 0).setPf p F.RECOV_STATUS_VACATED 1

/-- A partition whose reset ended in this tick, and which lost the spare block to partition `p` (R39), ends in NONE (R577). -/
def State.vacateOthers (s : State) (p : Nat) : State :=
  (List.range 16).foldl (fun (s : State) k =>
    if k ≠ p ∧ s.pstate k = 2 ∧ (s.blocksOf k).any (fun b => s.vacant b) then s.vacate k else s) s

/-- The length of a partition reset in µs, rounded up (R578). -/
def State.lastUs (s : State) (p start : Nat) : State := s.setPf p F.RECOV_STATUS_LAST_US (satTo 20 (ceilDiv (s.owl.ns - start) 1000))

/-- The reset of a partition is over: no step runs, and its interrupt is raised. -/
def State.partDone (s : State) (p start : Nat) : State :=
  let s := ((s.lastUs p start).setPf p F.RECOV_STATUS_STEP 0).onPart p (fun P => { P with step := none, mode := 0 })
  s.irq (irqPart p)

/-- Phases 1 to 3 of a partition reset (R575): drain, capture, withdrawal, and open instances end FENCED. -/
def State.partDrain (s : State) (p : Nat) : State :=
  let s := (s.ctxsOf p).foldl (fun (s : State) c => s.drain c) s
  let s := (s.flushCapture 3 p).withdrawAll (fun tb => tb.part == p)
  { s with colls := s.colls.map (fun (i : Coll) => if i.part = p ∧ i.refused = 0 then { i with refused := 5 } else i) }

/-- The end of a partition reset (R575 to R577), of a CREATE or of a DESTROY (R516), with what the built-in tests find. -/
def State.endPartReset (s : State) (p : Nat) (found : List (TileIx × Option (Fin 33))) : State :=
  match (s.part p).step with
  | none => s
  | some (start, _) =>
    let mode := (s.part p).mode
    if mode = 0 ∧ s.owl.ns < start + s.ef F.RECOV_CFG_DRAIN_BEATS * 256 ∨ (s.ctxsOf p).any (fun c => !s.drained c) ∧ mode = 0 ∨
        (1 ≤ s.pf p F.HIB_STATUS_PHASE ∧ s.pf p F.HIB_STATUS_PHASE ≤ 3) then s
    else
      let old := s
      let s := if mode = 0 then s.partDrain p else s
      let s := (s.setPf p F.HIB_STATUS_PHASE 0).setPf p F.PART_PAD_RELEASE_HELD 0
      let s := (s.tilesOf p).foldl (fun (s : State) t => s.resetTile t) s
      if mode = 2 then (s.setPf p F.PART_STATUS_STATE 0).partDone p start
      else
        let s := ((s.bringIn (s.tilesOf p) found false).newMap old)
        let s := s.vacateOthers p
        let s := s.provClear p
        let s := (s.ctxsOf p).foldl (fun (s : State) c => (s.discardQueues c).unfence c) s
        if (s.blocksOf p).any (fun b => s.vacant b) then (s.vacate p).partDone p start
        else
          let s := (s.tilesOf p).foldl (fun (s : State) t => s.onTile t (fun T => T.setFld F.TILE_STATUS_OPSTATE 0)) s
          (s.setPf p F.PART_STATUS_STATE 2).partDone p start

/-- PARTITION_RESET: the engine completes the step. -/
def execPartitionReset (p : PartIx) (found : List (TileIx × Option (Fin 33))) (s : State) : Host.Outcome State Fault Refusal :=
  .next (s.endPartReset p found)

/-! ## CREATE and DESTROY (R515, R516) -/

/-- A command in PART_CTL is refused with a code. -/
def State.partRefuse (s : State) (p code : Nat) : State := (s.setPf p F.PART_STATUS_REFUSE code).setPf p F.PART_STATUS_REFUSED 1

/-- The codes of R515 that apply to CREATE. -/
def State.createCode (s : State) (p : Nat) : Nat :=
  let r := s.rect p
  let bs := s.blocksOf p
  if r.2.1 = 0 ∨ r.2.2.2 = 0 ∨ 24 < r.1 + r.2.1 ∨ 30 < r.2.2.1 + r.2.2.2 then 1
  else if s.pstate p ≠ 0 then 2
  else if bs.any (fun b => (s.ownerOfBlock b).isSome) then 3
  else if bs.any (fun b => s.vacant b) then 4 else 0

/-- CREATE: the partition enters RESET, and its reset starts at phase 4. -/
def State.create (s : State) (p src : Nat) : State :=
  if s.ef F.BOOT_STATUS_STAGE ≠ 8 ∨ s.engReset.isSome then s.hostReject (partPage p + F.PART_CTL_CMD.reg) src
  else
    let code := s.createCode p
    if code ≠ 0 then s.partRefuse p code
    else ((s.setPf p F.PART_STATUS_STATE 1).setPf p F.RECOV_STATUS_STEP 3).onPart p
      (fun P => { P with step := some (s.owl.ns, 5), mode := 1 })

/-- CREATE. -/
def execCreate (p : PartIx) (src : Fin 4) (s : State) : Host.Outcome State Fault Refusal := .next (s.create p src)

/-- Does a partition still hold something (R515, code 5)? -/
def State.partHolds (s : State) (p : Nat) : Bool :=
  s.ctxsOf p != [] || s.tables.any (fun tb => tb.part == p) ||
    (List.range 64).any (fun l => bitOf (s.hf (linkPage l) F.LINK_OWNER_PARTS) p) ||
    (List.range 256).any (fun g => s.hf (groupPage g) F.GRP_CTRL_VALID == 1 && s.hf (groupPage g) F.GRP_CTRL_PART == p)

/-- DESTROY: the tiles are reset, and the partition returns to NONE. -/
def State.destroy (s : State) (p src : Nat) : State :=
  if s.ef F.BOOT_STATUS_STAGE ≠ 8 ∨ s.engReset.isSome ∨ (s.part p).step.isSome then
    s.hostReject (partPage p + F.PART_CTL_CMD.reg) src
  else if s.pstate p ≠ 0 ∧ s.partHolds p then s.partRefuse p 5
  else if s.pstate p = 0 then s.partRefuse p 6
  else ((s.setPf p F.PART_STATUS_STATE 1).setPf p F.RECOV_STATUS_STEP 3).onPart p
    (fun P => { P with step := some (s.owl.ns, 5), mode := 2 })

/-- DESTROY. -/
def execDestroy (p : PartIx) (src : Fin 4) (s : State) : Host.Outcome State Fault Refusal := .next (s.destroy p src)

end Sys2Proof.Machine
end

