-- ==== Sys2Proof/Machine/DebugTile.lean ====
section
/-!
DEFINITION. Access frames to a tile (R661 to R664): the part of DBG_ACCESS that may wait for a wake.
-/
namespace Sys2Proof.Machine

/-- The fields of an access frame (R661). -/
def frameData (f : Nat) : Nat := bitsOf f 0 64
/-- ADDR. -/
def frameAddr (f : Nat) : Nat := bitsOf f 64 24
/-- TILE. -/
def frameTile (f : Nat) : Nat := bitsOf f 88 14
/-- TARGET: 0 control space, 1 tile store, 2 host registers. -/
def frameTarget (f : Nat) : Nat := bitsOf f 102 2
/-- OP. -/
def frameOp (f : Nat) : Nat := bitsOf f 104 3

/-- What the next Capture-DR loads: DATA, the frame's other fields, and RESULT; bit 111 while the command runs. -/
def captureFrame (f data result : Nat) (busy : Bool) : Nat :=
  setBits (setBits (setBits f 0 64 data) 107 4 result) 111 1 (b2n busy)

/-- A reserved value or bit, a TILE or an address that does not exist (RESULT 3). -/
def frameBad (op f : Nat) : Bool :=
  let a := frameAddr f
  4 ≤ op || frameTarget f == 3 || bitsOf f 107 5 != 0 ||
    (op != 0 && match frameTarget f with
      | 0 => 10800 ≤ frameTile f || (findReg tileRegs a).isNone
      | 1 => 10800 ≤ frameTile f || storeEnd ≤ a || a % 8 != 0
      | _ => false)

/-- The answer of a command stands in the data register. -/
def State.tapAnswer (s : State) (f data result : Nat) : State :=
  { s with tap := { s.tap with ir := 0x10, dr := captureFrame f data result false } }

/-- Perform PEEK (1), TAKE (2) or WRITE (3) on a tile (R662 to R664). No tile register has a read side effect. -/
def State.debugTile (s : State) (op f : Nat) : State :=
  let t := frameTile f
  let a := frameAddr f
  let T := s.tile t
  if frameTarget f = 0 then
    if op = 3 then (s.writeCtl t a (frameData f) 2).tapAnswer f 0 0
    else s.tapAnswer f (s.readCtl t a).toNat 0
  else if op = 3 then (s.onTile t (fun T => T.poke a 8 (frameData f))).tapAnswer f 0 0
  else if T.hasUE a 8 then s.tapAnswer f 0 5
  else s.tapAnswer f (T.peek a 8) 0

/-- A command that waited for the wake of a partition is performed (R629, RESULT 6). -/
def State.debugRelease (s : State) : State :=
  match s.tap.held with
  | none => s
  | some f =>
    if (s.tile (frameTile f)).power = .hib then s
    else ({ s with tap := { s.tap with held := none } } : State).debugTile (frameOp f) f

end Sys2Proof.Machine
end

