-- ==== Sys2Proof/Machine/Wide.lean ====
section
/-!
DEFINITION. Recovery steps of the engine (R553, R579, R580), the Badgers (R566 to R570), and the loss of the host (R584).
-/
namespace Sys2Proof.Machine

/-! ## Engine reset (R579) -/

/-- An engine reset starts: it takes over every step, fences every context and latches its capture. -/
def State.startEngine (s : State) (cause : Nat) : State :=
  let s := (List.range 16).foldl (fun (s : State) p =>
    let s := if s.pf p F.HIB_STATUS_PHASE = 1 then s.hibAbort p 10 0 0 else s
    s.onPart p (fun P => { P with step := none, mode := 0 })) s
  let s := (List.range 64).foldl (fun (s : State) c =>
    if s.cf c F.CTX_CFG_VALID = 1 then
      ((s.setCf c F.CTX_FENCE_RESETTING 0).onCtx c (fun C => { C with reset := none })).askFence c cause
    else s) s
  let s := ({ s with captures := [] } : State).askCapture 4 cause 0 0
  let s := ((s.setEf F.RESET_LOG_KIND 1).setEf F.RESET_LOG_CAUSE cause).setEf F.RESET_TIME_NS s.owl.ns
  { s with engReset := some (s.owl.ns, cause) }

/-- Is a register in the always-on domain: one with fields that an engine reset leaves as they are (R26, "—"), or TIME_REF_CFG
(R74)? -/
def alwaysOn (a : Nat) : Bool :=
  a == F.TIME_REF_CFG_PTP_EN.reg || match hostReg a with
  | some r => r.fields.any (·.keeps == .always)
  | none => false

/-- The Reset value of a host register with what an engine reset leaves as it is: always-on fields (R26, R579), and fields that
are loaded from part data, which hold what the field held (R26, entry P). TIME_REF_CFG is in the always-on domain (R74), whose
registers continue (R579, R704). -/
def keptWord (a : Nat) (w : Word) : Word :=
  match hostReg a with
  | none => hostDflt a
  | some r =>
    if a = F.TIME_REF_CFG_PTP_EN.reg then w
    else (r.fields.filter (·.keeps != .no)).foldl (fun (x : Word) f => setWordField x f.fld.lo f.fld.width (wordField w f.fld.lo f.fld.width))
      (hostDflt a)

/-- The registers after an engine reset. -/
def keptRegs (m : NMap Word) : NMap Word := m.foldl (fun (n : NMap Word) e => n.set hostDflt e.1 (keptWord e.1 e.2)) []

/-- Every tile after an engine reset: its generations at 0, its mark kept until the unit is replaced. -/
def State.freshTiles (s : State) (plevel : Nat) : NMap Tile :=
  NMap.tabulate tileDflt 10800 (fun t => (s.tile t).unitKept.startEpoch s.owl.ns plevel)

/-- What an engine reset keeps of a block: the spares in use, which are part data (R49), and its mark. -/
def BlockSt.kept (B : BlockSt) : BlockSt :=
  { BlockSt.empty with sparesUsed := B.sparesUsed, bondsUsed := B.bondsUsed, bare := B.bare, retire := B.retire }

/-- The Reset value of PWR_PLVL.TARGET and CURRENT (R636): P0, and P1 on a VB-DW1-S40, which never runs at P0 (R7). -/
def State.lowestLevel (s : State) : Nat := if s.ef F.ENGINE_INFO_GRADE = 2 then 1 else 0

/-- Everything outside the always-on domain is reset (R579), and BOOT_STATUS restarts at stage 4. -/
def State.resetEngine (s : State) : State :=
  let old := s
  let s := { s with regs := keptRegs s.regs, links := [], flows := [], tables := [], shares := (16, 16, 16), queues := [],
                    colls := [], posted := [], windows := [], granules := [], parts := [], ctxs := [], captures := [],
                    changes := [], saved := [], trace := [], dropped := 0, admCount := 1, homes := [],
                    blocks := s.blocks.mapv (fun _ => BlockSt.empty) (fun _ B => B.kept) }
  let lvl := s.lowestLevel
  let s := (s.setEf F.PWR_PLVL_TARGET lvl).setEf F.PWR_PLVL_CURRENT lvl
  let s := { s with tiles := old.freshTiles lvl }
  ((s.setEf F.BOOT_STATUS_STAGE 4).setEf F.BOOT_STATUS_ERROR 0).setEf F.BOOT_STATUS_DEBUG_OPEN 0

/-- The engine completes steps 1 to 3 of R579 once the drain bound has passed. -/
def State.endEngine (s : State) : State :=
  match s.engReset with
  | none => s
  | some (start, _) =>
    if s.ef F.BOOT_STATUS_STAGE < 8 ∨ s.owl.ns < start + s.ef F.RECOV_CFG_DRAIN_BEATS * 256 ∨
        (List.range 64).any (fun c => s.cf c F.CTX_CFG_VALID == 1 && !s.drained c) then s
    else
      let s := (List.range 64).foldl (fun (s : State) c => if s.fenced c then s.drain c else s) s
      (s.flushCapture 4 0).resetEngine

/-- The engine asks the tray to cycle the 48 V input (R580, R726). -/
def State.requestCycle (s : State) (cause : Nat) : State :=
  { s with module := { s.module with cycleReq := true, cycleCause := cause } }

/-- A write to ENGINE_RESET (R581): KEY 0x5A3C starts an engine reset, or with CYCLE requests a power cycle. -/
def State.writeEngineReset (s : State) (w src : Nat) : State :=
  let before := s
  let s := if w / 2 ^ 17 ≠ 0 ∨ w % 65536 ≠ 0x5A3C then s.hostReject F.ENGINE_RESET_KEY.reg src else s
  if w % 65536 ≠ 0x5A3C then s
  else if bitOf w 16 then s.requestCycle 1
  else if s.engReset.isSome then (s.hostReject F.ENGINE_RESET_KEY.reg src).onceRejected before else s.startEngine 1

/-- ENGINE_RESET: the write that starts it, or with `fin` the engine's completion of steps 1 to 3. Bring-up follows. -/
def execEngineReset (w : BitVec 64) (fin : Bool) (src : Fin 4) (s : State) : Host.Outcome State Fault Refusal :=
  .next (if fin then s.endEngine else s.writeEngineReset w.toNat src)

/-- POWER_CYCLE_REQUEST: ENGINE_RESET.CYCLE (R580). -/
def execPowerCycleRequest (s : State) : Host.Outcome State Fault Refusal := .next (s.requestCycle 1)

/-! ## Escalation (R553) -/

/-- What each beat of DRAIN_BEATS above 128 adds to a bound (R552). -/
def State.longDrain (s : State) : Nat := (s.ef F.RECOV_CFG_DRAIN_BEATS - 128) * 256

/-- Does a partition reset bring in a spare block? -/
def State.needsBlock (s : State) (p : Nat) : Bool :=
  (s.blocksOf p).any (fun b =>
    !s.spareBlocks.contains (quarterOfBlock b) && ((s.block b).retire ||
      (s.spareTiles.contains b && (tilesOfBlock b).any (fun t => (s.tile t).marked || ((s.markCols.find t).isSome && s.noColumn t)))))

/-- A wider step: the partition reset of a partition, with ESCALATED, or an engine reset. -/
def State.escalatePart (s : State) (p : Option Nat) : State :=
  match p with
  | some p => (s.setPf p F.RECOV_STATUS_ESCALATED 1).startPartReset p 4
  | none => s.startEngine 4

/-- Has a recovery step in progress missed its bound (R552)? -/
def State.missedBound (s : State) (u : StepIx) : Bool :=
  let missed := fun (start bound : Nat) => decide (start + bound + s.longDrain < s.owl.ns)
  match u with
  | .context c => (s.ctx c).reset.any (fun r => missed r.1 400000)
  | .tile t => (s.tile t).inReset && decide ((s.tile t).resetAt + 200000 < s.owl.ns)
  | .part p => (s.part p).step.any (fun r => missed r.1 (if s.needsBlock p then 4910000 else 750000))
  | .engine => s.engReset.any (fun r => missed r.1 50000000)

/-- A step that has missed its bound is abandoned, and a wider one starts; with AUTO_ESC 0, and for an engine reset with
AUTO_CYCLE 0, the miss is reported over management and the step runs on (R553). -/
def State.escalate (s : State) (u : StepIx) : State :=
  if !s.missedBound u then s
  else if s.ef F.RECOV_CFG_AUTO_ESC = 0 then s.report (.stepMissed u)
  else match u with
    | .context c => s.escalatePart (some (s.cf c F.CTX_CFG_PART))
    | .tile t => s.escalatePart (s.ownerOfTile t)
    | .part p => (s.startEngine 4).setPf p F.RECOV_STATUS_ESCALATED 1
    | .engine => if s.ef F.RECOV_CFG_AUTO_CYCLE = 1 then s.requestCycle 4 else s.report (.stepMissed u)

/-- ESCALATION. -/
def execEscalation (u : StepIx) (s : State) : Host.Outcome State Fault Refusal := .next (s.escalate u)

/-! ## Badgers -/

/-- A Badger of partition `p` fires (R567, R568, R570): KIND, QUEUE, CTX and TILE of BADGER_STATUS. It acts in the firing tick
(R568), the fences among it, as the worked hang shows. -/
def State.badger (s : State) (p kind queue c tile : Nat) : State :=
  let set := fun (s : State) => (((((s.setPf p F.BADGER_STATUS_HUNG 1).setPf p F.BADGER_STATUS_KIND kind).setPf p
    F.BADGER_STATUS_QUEUE queue).setPf p F.BADGER_STATUS_CTX c).setPf p F.BADGER_STATUS_TILE tile)
  let s := if s.pf p F.BADGER_STATUS_HUNG = 1 then s.setPf p F.BADGER_STATUS_MULTI 1 else set s
  let s := s.irq (irqPart p)
  if s.pf p F.BADGER_LIMIT_ACTION = 0 then s
  else if s.pf p F.RECOV_CTL_SOLO_EN = 1 ∧ s.pf p F.RECOV_CTL_SOLO_CTX = c then
    ((s.setCf c F.CTX_FENCE_GUILTY 1).startCtxReset c 8 0).actFences [c] (fun x => x.kind == 2 && x.id == c)
  else
    let hung := fun x => (List.range 8).any (fun q => (s.queue x q).phase == 2 || ((s.queue x q).phase == 1 && (s.queue x q).waitFrom.isSome))
    let s := ((s.ctxsOf p).filter hung).foldl (fun (s : State) x => s.setCf x F.CTX_FENCE_SUSPECT 1) s
    if (s.part p).step.isSome then s
    else (s.startPartReset p 3).actFences (s.ctxsOf p) (fun x => x.kind == 3 && x.id == p)

/-- Do the Badgers of a partition watch (R566, R569)? -/
def State.watching (s : State) (p : Nat) : Bool :=
  s.pf p F.BADGER_LIMIT_EN == 1 && s.pstate p == 2 && (s.part p).step.isNone && s.engReset.isNone

/-- Does the Badger of queue `q` (0 S to 3 X) of a tile watch? (R566) -/
def State.queueWatched (s : State) (t q : Nat) : Bool :=
  let T := s.tile t
  T.fld F.TILE_STATUS_OPSTATE == 0 && T.fld F.DBG_STATUS_HALTED == 0 && !s.covered t && !T.inReset &&
  match q with
  | 0 => match T.barrier with
    | .twait _ | .wait => false
    | _ => true
  | 1 => T.mq != [] || T.run.any (·.epilogue)
  | 2 => T.cq != [] || T.run.any (fun r => !r.epilogue)
  | _ => T.xq != [] || T.reqs != []

/-- BADGER_FIRE (R567): at a beat boundary. That a queue of a tile has made no progress for QUEUE_BEATS beats is the
sender's claim; for a command queue the time is checked. -/
def State.badgerFire (s : State) (u : BadgerIx) : State :=
  if s.owl.ns % 256 ≠ 0 then s
  else match u with
    | .queue t q =>
      match s.ownerOfTile t with
      | some p => if s.watching p ∧ s.queueWatched t q then s.badger p 0 (q.val + 1) (s.ctxOfTile t) t else s
      | none => s
    | .command c q =>
      let p := s.cf c F.CTX_CFG_PART
      let Q := s.queue c q
      let solo := s.pf p F.RECOV_CTL_SOLO_EN == 0 || s.pf p F.RECOV_CTL_SOLO_CTX == c.val
      if s.cf c F.CTX_CFG_VALID = 1 ∧ s.watching p ∧ solo ∧ (Q.phase = 2 ∨ (Q.phase = 1 ∧ Q.waitFrom.isSome)) ∧
          Q.watch.any (fun f => f + s.pf p F.BADGER_LIMIT_CMD_ROUNDS * 1048576 ≤ s.owl.ns) then s.badger p 1 q c 0
      else s

/-- BADGER_FIRE. -/
def execBadgerFire (u : BadgerIx) (s : State) : Host.Outcome State Fault Refusal := .next (s.badgerFire u)

/-! ## The host (R584) -/

/-- The configuration space of every function takes its initial values: Bus Master Enable, VF Enable and the power state. -/
def State.resetConfig (s : State) : State := { s with vfs := [], master := [], d3 := [] }

/-- PCIE_LINK_DOWN. -/
def execPcieLinkDown (s : State) : Host.Outcome State Fault Refusal :=
  .next (({ s with linkUp := false } : State).resetConfig.setEf F.RESET_LOG_HOST_LOST 1)

/-- PCIE_HOT_RESET. -/
def execPcieHotReset (s : State) : Host.Outcome State Fault Refusal := .next (s.resetConfig.setEf F.RESET_LOG_HOST_LOST 1)

/-- PF_FLR: a Function Level Reset of the PF starts an engine reset with CAUSE 7. -/
def execPfFlr (s : State) : Host.Outcome State Fault Refusal :=
  let s := s.resetConfig.setEf F.RESET_LOG_HOST_LOST 1
  .next (if s.engReset.isSome then s.hostReject F.ENGINE_RESET_KEY.reg 1 else s.startEngine 7)

/-- PERST (R702): PERST# is asserted or deasserted; stage 2 of bring-up waits for the deassertion. An assertion resets the
configuration space. -/
def execPerst (asserted : Bool) (s : State) : Host.Outcome State Fault Refusal :=
  let s := { s with module := { s.module with perst := asserted } }
  .next (if asserted then s.resetConfig else s)

end Sys2Proof.Machine
end

