-- ==== Sys2Proof/Machine/PowerSt.lean ====
section
/-!
DEFINITION. P-levels (R602 to R606), Doze and Den as they are entered and left (R608 to R618), Hibernate (R619 to R629) and
the pads (R628).
-/
namespace Sys2Proof.Machine

/-! ## P-level -/

/-- The reason for which a change of level is refused (R604), 0 for none. -/
def State.plevelReason (s : State) : Nat :=
  if s.tables ≠ [] then 1
  else if s.ef F.PWR_PLVL_PEND = 1 then 2
  else if s.owl.stepOk.isSome then 3
  else if (List.range 16).any (fun p => s.pf p F.HIB_STATUS_PHASE == 1 || s.pf p F.HIB_STATUS_PHASE == 3) then 4 else 0

/-- A write of `w` to PWR_PLVL (R604, R605, R636): its other fields by their access codes, then the request. -/
def State.writePlvl (s : State) (w src : Nat) : State :=
  let before := s
  let target := bitsOf w 0 2
  let noP0 : Bool := s.ef F.ENGINE_INFO_GRADE == 2 && target == 0
  let s := s.writeHost F.PWR_PLVL_TARGET.reg (setBits w 0 2 (s.ef F.PWR_PLVL_TARGET)) src noBad
  let s := if noP0 then s.hostReject F.PWR_PLVL_TARGET.reg src else s
  if noP0 then s.onceRejected before
  else if target = s.plevel ∧ s.ef F.PWR_PLVL_PEND = 0 then s.setEf F.PWR_PLVL_TARGET target
  else if s.plevelReason ≠ 0 then (s.setEf F.PWR_PLVL_REASON s.plevelReason).setEf F.PWR_PLVL_REFUSED 1
  else ((s.setEf F.PWR_PLVL_TARGET target).setEf F.PWR_PLVL_PEND 1).setEf F.PWR_PLVL_AT_ROUND
    (ceilDiv (s.owl.ns + 65536) 1048576)

/-- PLEVEL_REQUEST. -/
def execPlevelRequest (w : BitVec 64) (src : Fin 4) (s : State) : Host.Outcome State Fault Refusal :=
  .next (s.writePlvl w.toNat src)

/-- A tile loads CLK_EPOCH at a round boundary (R100, R605). -/
def Tile.newEpoch (T : Tile) (tick mult : Nat) : Tile :=
  let n := T.nominal tick
  ((T.setFld F.CLK_EPOCH_BEAT (tick / 256)).setFld F.CLK_EPOCH_MULT mult).setCtl F.CLK_EPOCH_CYC_CYC.reg (BitVec.ofNat 64 n)

/-- PLEVEL_CHANGE (R605): at the round of AT_ROUND the level is in force, and every tile loads CLK_EPOCH. A wake from
Hibernate that waited for the change starts (R629). -/
def execPlevelChange (s : State) : Host.Outcome State Fault Refusal :=
  .next (if s.ef F.PWR_PLVL_PEND = 1 ∧ s.ef F.PWR_PLVL_AT_ROUND ≤ s.round then
    let level := s.ef F.PWR_PLVL_TARGET
    let tick := s.ef F.PWR_PLVL_AT_ROUND * 1048576
    let s := (s.setEf F.PWR_PLVL_CURRENT level).setEf F.PWR_PLVL_PEND 0
    let s := { s with tiles := NMap.tabulate tileDflt 10800 (fun t => (s.tile t).newEpoch tick (plMult level)) }
    (List.range 16).foldl (fun (s : State) p =>
      match (s.part p).wake with
      | some (_, source, at_) => if s.pf p F.HIB_STATUS_PHASE = 2 then s.hibStartAt p source at_ else s
      | none => s) s
  else s)

/-! ## Doze -/

/-- Is a tile idle (R608), that no wake source arrives apart? -/
def Tile.idle (T : Tile) : Bool :=
  (match T.barrier with
    | .tsync _ => false
    | _ => true) && T.mq == [] && T.cq == [] && T.run.isNone && (T.xq == [] || (T.xq.length == 1 && T.stampAt.isSome))

/-- DOZE_ENTRY (R608, R610): a tile that waits in `wait` dozes once it is idle; another after IDLE_CYCLES idle tile cycles,
which is the sender's claim. -/
def execDozeEntry (t : TileIx) (s : State) : Host.Outcome State Fault Refusal :=
  let T := s.tile t
  .next (if T.power = .on ∧ T.idle ∧ !s.resvLive t ∧ T.fld F.DBG_STATUS_HALTED = 0 ∧ T.den = none ∧
      (T.dozing ∨ (T.barrier ≠ .wait ∧ T.fld F.DOZE_CFG_IDLE_CYCLES ≠ 0)) then
    s.setTile t { T.stopClock s.owl.ns with power := .doze }
  else s)

/-- The tick from which the time tree wakes a dozing tile (R609): 32 ticks before a `twait` target or a launch beat. -/
def Tile.treeTick (T : Tile) : Option Nat :=
  match T.barrier, T.stampAt with
  | .twait target, some b => some (min target b - 32)
  | .twait target, none => some (target - 32)
  | _, some b => some (b - 32)
  | _, none => none

/-- DOZE_WAKE (R609): a wake source, 1 a tag completion, 2 the time tree, 3 an inbound request, 4 an event, 5 a debug
request, reaches a tile that dozes or waits to. -/
def execDozeWake (t : TileIx) (source : Fin 16) (s : State) : Host.Outcome State Fault Refusal :=
  let tree : Bool := source != 2 || (s.tile t).treeTick.any (fun k => decide (k ≤ s.owl.ns))
  .next (if 1 ≤ source.val ∧ source.val ≤ 5 ∧ tree then (s.onTile t (fun T => T.dozeWake s.owl.ns source)).advance t else s)

/-! ## Den -/

/-- DEN_ALARM (R616): 4,096 ticks before the alarm beat the wake starts. -/
def execDenAlarm (t : TileIx) (s : State) : Host.Outcome State Fault Refusal :=
  .next (s.onTile t (fun T =>
    if T.power = .den ∧ T.fld F.SLEEPCFG_ALARM_EN = 1 ∧ T.fld F.DEN_WAKE_AT_BEAT * 256 ≤ s.owl.ns + 4096 then
      { T with waking := some (T.waking.getD s.owl.ns) } else T))

/-- DEN_WAKE (R616, R617): the wake ends; under the alarm at the alarm beat. -/
def execDenWake (t : TileIx) (source : Fin 16) (s : State) : Host.Outcome State Fault Refusal :=
  let T := s.tile t
  let due : Bool :=
    match source.val with
    | 4 => T.events.fenced.isSome || T.events.msg.isSome || T.events.sample
    | 5 => T.haltReq.isSome
    | 6 => T.waking.isSome && T.fld F.SLEEPCFG_ALARM_EN == 1 && decide (T.fld F.DEN_WAKE_AT_BEAT * 256 ≤ s.owl.ns)
    | _ => false
  .next (if due then
    { s.onTile t (fun T => T.denWake s.owl.ns source (Config.freeWord s.free).toNat) with free := s.free + 1 } else s)

/-- WAKE_STEP_TIMEOUT (R618): a wake step of a tile in Den that misses twice its bound marks the tile, and its partition is
reset with CAUSE 4. The bound of the first step is the shortest, 1,800 ticks. -/
def execWakeStepTimeout (t : TileIx) (s : State) : Host.Outcome State Fault Refusal :=
  .next (if (s.tile t).power = .den ∧ (s.tile t).waking.any (fun k => decide (k + 3600 ≤ s.owl.ns)) then
    let s := s.onTile t (fun T => { T with marked := true })
    match s.ownerOfTile t with
    | some p => if (s.part p).step.isSome ∨ s.engReset.isSome then s else s.startPartReset p 4
    | none => s
  else s)

/-! ## Hibernate -/

/-- The code with which ENTER is refused (R619), 0 for none. -/
def State.enterCode (s : State) (p : Nat) : Nat :=
  let busy := fun c => (List.range 8).any (fun q =>
    let b := queuePage c q
    (s.queue c q).phase != 0 || s.hf b F.Q_PTR_HEAD != s.hf b F.Q_PTR_TAIL)
  let owned := fun (g : Nat) => s.hf (groupPage g) F.GRP_CTRL_VALID == 1 && s.hf (groupPage g) F.GRP_CTRL_PART == p
  if s.pstate p ≠ 2 then 1
  else if (s.ctxsOf p).any busy ∨ (s.tilesOf p).any (fun t => (s.tile t).work.isSome) then 2
  else if s.tables.any (fun tb => tb.part == p) ∨ s.colls.any (fun i => owned i.group) then 3
  else if s.ef F.PWR_PLVL_PEND = 1 then 4 else 0

/-- A command of HIB_CTL is refused. -/
def State.hibRefuse (s : State) (p code : Nat) : State := (s.setPf p F.HIB_STATUS_REFUSE code).setPf p F.HIB_STATUS_REFUSED 1

/-- A block starts to prepare: its tiles are held from dispatching. -/
def State.hibPrepare (s : State) (p n : Nat) : State :=
  (s.holdBlock (s.blockAt p n) true).onPart p (fun P => { P with stopped := n, prepAt := s.owl.ns })

/-- HIB_CTL ENTER (R619, R620). -/
def State.hibEnter (s : State) (p : Nat) : State :=
  let code := s.enterCode p
  if code ≠ 0 then s.hibRefuse p code
  else if s.pf p F.HIB_STATUS_PHASE ≠ 0 then s
  else (s.setPf p F.HIB_STATUS_PHASE 1).hibPrepare p 0

/-- HIB_ENTER. -/
def execHibEnter (p : PartIx) (s : State) : Host.Outcome State Fault Refusal := .next (s.hibEnter p)

/-- Does a tile of a block hold a tag? -/
def State.blockTags (s : State) (b : Nat) : Bool := (tilesOfBlock b).any (fun t => (s.tile t).reqs != [])

/-- Why the block that prepares refuses (R620): 1 TAGS, 4 DEBUG, 5 MAINT, 6 RETIRE, 0 for no reason. -/
def State.hibCause (s : State) (p b : Nat) : Nat :=
  let B := s.block b
  if (tilesOfBlock b).any (fun t => (s.tile t).fld F.DBG_STATUS_HALTED == 1) then 4
  else if s.hf (blockPage b) F.MEM_STATUS_FILLING = 1 ∨ B.rowDue ≠ [] ∨ B.bondDue ≠ [] then 5
  else if (tilesOfBlock b).any s.isMarked then 6
  else if s.blockTags b ∧ (s.part p).prepAt + 4096 ≤ s.owl.ns then 1 else 0

/-- HIB_BLOCK_STOP (R620): the block that prepares stops, and the next one starts to prepare. A tile program run and a solver
instruction of its tiles are waited for (R300, R326). -/
def execHibBlockStop (p : PartIx) (s : State) : Host.Outcome State Fault Refusal :=
  let n := (s.part p).stopped
  let b := s.blockAt p n
  .next (if s.pf p F.HIB_STATUS_PHASE = 1 ∧ n < s.blockCount (some p) ∧ s.hibCause p b = 0 ∧ !s.blockTags b ∧
      !(tilesOfBlock b).any (fun t => (s.tile t).unfinished) then
    let s := s.onBlock b (fun B => { B with stopped := true })
    if n + 1 < s.blockCount (some p) then s.hibPrepare p (n + 1)
    else s.onPart p (fun P => { P with stopped := n + 1, prepAt := s.owl.ns })
  else s)

/-- HIB_ABORT (R621): the block that prepares refuses, and the entry aborts. -/
def execHibAbort (p : PartIx) (s : State) : Host.Outcome State Fault Refusal :=
  let n := (s.part p).stopped
  let cause := s.hibCause p (s.blockAt p n)
  .next (if s.pf p F.HIB_STATUS_PHASE = 1 ∧ n < s.blockCount (some p) ∧ cause ≠ 0 then s.hibAbort p 9 cause n else s)

/-- HIB_COMMIT (R622, R623): at the beat boundary after the last block has stopped the partition is switched off. -/
def execHibCommit (p : PartIx) (s : State) : Host.Outcome State Fault Refusal :=
  .next (if s.pf p F.HIB_STATUS_PHASE = 1 ∧ (s.part p).stopped = s.blockCount (some p) ∧ s.owl.ns % 256 = 0 ∧
      (s.part p).prepAt < s.owl.ns then
    let s := (s.tilesOf p).foldl (fun (s : State) t =>
      (s.leaveHomes t).onTile t (fun T =>
        { T.unitKept with power := .hib, padsHeld := true, resets := T.resets })) s
    let s := ((s.setPf p F.HIB_STATUS_PHASE 2).setPf p F.PART_STATUS_STATE 3).setPf p F.PART_PAD_RELEASE_HELD 1
    let s := s.setPf p F.HIB_STATUS_RETAINED (s.pf p F.HIB_CFG_LAYERS)
    (s.provClear p).onPart p (fun P => { P with clockStop := s.owl.ns, wake := none })
  else s)

/-- The wake of a hibernating partition starts, or waits for a pending change of level (R625, R629). -/
def State.hibWakeUp (s : State) (p source : Nat) : State :=
  if s.ef F.PWR_PLVL_PEND = 1 then s.onPart p (fun P => { P with wake := P.wake.or (some (s.owl.ns, source, s.owl.ns)) })
  else s.hibStart p source

/-- Did the alarm wake a partition in this tick? -/
def State.alarmNow (s : State) (p : Nat) : Bool := (s.part p).wake.any (fun w => w.2.1 == 6 && w.2.2 == s.owl.ns)

/-- WAKE by HIB_CTL (source 7) or by a management command (8): it wakes, or aborts an entry (R625, R629). A WAKE that falls with
the alarm in one tick is the source that is recorded. -/
def State.hibWake (s : State) (p source : Nat) : State :=
  if source = 7 ∧ s.alarmNow p then s.onPart p (fun P => { P with wake := P.wake.map (fun w => (w.1, 7, w.2.2)) })
  else match s.pf p F.HIB_STATUS_PHASE with
  | 1 => s.hibAbort p source 0 0
  | 2 => s.hibWakeUp p source
  | _ => s.hibRefuse p 5

/-- HIB_WAKE. -/
def execHibWake (p : PartIx) (s : State) : Host.Outcome State Fault Refusal := .next (s.hibWake p 7)

/-- HIB_ALARM (R625): in beat HIB_WAKE_AT. -/
def execHibAlarm (p : PartIx) (s : State) : Host.Outcome State Fault Refusal :=
  .next (if s.pf p F.HIB_STATUS_PHASE = 2 ∧ s.pf p F.HIB_CFG_ALARM_EN = 1 ∧ s.pf p F.HIB_WAKE_AT_BEAT = s.beat then
    s.hibWakeUp p 6 else s)

/-- The layers that are not retained are zero-filled (R404, R415): layer L of a block is 2 GiB. -/
def State.fillLayers (s : State) (b kept : Nat) : State :=
  (List.range 12).foldl (fun (s : State) l => if bitOf kept l then s else s.zeroMem (b * 2 ^ 35 + l * 2 ^ 31) (2 ^ 31)) s

/-- A tile leaves Hibernate (R102, R626): reset, its clock started at a tick, the pads still held. A debug request that has
been held stays. -/
def Tile.hibWake (T : Tile) (tick plevel stop source : Nat) : Tile :=
  let N := { T.unitKept with resets := T.resets, haltReq := T.haltReq, padsHeld := true }.startEpoch tick plevel
  (((N.setFld F.TIME_SLEEP_LAST_LAST (satTo 40 (tick - stop))).setFld F.TIME_SLEEP_LAST_KIND 3).wakeSource source 3 0 0).setFld
    F.PAD_RELEASE_HELD 1

/-- HIB_WAKE_DONE (R626, R627): every step is ready; `beat` is the beat at which the tile clocks started. A reset that waited
for the wake starts to count. -/
def execHibWakeDone (p : PartIx) (beat : BitVec 56) (s : State) : Host.Outcome State Fault Refusal :=
  .next (match (s.part p).wake with
    | some (start, source, at_) =>
      if s.pf p F.HIB_STATUS_PHASE = 3 ∧ start ≤ beat.toNat * 256 ∧ beat.toNat * 256 ≤ s.owl.ns then
        let P := s.part p
        let s := (s.blocksOf p).foldl (fun (s : State) b =>
          (s.fillLayers b (s.pf p F.HIB_STATUS_RETAINED)).onBlock b (fun B => { B with stopped := false })) s
        let s := (s.tilesOf p).foldl (fun (s : State) t =>
          s.onTile t (fun T => T.hibWake (beat.toNat * 256) s.plevel P.clockStop source)) s
        let s := (s.setPf p F.HIB_STATUS_PHASE 4).setPf p F.HIB_STATUS_LAST_WAKE_US (satTo 20 ((s.owl.ns - at_) / 1000))
        let s := (s.partWake p source 3 0 0).onPart p (fun P =>
          { P with wake := none, step := P.step.map (fun x => (s.owl.ns, x.2)) })
        (s.irq (irqPart p)).debugRelease
      else s
    | none => s)

/-- HIB_WAKE_FAIL (R627): a wake step misses twice its bound, the shortest of which is 50 µs. -/
def execHibWakeFail (p : PartIx) (s : State) : Host.Outcome State Fault Refusal :=
  .next (match (s.part p).wake with
    | some (start, _) =>
      if s.pf p F.HIB_STATUS_PHASE = 3 ∧ start + 100000 ≤ s.owl.ns ∧ s.pf p F.HIB_STATUS_WAKE_FAIL = 0 then
        let s := (s.setPf p F.HIB_STATUS_WAKE_FAIL 1).irq (irqPart p)
        if s.ef F.RECOV_CFG_AUTO_ESC = 1 then (if s.engReset = none then s.startEngine 4 else s) else s.report (.wakeFail p)
      else s
    | none => s)

/-- PAD_RELEASE.REL of a partition (R627, R628): the pads are released, and the partition returns to service. -/
def State.partRelease (s : State) (p : Nat) : State :=
  if s.pf p F.HIB_STATUS_PHASE ≠ 4 then s
  else
    let s := (s.tilesOf p).foldl (fun (s : State) t => s.onTile t (fun T => T.releasePads.setFld F.TILE_STATUS_OPSTATE 0)) s
    let s := (s.setPf p F.HIB_STATUS_PHASE 0).setPf p F.PART_PAD_RELEASE_HELD 0
    (if (s.part p).step.isSome then s else s.setPf p F.PART_STATUS_STATE 2).irq (irqPart p)

/-- PAD_RELEASE: the REL of a tile's own register, or of a partition's. -/
def execPadRelease (u : PadIx) (s : State) : Host.Outcome State Fault Refusal :=
  .next (match u with
    | .tile t => if (s.tile t).padsHeld ∧ (s.tile t).power = .on then (s.onTile t Tile.releasePads).advance t else s
    | .part p => s.partRelease p)

end Sys2Proof.Machine
end

