-- ==== Sys2Proof/Machine/Fox.lean ====
section
/-!
DEFINITION. The Fox: latches, dumps and samples (R638 to R658).
-/
namespace Sys2Proof.Machine

/-! ## The layout of a dump (R647) -/

/-- The bytes of a dump slot. -/
def slotBytes (tiles blocks : Nat) : Nat := roundUp (128 + 320 * tiles + 1280 * blocks + 64 * 64) 4096

/-- A tile record (R649). -/
def State.tileFox (s : State) (t : Nat) : List Nat :=
  let T := s.tile t
  let w0 := t + T.resets % 65536 * 2 ^ 14 + b2n (T.power == .den) * 2 ^ 30 + T.fld F.DBG_STATUS_HALTED * 2 ^ 31
  [w0, T.cycleCount s.owl.ns false, T.fld F.STRETCH_CYCLES_LOST, T.sleepGap s.owl.ns] ++
    (List.range 35).map (fun k => (s.readCtl t (0x440 + k)).toNat)

/-- A counter of a block that the model does not count, because it follows the timing of lines in the squares and write
buffers (R644): a free value. -/
def openCount (n : Nat) : Nat := (Config.freeWord n).toNat % 2 ^ 56

/-- A block record (R650) of the partition's block `b`, with its samples; `n` numbers the free values. -/
def State.blockFox (s : State) (p b n : Nat) : List Nat :=
  let B := s.block b
  let P := s.part p
  let mine := P.samples.filter (fun (x : Nat × Nat × Nat) => x.1 == b)
  let sum := fun (a : Nat) => ((tilesOfBlock b).map (fun t => (s.readCtl t a).toNat)).sum % 2 ^ 56
  let w0 := b + mine.length * 2 ^ 10 + satTo 16 (P.sampleDrops.get (fun _ => 0) b) * 2 ^ 17 + s.hf (blockPage b) F.MEM_STATUS_HOT * 2 ^ 33
  let own := [B.memL, B.memN, B.memW, B.memB, B.memWin, B.refresh].map (· % 2 ^ 56)
  let free := (List.range 5).map (fun k => openCount (n + k))
  let cycles := ((tilesOfBlock b).map (fun t => (s.tile t).cycleCount s.owl.ns false)).sum % 2 ^ 56
  (w0 :: own) ++ free ++ (List.range 14).map (fun k => sum (0x440 + k)) ++ [cycles, sum 0x44F, 0, 0, 0, 0] ++
    mine.flatMap (fun (x : Nat × Nat × Nat) => [x.2.1, x.2.2])

/-- A link record (R651): zeros where LINK_OWNER lacks the partition. -/
def State.linkFox (s : State) (p l : Nat) : List Nat :=
  let L := s.link l
  if bitOf (s.lf l F.LINK_OWNER_PARTS) p then
    l :: ([L.frames, L.retries, L.accepted, L.ttSlots, L.openSlots, L.idleSlots].map (· % 2 ^ 56))
  else []

/-- The dump that a latch takes (R645, R647 to R651), its nonzero words by byte offset. -/
def State.foxWords (s : State) (p : Nat) (periodic explicit : Bool) : List (Nat × Nat) :=
  let P := s.part p
  let blocks := s.blocksOf p
  let tiles := sortNat (s.tilesOf p)
  let B := blocks.length
  let T := tiles.length
  let header := [0x44584F46 + 2 ^ 32, P.seq % 2 ^ 32 + b2n periodic * 2 ^ 32 + b2n explicit * 2 ^ 33, s.owl.ns,
    s.ef F.DUM_INFO_GENERATION + s.plevel * 2 ^ 32 + T * 2 ^ 34, B + s.pf p F.FOX_STATUS_SKIPPED * 2 ^ 10, slotBytes T B]
  let part := [P.peer / 256, P.coll / 256, P.covered / 256, P.lag / 256, P.commands, P.collsDone].map (· % 2 ^ 56)
  let tileW := ((List.range T).zip tiles).flatMap (fun x => wordsAt (128 + 320 * x.1) (s.tileFox x.2))
  let blockW := ((List.range B).zip blocks).flatMap (fun x =>
    wordsAt (128 + 320 * T + 1280 * x.1) (s.blockFox p x.2 (s.free + 5 * x.1)))
  let linkW := (List.range 64).flatMap (fun l => wordsAt (128 + 320 * T + 1280 * B + 64 * l) (s.linkFox p l))
  wordsAt 0 header ++ wordsAt 64 part ++ tileW ++ blockW ++ linkW

/-! ## Latching -/

/-- The ring is full or absent, a dump is still being written, or a partition reset runs (R652). -/
def State.latchSkipped (s : State) (p : Nat) : Bool :=
  let n := s.pf p F.FOX_DUMP_BASE_SLOTS
  n == 0 || (s.pf p F.FOX_RING_PTR_TAIL + 2 ^ 32 - s.pf p F.FOX_RING_PTR_HEAD) % 2 ^ 32 == n ||
    (s.part p).latch.isSome || (s.part p).step.isSome

/-- A latch of a partition (R645, R646, R652), with the kinds of latch that met. -/
def State.foxLatch (s : State) (p : Nat) (periodic explicit : Bool) : State :=
  let s := if explicit then s.setPf p F.FOX_STATUS_ARMED 0 else s
  if s.latchSkipped p then
    ((s.satHf (partPage p) F.FOX_STATUS_SKIPPED 1).setPf p F.FOX_STATUS_SKIP_SEEN 1).onPart p (fun P => { P with seq := P.seq + 1 })
  else
    let words := s.foxWords p periodic explicit
    let s := { s with free := s.free + 5 * (s.blocksOf p).length }
    (s.setPf p F.FOX_STATUS_BUSY 1).onPart p (fun P =>
      { P with latch := some words, seq := P.seq + 1, samples := [], sampleDrops := [] })

/-- FOX_LATCH: this tick is one at which the partition is latched (R646). No latch is taken from PHASE 1 of a Hibernate entry to
the end of the wake (R652). -/
def execFoxLatch (p : PartIx) (s : State) : Host.Outcome State Fault Refusal :=
  let n := (s.part p).foxBeats
  let periodic : Bool := n != 0 && s.owl.ns % 256 == 0 && s.beat % n == 0
  let explicit : Bool := s.pf p F.FOX_STATUS_ARMED == 1 && s.pf p F.FOX_LATCH_AT_NS == s.owl.ns
  let asleep : Bool := 1 ≤ s.pf p F.HIB_STATUS_PHASE && s.pf p F.HIB_STATUS_PHASE ≤ 3
  .next (if (periodic || explicit) && !asleep && s.pstate p != 0 then s.foxLatch p periodic explicit else s)

/-! ## Writing a dump -/

/-- A page of the slot: zeros, then the words of the dump that lie in it (R647). -/
def State.dumpPage (s : State) (p at_ off : Nat) (ws : List (Nat × Nat)) : State :=
  let a := s.interleave p (at_ + off) % 2 ^ 48
  let s := ((s.slotMem (blockOf a) 3 64).zeroMem a 4096).uncache a 4096
  let mine := ws.filter (fun x => off ≤ x.1 && x.1 < off + 4096)
  { s with mem := mine.foldl (fun (m : NMap Byte) x => memWrite m (a + (x.1 - off)) 8 x.2) s.mem }

/-- The Foxes of the partition finish writing the latched dump: it stands in the ring, and TAIL rises. -/
def State.writeDump (s : State) (p : Nat) : State :=
  match (s.part p).latch with
  | none => s
  | some ws =>
    let tail := s.pf p F.FOX_RING_PTR_TAIL
    let size := slotBytes (s.tilesOf p).length (s.blocksOf p).length
    let at_ := s.pf p F.FOX_DUMP_BASE_OFFSET + tail % s.pf p F.FOX_DUMP_BASE_SLOTS * size
    let s := (List.range (size / 4096)).foldl (fun (s : State) k => s.dumpPage p at_ (k * 4096) ws) s
    ((s.setPf p F.FOX_RING_PTR_TAIL (tail + 1)).setPf p F.FOX_STATUS_BUSY 0).onPart p (fun P => { P with latch := none })

/-- DUMP_WRITTEN. -/
def execDumpWritten (p : PartIx) (s : State) : Host.Outcome State Fault Refusal := .next (s.writeDump p)

/-! ## Writes to the Fox's registers (R658) -/

/-- A write to FOX_LATCH_AT. -/
def State.writeLatchAt (s : State) (p w src : Nat) : State :=
  let early : Bool := decide (w < s.owl.ns + 4096)
  let s := s.writeHost (partPage p + F.FOX_LATCH_AT_NS.reg) w src (fun _ => early)
  if early then s else s.setPf p F.FOX_STATUS_ARMED 1

/-- FOX_LATCH_AT_WRITE. -/
def execFoxLatchAtWrite (p : PartIx) (w : BitVec 64) (src : Fin 4) (s : State) : Host.Outcome State Fault Refusal :=
  .next (s.writeLatchAt p w.toNat src)

/-- A write to FOX_DUMP_BASE: a ring that would reach beyond the partition is a reserved encoding of both fields. HEAD and TAIL
become 0, and a dump in progress is abandoned (R653). -/
def State.writeDumpBase (s : State) (p w src : Nat) : State :=
  let size := slotBytes (s.tilesOf p).length (s.blocksOf p).length
  let slots := bitsOf w 48 8
  let past : Bool := slots != 0 && decide (s.blockCount (some p) * blockBytes < bitsOf w 0 45 + slots * size)
  let s := s.writeHost (partPage p + F.FOX_DUMP_BASE_OFFSET.reg) w src (fun _ => past)
  (((s.setPf p F.FOX_RING_PTR_HEAD 0).setPf p F.FOX_RING_PTR_TAIL 0).setPf p F.FOX_STATUS_BUSY 0).onPart p
    (fun P => { P with latch := none })

/-- FOX_DUMP_BASE_WRITE. -/
def execFoxDumpBaseWrite (p : PartIx) (w : BitVec 64) (src : Fin 4) (s : State) : Host.Outcome State Fault Refusal :=
  .next (s.writeDumpBase p w.toNat src)

/-! ## Sampling (R654) -/

/-- The skid at a trigger (R655): in handler mode or a debug halt it has no bound, and for a starved slot the trigger is the next
instruction to dispatch (R654). -/
def Tile.firstSkid (T : Tile) : Nat :=
  let ev := T.fld F.SAMPLE_CFG_EVENT
  if T.handler ∨ T.fld F.DBG_STATUS_HALTED = 1 then 7 else if 0x08 ≤ ev ∧ ev ≤ 0x0D then 8 else 0

/-- The count of the sampled event reaches PERIOD: SAMPLE becomes pending, or the trigger is lost. -/
def Tile.sampleTrigger (T : Tile) : Tile :=
  if T.fld F.SAMPLE_CFG_EN = 0 ∨ (T.fld F.SAMPLE_CFG_USER = 1 ∧ T.handler) then T
  else
    let T := T.setFld F.SAMPLE_STATUS_LEFT (T.fld F.SAMPLE_CFG_PERIOD)
    if T.events.sample then (T.satFld F.SAMPLE_STATUS_LOST 1).setFld F.SAMPLE_STATUS_LOST_SEEN 1
    else { T with events := { T.events with sample := true }, skid := T.firstSkid }

/-- SAMPLE_TRIGGER. -/
def execSampleTrigger (t : TileIx) (s : State) : Host.Outcome State Fault Refusal := .next (s.onTile t Tile.sampleTrigger)

end Sys2Proof.Machine
end

