-- ==== Sys2Proof/Machine/Owl.lean ====
section
/-!
DEFINITION. The Owl: references, selection, the four states, Set and step (R60 to R98), the round boundary (R19), and the
stretching of the tile clock (R94).
-/
namespace Sys2Proof.Machine

/-! ## Measurements -/

/-- The guard, 2 ns, and ±1 ns, in units of 2^−16 ns (R71). -/
def guard2 : Nat := 131072
/-- ±1 ns. -/
def within1 : Nat := 65536

/-- A phase mapped into the interval from minus half to plus half of a period (R71); period 0 is no period. -/
def phase (period : Nat) (x : Int) : Int :=
  if period = 0 then x
  else
    let r := x % (period : Int)
    if (period : Int) < 2 * r then r - period else r

/-- The counter in units of 2^−16 ns. -/
def Owl.time (o : Owl) : Int := (o.ns * 65536 + o.frac : Nat)

/-- Do all of a list of measurements lie within ±1 ns of one another? -/
def agree (period : Nat) (l : List Int) : Bool :=
  l.all (fun a => l.all (fun b => (phase period (a - b)).natAbs ≤ within1))

/-- A measurement `m` of a reference arrives at tick `now` (R71). `x` is what the guard is held against, `guard` says that
the guard applies, and `usable` that the reference may become qualified. -/
def Ref.measure (r : Ref) (period : Nat) (m x : Int) (guard usable : Bool) (now : Nat) : Ref :=
  match r.cond with
  | 0 => ⟨1, [m], now, 0⟩
  | 1 =>
    let l := (m :: r.recent).take 8
    if usable && l.length == 8 && agree period l then ⟨3, [m], now, now⟩ else ⟨1, l, now, 0⟩
  | 2 =>
    if m.natAbs ≤ within1 then (if usable && r.recent.length == 1 then ⟨3, [m], now, now⟩ else ⟨2, [m], now, 0⟩)
    else ⟨2, [], now, 0⟩
  | _ => if guard && decide (guard2 < x.natAbs) then ⟨2, [], now, 0⟩ else ⟨3, [m], now, r.since⟩

/-- The latest measurement of a reference. -/
def Ref.offset (r : Ref) : Int := r.recent.headD 0

/-- A reference after the counter has been stepped by `d`: its offsets move with the counter. -/
def Ref.shift (r : Ref) (period : Nat) (d : Int) : Ref :=
  let move := fun (n : Nat) => ((n : Int) + d / 65536).toNat
  { r with recent := r.recent.map (fun m => phase period (m + d)), seen := move r.seen, since := move r.since }

/-- One second and 100 ns in units of 2^−16 ns: the periods of PPS and F10. -/
def ppsPeriod : Nat := 65536000000000
/-- 100 ns. -/
def f10Period : Nat := 6553600

/-! ## References and selection -/

/-- Change the Owl. -/
def State.onOwl (s : State) (f : Owl → Owl) : State := { s with owl := f s.owl }

/-- The reference of a link. -/
def Owl.linkRef (o : Owl) (l : Nat) : Ref := o.links.get (fun _ => Ref.absent) l

/-- Is a link a time reference for this engine? (R78) -/
def State.linkIsRef (s : State) (l : Nat) : Bool :=
  s.lf l F.LINK_TIME_CFG_ROLE == 1 && s.lf l F.LINK_TIME_STAT_PEER_DOWN == 1 && s.lf l F.LINK_TIME_STAT_PEER_STATE != 0 &&
    s.lf l F.LINK_TIME_STAT_PEER_HOPS ≤ 14

/-- The least element of a list under a key. -/
def leastBy (key : Nat → Nat) (l : List Nat) : Option Nat :=
  l.foldl (fun (b : Option Nat) x => match b with
    | none => some x
    | some y => if key x < key y then some x else some y) none

/-- Among qualified UP links, the one with the lowest SENDER_HOPS, then UP_PRIO, then link number (R78). -/
def State.bestLink (s : State) : Option Nat :=
  leastBy (fun l => s.lf l F.LINK_TIME_STAT_PEER_HOPS * 16 + s.lf l F.LINK_TIME_CFG_UP_PRIO)
    ((List.range 64).filter (fun l => s.linkIsRef l && (s.owl.linkRef l).cond == 3))

/-- May the announced logSyncInterval qualify (R69)? -/
def Owl.syncOk (o : Owl) : Bool := -7 ≤ o.logSync && o.logSync ≤ 0

/-- Is a time reference (1 PTP, 2 PPS, 3 LINK) qualified, enabled and allowed by the state (R72)? -/
def State.usable (s : State) (c : Nat) : Bool :=
  match c with
  | 1 => s.ef F.TIME_REF_CFG_PTP_EN == 1 && s.owl.ptp.cond == 3 && s.owl.syncOk
  | 2 => s.ef F.TIME_REF_CFG_PPS_EN == 1 && s.owl.pps.cond == 3 && s.owl.own != 0
  | _ => s.ef F.TIME_REF_CFG_LINK_EN == 1 && s.bestLink.isSome

/-- When a time reference became qualified. -/
def State.refSince (s : State) (c : Nat) : Nat :=
  match c with
  | 1 => s.owl.ptp.since
  | 2 => s.owl.pps.since
  | _ => (s.owl.linkRef (s.bestLink.getD 0)).since

/-- The latest offset of a time reference. -/
def State.refOffset (s : State) (c : Nat) : Int :=
  match c with
  | 1 => s.owl.ptp.offset
  | 2 => s.owl.pps.offset
  | _ => (s.owl.linkRef (s.bestLink.getD 0)).offset

/-- May a time reference be selected at this tick: usable, qualified strictly before it (R19), and in HOLDOVER within the
guard (R87)? -/
def State.selectable (s : State) (c : Nat) : Bool :=
  s.usable c && decide (s.refSince c < s.owl.ns) && (s.owl.own != 2 || decide ((s.refOffset c).natAbs ≤ guard2))

/-- The time reference the Owl would select: a lower PRIO wins, then the order PTP, LINK, PPS (R72). -/
def State.candidate (s : State) : Option Nat :=
  let prio := fun c => match c with
    | 1 => s.ef F.TIME_REF_CFG_PTP_PRIO * 4
    | 2 => s.ef F.TIME_REF_CFG_PPS_PRIO * 4 + 2
    | _ => s.ef F.TIME_REF_CFG_LINK_PRIO * 4 + 1
  leastBy prio ([1, 2, 3].filter s.selectable)

/-- Is the selected time reference, of LINK the link in use, still usable? -/
def State.srcUsable (s : State) : Bool :=
  match s.owl.source with
  | 0 => false
  | 3 => s.ef F.TIME_REF_CFG_LINK_EN == 1 && s.linkIsRef s.owl.lsel && (s.owl.linkRef s.owl.lsel).cond == 3
  | c => s.usable c

/-- Is a time reference usable that was qualified before this round? Within a round, guard violations are applied before
qualifications (R73). -/
def State.spareRef (s : State) : Bool :=
  let before := fun (r : Ref) => decide (r.since / 1048576 < s.owl.ns / 1048576)
  (s.usable 1 && before s.owl.ptp) || (s.usable 2 && before s.owl.pps) ||
    (s.ef F.TIME_REF_CFG_LINK_EN == 1 && (List.range 64).any (fun l =>
      s.linkIsRef l && (s.owl.linkRef l).cond == 3 && before (s.owl.linkRef l)))

/-- Whether PTP or LINK is qualified, so that it wins over a Set in UNSYNC (R88). -/
def State.timeQualified (s : State) : Bool := s.usable 1 || s.usable 3

/-! ## TIME_STATE -/

/-- STATE as reported: on a LINK source the worse of the own tracking state and the sender's (R80). -/
def State.reported (s : State) : Nat :=
  let peer := s.lf s.owl.lsel F.LINK_TIME_STAT_PEER_STATE
  if s.owl.source = 3 ∧ s.owl.own ≠ 0 ∧ peer ≠ 0 then min s.owl.own peer else s.owl.own

/-- HOPS (R79). -/
def State.hops (s : State) : Nat :=
  match s.owl.source with
  | 0 => if s.owl.own = 1 ∧ s.owl.hostSet then 0 else 15
  | 3 => min 15 (s.lf s.owl.lsel F.LINK_TIME_STAT_PEER_HOPS + 1)
  | _ => 0

/-- HOLD_ROUNDS: 0 outside HOLDOVER (R87), and on a LINK source the sender's while the sender is in HOLDOVER (R80). -/
def State.holdRounds (s : State) : Nat :=
  if s.reported ≠ 2 then 0
  else if s.owl.source = 3 ∧ s.lf s.owl.lsel F.LINK_TIME_STAT_PEER_STATE = 2 then (s.link s.owl.lsel).peerHold
  else s.owl.held

/-- The fields of TIME_STATE that follow the Owl (R92), with the interrupt on a change of STATE (R709). -/
def State.showOwl (s : State) : State :=
  let old := s.ef F.TIME_STATE_STATE
  let o := s.owl
  let best := ((List.range 64).filter s.linkIsRef).foldl (fun m l => max m (o.linkRef l).cond) 0
  let s := ((s.setEf F.TIME_STATE_STATE s.reported).setEf F.TIME_STATE_SOURCE o.source).setEf F.TIME_STATE_HOPS s.hops
  let s := (((s.setEf F.TIME_STATE_PTP_ST o.ptp.cond).setEf F.TIME_STATE_PPS_ST o.pps.cond).setEf F.TIME_STATE_F10_ST
    o.f10.cond).setEf F.TIME_STATE_LINK_ST best
  let s := ((s.setEf F.TIME_STATE_LINK_SEL o.lsel).setEf F.TIME_STATE_FREQ_10M
    (b2n (o.f10.cond == 3 && s.ef F.TIME_REF_CFG_F10_EN == 1))).setEf F.TIME_STATE_SET_PEND (b2n o.setPend.isSome)
  let s := s.setEf F.TIME_STATE_HOLD_ROUNDS s.holdRounds
  if s.ef F.TIME_STATE_STATE = old then s else s.irq F.IRQ_STATUS_TIME

/-- A Set or STEP_OK is refused (R88, R90). -/
def State.timeRefused (s : State) : State := s.setEf F.TIME_STATE_REFUSED 1

/-- A pending Set ends without loading anything (R89). -/
def State.setLost (s : State) : State :=
  if s.owl.setPend.isSome then (s.onOwl (fun o => { o with setPend := none })).timeRefused else s

/-- The counter takes a new time, in 2^−16 ns: it is stepped (R88). -/
def State.stepCounter (s : State) (t : Int) : State :=
  let d := t - s.owl.time
  let v := wrapTo 80 t
  (s.onOwl (fun o =>
    { o with ns := v / 65536, frac := v % 65536, ptp := o.ptp.shift 0 d, pps := o.pps.shift ppsPeriod d, f10 := o.f10.shift f10Period d,
             links := o.links.mapv (fun _ => Ref.absent) (fun _ r => r.shift 0 d), offset := o.offset + d,
             f10Off := o.f10Off + d })).setEf F.TIME_STATE_STEPPED 1

/-- The measured offset of the selected reference is reported (R93); one beyond the field's range is a free value. -/
def State.reportOffset (s : State) (m : Int) : State :=
  let v := if m.natAbs < 2 ^ 31 then wrapTo 32 m else (Config.freeWord s.free).toNat % 2 ^ 32
  ({ s with free := s.free + 1 }.onOwl (fun o => { o with offset := m })).setEf F.TIME_OFFSET_OFFSET v

/-! ## What follows a change of a reference -/

/-- A Set that has been accepted in UNSYNC in the round in which a time reference qualifies, and has not acted, has no effect
(R88). -/
def State.setOverruled (s : State) : State :=
  if s.owl.own = 0 ∧ s.timeQualified then
    let s := if s.owl.setDue.isSome then (s.onOwl (fun o => { o with setDue := none })).timeRefused else s
    if s.owl.setPend.any (fun v => v.2 == s.round) then s.setLost else s
  else s

/-- HOLDOVER begins at the measurement that leaves no time reference qualified (R87). -/
def State.holdover (s : State) : State :=
  if s.owl.own = 3 ∧ !s.srcUsable ∧ !s.spareRef then s.onOwl (fun o => { o with own := 2, held := 0 }) else s

/-- A counter in FREE that is slewed to the reference it tracks locks within 0.5 ns (R87). -/
def State.lock (s : State) : State :=
  let s := if s.owl.own = 1 ∧ !s.srcUsable then s.onOwl (fun o => { o with tracking := false }) else s
  if s.owl.own = 1 ∧ s.owl.tracking ∧ s.ef F.TIME_STATE_STEP_PEND = 0 ∧ s.owl.offset.natAbs ≤ 32768 then
    s.onOwl (fun o => { o with own := 3, hostSet := false })
  else s

/-- After a change of a reference's condition: the end of a pending Set whose PPS is lost (R89), of a Set that a reference
overrules (R88), HOLDOVER and the lock (R87). -/
def State.settleOwl (s : State) : State :=
  let s := if s.owl.pps.cond = 3 then s else s.setLost
  s.setOverruled.holdover.lock.showOwl

/-- A guard violation is reported when a reference has become held (R71). -/
def State.guardHit (s : State) (before after : Ref) : State :=
  if before.cond = 3 ∧ after.cond = 2 then (s.setEf F.TIME_STATE_GUARD_HIT 1).irq F.IRQ_STATUS_GUARD else s

/-- The guard applies while the counter is held against TAI: in LOCKED and HOLDOVER. -/
def State.guards (s : State) : Bool := 2 ≤ s.owl.own

/-! ## Measurements of each kind -/

/-- Does a PTP message belong to the timing port's domain and transport (R69, R74)? -/
def State.ptpPort (s : State) (port : PtpPort) : Bool :=
  port.domain.toNat == s.ef F.TIME_REF_CFG_PTP_DOMAIN && port.transport.val == s.ef F.TIME_REF_CFG_PTP_TRANSPORT

/-- PTP_SYNC_MEASUREMENT (R62, R69, R75): the transmitter's time at this tick, on the PTP timescale, path delay removed. -/
def execPtpSyncMeasurement (port : PtpPort) (sec : BitVec 48) (nanos : BitVec 30) (sub : BitVec 16) (s : State) :
    Host.Outcome State Fault Refusal :=
  .next (if !s.ptpPort port then s
  else
    let ref : Int := (((sec.toNat : Int) - 946684800) * 1000000000 + nanos.toNat) * 65536 + sub.toNat
    let m := s.owl.time - ref - signed 16 (s.ef F.TIME_REF_DELAY_PTP_ASYM) * 256
    let r := s.owl.ptp.measure 0 m m s.guards s.owl.syncOk s.owl.ns
    let old := s.owl.ptp
    let s := (s.onOwl (fun o => { o with ptp := r })).guardHit old r
    let s := if s.owl.source = 1 then s.reportOffset m else s
    s.settleOwl)

/-- PTP_ANNOUNCE (R62, R69): the TAI − UTC offset and the logSyncInterval of the best time transmitter. -/
def execPtpAnnounce (port : PtpPort) (utc logSync : BitVec 8) (s : State) :
    Host.Outcome State Fault Refusal :=
  .next (if !s.ptpPort port then s
  else
    let s := (s.setEf F.TIME_OFFSET_UTC_OFS utc.toNat).onOwl (fun o => { o with logSync := signed 8 logSync.toNat })
    let s := if s.owl.syncOk ∨ s.owl.ptp.cond ≠ 3 then s
      else s.onOwl (fun o => { o with ptp := { o.ptp with cond := 1, recent := [], since := 0 } })
    s.settleOwl)

/-- The pending Set with AT_PPS is loaded at an edge of the qualified input (R89), which is then the selected reference. -/
def State.loadAtPps (s : State) : State :=
  match s.owl.setPend with
  | some (v, _) =>
    if s.owl.pps.cond = 3 then
      let s := (s.stepCounter ((v : Int) * 65536)).onOwl (fun o =>
        { o with setPend := none, setDue := none, own := 3, source := 2, tracking := true, hostSet := false, stepOk := none })
      (s.setEf F.TIME_STATE_STEP_PEND 0).reportOffset s.owl.pps.offset
    else s
  | none => s

/-- PPS_EDGE (R71, R75, R89): an edge of the 1PPS input at fraction `sub` of this tick. -/
def execPpsEdge (rising : Bool) (sub : BitVec 16) (s : State) : Host.Outcome State Fault Refusal :=
  .next (if rising != (s.ef F.TIME_REF_CFG_PPS_EDGE == 0) then s
  else
    let t : Int := (s.owl.ns * 65536 + sub.toNat : Nat) - (s.ef F.TIME_REF_DELAY_PPS_DELAY * 1024 : Nat)
    let m := phase ppsPeriod t
    let old := s.owl.pps
    let r := old.measure ppsPeriod m m s.guards true s.owl.ns
    let s := (s.onOwl (fun o => { o with pps := r })).guardHit old r
    let s := if s.owl.source = 2 then s.reportOffset m else s
    s.loadAtPps.settleOwl)

/-- The loss interval of a reference in ticks (R70). -/
def Owl.lossInterval (o : Owl) : RefIx → Nat
  | .ptp => if o.logSync ≤ 0 then 8000000000 / 2 ^ (-o.logSync).toNat else 8000000000 * 2 ^ o.logSync.toNat
  | .pps => 2000000000
  | .f10 => 1048576
  | .link _ => 1048576

/-- REFERENCE_LOSS (R70, R71). -/
def execReferenceLoss (r : RefIx) (s : State) : Host.Outcome State Fault Refusal :=
  let o := s.owl
  let ref := match r with
    | .ptp => o.ptp
    | .pps => o.pps
    | .f10 => o.f10
    | .link l => o.linkRef l
  .next (if ref.cond = 0 ∨ o.ns ≤ ref.seen + o.lossInterval r then s
  else (s.onOwl (fun o => match r with
    | .ptp => { o with ptp := Ref.absent }
    | .pps => { o with pps := Ref.absent }
    | .f10 => { o with f10 := Ref.absent }
    | .link l => { o with links := o.links.set (fun _ => Ref.absent) l Ref.absent })).settleOwl)

/-! ## Frames (R76) -/

/-- FRAME_RECEIVE (R445): `ok` says that every codeword decodes and the CRC matches. The Owl follows the sender's state (R78, R80). -/
def execFrameReceive (l : LinkIx) (ok : Bool) (at_ : Arrival) (h : BitVec 512) (ms : List WireMsg)
    (corr : List (Fin 9 × Nat)) (s : State) : Host.Outcome State Fault Refusal :=
  .next (if s.lstate l = 0 then s
  else
    let s := s.countLanes l corr
    if !ok then
      (s.countLf l F.LINK_ERR_CNT_UNCORR 1).onLink l (fun L => { L with discards := L.discards + 1, goodRound := 0 })
    else
      let s := ((s.receiveTime l h at_.frac.toNat at_.hold.toNat).onLink l (fun L => L.accept h)).showSwap l
      let s := s.settleOwl
      let s := s.receiveAcks l (word512 h 4 % 2 ^ 56) (word512 h 5)
      if s.lstate l < 2 then s
      else ms.foldl (fun (s : State) (m : WireMsg) => s.receiveMsg l (msgOf m.1 m.2)) s)

/-! ## The round boundary (R19) -/

/-- Is this tick a round boundary? -/
def State.atRound (s : State) : Bool := s.owl.ns % 1048576 == 0

/-- The measurement of a link over a round, in 2^−16 ns (R77). -/
def LinkSt.measured (L : LinkSt) : Int := Config.offsetFilter (L.theta.map (·.1))

/-- LINK_TIME_STAT and the delay of a link over the round (R77, R81, R83, R448). DESIGN CHOICE (log 72): an offset beyond the
field OFFSET reads as a free value there, as in R93. -/
def State.linkStats (s : State) (l : Nat) : State :=
  let L := s.link l
  if L.theta = [] then s.setLf l F.LINK_TIME_STAT_BAD 1
  else
    let m := L.measured
    let v := if m.natAbs < 2 ^ 31 then wrapTo 32 m else (Config.freeWord s.free).toNat % 2 ^ 32
    let delay := satTo 16 ((Config.offsetFilter (L.theta.map (·.2))) / 4096).toNat
    let ns := ceilDiv delay 16
    let s := (({ s with free := s.free + 1 }.setLf l F.LINK_TIME_STAT_OFFSET v).setLf l F.LINK_TIME_STAT_DELAY delay).setLf l
      F.LINK_TIME_STAT_BAD (b2n (decide (guard2 < m.natAbs)))
    (s.setLf l F.LINK_STATUS_RD (1 + ceilDiv (2 * delay + 376 * 16) 4096)).setLf l F.LINK_STATUS_LINK_BEATS (ceilDiv ns 256)

/-- What the round's measurement makes of the reference of a link (R71): none arrived, or the link is no reference, loses it. -/
def State.linkJudged (s : State) (l : Nat) : Ref :=
  let L := s.link l
  if L.theta = [] ∨ !s.linkIsRef l then Ref.absent
  else (s.owl.linkRef l).measure 0 L.measured L.measured s.guards true s.owl.ns

/-- The references of the links, of those that the round's measurement moves to a condition `p` accepts. The events of a round
are applied in the order of R73: losses, guard violations, and the rest. -/
def State.linkRefs (s : State) (judged : List (Nat × Ref)) (p : Nat → Bool) : State :=
  (judged.filter (fun x => p x.2.cond)).foldl (fun (s : State) (x : Nat × Ref) =>
    let old := s.owl.linkRef x.1
    let s := (s.onOwl (fun o => { o with links := o.links.set (fun _ => Ref.absent) x.1 x.2 })).guardHit old x.2
    if x.2.cond ≠ 0 ∧ s.owl.source = 3 ∧ s.owl.lsel = x.1 then s.reportOffset (s.link x.1).measured else s) s

/-- LANE_CNT.LAST_ROUND: the corrections of the round that ends (R478). -/
def State.laneRound (s : State) (l : Nat) : State :=
  (List.range 9).foldl (fun (s : State) k =>
    let n := (s.link l).laneRun.get (fun _ => 0) k
    let s := s.setLf l (F.LANE_CNT_LAST_ROUND.at (8 * k)) (satTo 16 n)
    if 65535 ≤ n then s.setLf l F.LINK_STATUS_CNT_SAT 1 else s) s

/-- The measurement of the 10 MHz input over the round (R71): its phase, of which the change relative to the selected
reference is held against the guard; none: no input. -/
def State.f10Round (s : State) (f10 : Option Int) : State :=
  match f10 with
  | none => s.onOwl (fun o => { o with f10 := Ref.absent })
  | some x =>
    let m := phase f10Period x
    let old := s.owl.f10
    let change := phase f10Period (m - old.recent.headD m - (s.owl.offset - s.owl.f10Off))
    let r := old.measure f10Period m change s.guards true s.owl.ns
    (s.onOwl (fun o => { o with f10 := r, f10Off := o.offset })).guardHit old r

/-- Hot mode of a block (R403): entered after a round with a hot sample, left after a whole round of cool ones. -/
def State.hotBlock (s : State) (b : Nat) : State :=
  let B := s.block b
  let s := if B.hotRound then s.setHf (blockPage b) F.MEM_STATUS_HOT 1
    else if B.coolRound then s.setHf (blockPage b) F.MEM_STATUS_HOT 0 else s
  s.onBlock b (fun B => { B with hotRound := false, coolRound := true })

/-- The time measurements of a round, applied in the order of R73. -/
def State.roundRefs (s : State) (f10 : Option Int) : State :=
  let s := (List.range 64).foldl (fun (s : State) l => (s.laneRound l).linkStats l) s
  let judged := (List.range 64).map (fun l => (l, s.linkJudged l))
  let s := (s.linkRefs judged (· == 0)).settleOwl
  let s := (s.linkRefs judged (· == 2)).settleOwl
  let s := ((s.linkRefs judged (fun c => c == 1 || c == 3)).f10Round f10).settleOwl
  (List.range 64).foldl (fun (s : State) l => s.onLink l (fun L => { L with theta := [], laneRun := [] })) s

/-- ROUND_BOUNDARY (R19). -/
def execRoundBoundary (f10 : Option (BitVec 23)) (s : State) : Host.Outcome State Fault Refusal :=
  .next (if !s.atRound then s
  else
    let s := if s.owl.own = 2 then s.onOwl (fun o => { o with held := satTo 5 (o.held + 1) }) else s
    let s := s.roundRefs (f10.map (fun w => signed 23 w.toNat))
    let s := { s.setEf F.TIME_OFFSET_FREQ (Config.freqCorr s.free).toNat with free := s.free + 1 }
    let s := (List.range 16).foldl (fun (s : State) p =>
      s.onPart p (fun P => { P with foxBeats := s.fieldAsOf (partPage p) F.FOX_DUMP_PERIOD_BEATS })) s
    (List.range 720).foldl State.hotBlock s)

/-- A newly selected time reference ends a pending Set with AT_PPS unless it is PPS itself (R89). -/
def State.newSource (s : State) (c : Nat) : State :=
  if c ≠ 2 ∧ s.owl.source ≠ c then s.setLost else s

/-- REFERENCE_SELECTION (R72, R87): at a round boundary, the change of the selected time reference takes effect. -/
def execReferenceSelection (s : State) : Host.Outcome State Fault Refusal :=
  .next (match s.candidate with
  | none => s
  | some c =>
    let off := s.refOffset c
    if !s.atRound ∨ s.owl.own = 0 then s
    else
      let lsel := if c = 3 then s.bestLink.getD 0 else s.owl.lsel
      let s := (s.newSource c).onOwl (fun o =>
        { o with source := c, lsel := lsel, tracking := true, hostSet := false, own := if o.own = 2 then 3 else o.own })
      let s := s.reportOffset off
      let far : Bool := decide (2048 * 65536 < off.natAbs)
      let s := if s.owl.own = 1 then
          (s.setEf F.TIME_STATE_STEP_PEND (b2n far)).onOwl (fun o => { o with stepOk := if far then o.stepOk else none })
        else s
      s.settleOwl)

/-- AUTOMATIC_LOAD (R87): from UNSYNC, at a round boundary, the counter takes the time of a selected PTP or LINK reference. -/
def execAutomaticLoad (s : State) : Host.Outcome State Fault Refusal :=
  .next (match s.candidate with
  | none => s
  | some c =>
    if !s.atRound ∨ s.owl.own ≠ 0 then s
    else
      let lsel := if c = 3 then s.bestLink.getD 0 else s.owl.lsel
      let s := (s.newSource c).stepCounter (s.owl.time - s.refOffset c)
      let s := s.onOwl (fun o => { o with source := c, lsel := lsel, tracking := true, own := 3, hostSet := false })
      (s.reportOffset 0).settleOwl)

/-- HOLD_LIMIT_REACHED (R87): at a round boundary HOLDOVER ends in FREE, unless a qualification comes first. -/
def execHoldLimitReached (s : State) : Host.Outcome State Fault Refusal :=
  .next (if s.atRound && s.owl.own == 2 && s.ef F.TIME_REF_CFG_HOLD_LIMIT ≤ s.owl.held && s.candidate.isNone then
    (s.onOwl (fun o => { o with own := 1, hostSet := false, tracking := false })).settleOwl else s)

/-! ## Set and step (R88 to R91) -/

/-- A Set without AT_PPS: it is captured and acts at the next tick (R87), and cancels a pending one (R89). -/
def State.timeSet (s : State) : State :=
  if 2 ≤ s.owl.own ∨ (s.owl.own = 0 ∧ s.timeQualified) then s.timeRefused
  else (s.onOwl (fun o => { o with setPend := none, setDue := some (s.ef F.TIME_SET_NS_VALUE) })).showOwl

/-- A Set acts (R87): the counter takes its value, and the state is FREE. -/
def State.actSet (s : State) : State :=
  match s.owl.setDue with
  | none => s
  | some v =>
    let s := (s.stepCounter ((v : Int) * 65536)).onOwl (fun o =>
      { o with own := 1, source := 0, hostSet := true, tracking := false, setDue := none, stepOk := none })
    (s.setEf F.TIME_STATE_STEP_PEND 0).settleOwl

/-- TIME_SET. -/
def execTimeSet (s : State) : Host.Outcome State Fault Refusal := .next s.timeSet

/-- A Set with AT_PPS: TIME_SET_NS is captured (R89). -/
def State.timeSetAtPps (s : State) : State :=
  if 2 ≤ s.owl.own ∨ s.owl.pps.cond ≠ 3 ∨ (s.owl.own = 0 ∧ s.timeQualified) then s.timeRefused
  else (s.onOwl (fun o => { o with setPend := some (s.ef F.TIME_SET_NS_VALUE, s.round) })).settleOwl

/-- TIME_SET_AT_PPS. -/
def execTimeSetAtPps (s : State) : Host.Outcome State Fault Refusal := .next s.timeSetAtPps

/-- TIME_CTL.CANCEL (R89). -/
def State.timeCancel (s : State) : State := (s.onOwl (fun o => { o with setPend := none })).showOwl

/-- TIME_CANCEL. -/
def execTimeCancel (s : State) : Host.Outcome State Fault Refusal := .next s.timeCancel

/-- TIME_CTL.STEP_OK (R90): accepted while a step is pending and no timetabled reservation is admitted. -/
def State.acceptStep (s : State) : State :=
  if s.ef F.TIME_STATE_STEP_PEND = 1 ∧ s.tables = [] then s.onOwl (fun o => { o with stepOk := some s.owl.ns }) else s.timeRefused

/-- STEP_OK. -/
def execStepOk (s : State) : Host.Outcome State Fault Refusal := .next s.acceptStep

/-- TIME_STEP (R90): at the next round boundary of the old counter, strictly after the acceptance (R19), the counter takes the
reference time. -/
def execTimeStep (s : State) : Host.Outcome State Fault Refusal :=
  .next (if s.owl.stepOk.any (fun k => decide (k < s.owl.ns)) ∧ s.atRound ∧ s.ef F.TIME_STATE_STEP_PEND = 1 then
    let s := (s.stepCounter (s.owl.time - s.owl.offset)).onOwl (fun o => { o with stepOk := none })
    ((s.setEf F.TIME_STATE_STEP_PEND 0).reportOffset 0).settleOwl
  else s)

/-- A write to TIME_CTL (R91): CANCEL, then SET, then STEP_OK. -/
def State.writeTimeCtl (s : State) (w src : Nat) : State :=
  let s := s.writeHost F.TIME_CTL_SET.reg w src noBad
  let s := if bitOf w 3 then s.timeCancel else s
  let s := if bitOf w 0 then (if bitOf w 1 then s.timeSetAtPps else s.timeSet) else s
  if bitOf w 2 then s.acceptStep else s

/-! ## Standby power -/

/-- The always-on registers, at their values after standby power is applied (R92, R565, R581, R707). -/
def State.standbyRegs (s : State) : State :=
  { s with regs := s.regs.filter (fun (e : Nat × Word) => !alwaysOn e.1) }

/-- 300 s (R85). -/
def warmTicks : Nat := 300000000000

/-- STANDBY_POWER_APPLIED (R61): the counter and fraction start from 0, in UNSYNC. -/
def execStandbyPowerApplied (s : State) : Host.Outcome State Fault Refusal :=
  .next (if s.module.standby then s
  else
    { s.standbyRegs with owl := Owl.start, module := { s.module with standby := true, mainState := 0 } })

/-- WARM_UP_DONE (R85): 300 s after standby power is applied. -/
def execWarmUpDone (s : State) : Host.Outcome State Fault Refusal :=
  .next (if s.module.standby ∧ warmTicks ≤ s.owl.up then s.setEf F.TIME_STATE_WARM 1 else s)

/-! ## Stretching (R94) -/

/-- A tile whose clock runs loses cycles to a stretch. -/
def Tile.lose (T : Tile) (n : Nat) : Tile :=
  if T.sleepFrom.isSome ∨ T.clockHold ∨ T.power = .off ∨ T.power = .hib then T else T.addFld F.STRETCH_CYCLES_LOST n

/-- A stretch goes beyond the bounds of R94: DROOP_OVER is set and reported over management. -/
def State.droopOver (s : State) : State :=
  (s.setEf F.TIME_STATE_DROOP_OVER 1).report .droopOver

/-- DROOP_STRETCH: the loss of the stretch grows by `n` whole nominal cycles; `deep` says that it goes beyond 5 %. -/
def execDroopStretch (n : BitVec 8) (deep : Bool) (s : State) : Host.Outcome State Fault Refusal :=
  let now := s.owl.ns
  let (start, lost) := s.stretch.getD (now, 0)
  let soon : Bool := s.stretch.isNone && s.stretchAt.any (fun t => decide (now < t + 4096))
  let beyond : Bool := deep || soon || decide (start + 2000 < now) || decide (25 * plMult s.plevel < lost + n.toNat)
  let s := { s with tiles := NMap.tabulate tileDflt 10800 (fun t => (s.tile t).lose n.toNat), stretch := some (start, lost + n.toNat),
                    stretchAt := some start }
  .next (if beyond then s.droopOver else s)

/-- CLOCK_REALIGN: at the first 4-tick boundary after a stretch ends, so the stretch ended less than four ticks ago. One that
lasted beyond 2,000 ticks is reported. -/
def execClockRealign (s : State) : Host.Outcome State Fault Refusal :=
  .next (if s.owl.ns % 4 = 0 then
    let long := s.stretch.any (fun x => decide (x.1 + 2004 ≤ s.owl.ns))
    let s := { s with stretch := none }
    if long then s.droopOver else s
  else s)

end Sys2Proof.Machine
end

