-- ==== Sys2Proof/Machine/RegWrite.lean ====
section
/-!
DEFINITION. Host register space as a whole (R24, R25, R676 to R680): what a read returns, and what a write does.
-/
namespace Sys2Proof.Machine

/-! ## Reading -/

/-- DUM_INFO (R53). -/
def State.dumInfo (s : State) : Nat :=
  let v := s.vacantBlocks
  let pending := s.tiles.any (fun (e : Nat × Tile) => e.2.marked) || s.blocks.any (fun (e : Nat × BlockSt) => e.2.retire) || s.markCols != []
  s.ef F.DUM_INFO_GENERATION + v * 2 ^ 32 + b2n (v != 0) * 2 ^ 42 + b2n pending * 2 ^ 43

/-- SPARE_STATUS (R57). -/
def State.spareStatus (s : State) : Nat :=
  let enabled := (List.range 720).filter (fun b => !s.vacant b)
  let arrays := (enabled.flatMap tilesOfBlock).filter (fun t => bitsOf (s.mapEntry t) 14 6 == 32)
  let links := (List.range 64).filter (fun l => s.lf l F.LINK_STATUS_SPARE_USED == 0)
  (48 - s.spareBlocks.length) + (enabled.filter (fun b => !s.spareTiles.contains b)).length * 2 ^ 6 + arrays.length * 2 ^ 16 +
    links.length * 2 ^ 30

/-- What a read of the host register at offset `a` returns (R24, R677): 0 for a WO field and for an unassigned offset. -/
def State.readReg (s : State) (a : Nat) : Word :=
  let w := s.hostWord a
  if (hostReg a).isNone then 0
  else match pageOf a with
  | .engine =>
    match a with
    | 0x08 => BitVec.ofNat 64 s.dumInfo
    | 0x10 | 0x18 | 0x20 | 0x28 => BitVec.ofNat 64 (ofLeBytes ((s.mapDigest.drop (a - 0x10)).take 8))
    | 0x38 => BitVec.ofNat 64 (s.mapShown (s.ef F.MAP_SEL_LJ * 120 + s.ef F.MAP_SEL_LI))
    | 0x40 => BitVec.ofNat 64 s.spareStatus
    | 0x100 => BitVec.ofNat 64 s.owl.ns
    | 0x108 => BitVec.ofNat 64 ((Config.hostFrac s.free).toNat + s.owl.ns % 2 ^ 32 * 2 ^ 16)
    | 0x408 => setWordField w 0 15 s.trace.length
    | 0x410 => (s.trace.head?.map (·.1)).getD 0
    | 0x418 => (s.trace.head?.map (·.2)).getD 0
    | _ => w
  | .ctx c =>
    match a - ctxPage c with
    | 0x18 => setWordField w 3 1 (b2n (s.fenced c && s.ctxQuiesced c))
    | 0x28 => BitVec.ofNat 64 (s.ctxIdle0 c)
    | 0x30 => BitVec.ofNat 64 (s.ctxIdle1 c)
    | _ => w
  | .queue c q =>
    if a = queuePage c q + 0x18 then
      setWordField (setWordField w 48 1 (b2n ((s.queue c q).phase == 2))) 49 1 (b2n (s.queue c q).waitFrom.isSome)
    else w
  | .link l => if a = linkPage l + 0x08 then setWordField w 20 1 (b2n (s.link l).swapAt.isSome) else w
  | _ => w

/-- A read with its side effect (R27, R673): TRACE_DATA1 removes the oldest record. A host read of TIME_NOW_FRAC takes a fresh
free value. -/
def State.takeReg (s : State) (a : Nat) : State × Word :=
  let w := s.readReg a
  if a = 0x418 then ({ s with trace := s.trace.tail }, w)
  else if a = 0x108 then ({ s with free := s.free + 1 }, w) else (s, w)

/-! ## Reserved encodings beyond the tables -/

/-- Does a written field change? -/
def State.changes_ (s : State) (a w : Nat) (f : Fld) : Bool := bitsOf w f.lo f.width != bitsOf (s.hostWord a).toNat f.lo f.width

/-- Does a partition hold a live reservation on a link (R518)? -/
def State.holdsLink (s : State) (p l : Nat) : Bool :=
  s.tables.any (fun tb => tb.part == p && tb.entries.any (fun x => (x.kind == 2 || x.kind == 3) && x.link == l))

/-- Fields of a partition page that hold a reserved encoding for a reason beyond the tables. -/
def State.badPart (s : State) (p a w : Nat) (f : Fld) : Bool :=
  match a - partPage p with
  | 0x00 => s.pstate p != 0
  | 0x18 => s.changes_ a w f && s.ctxsOf p != []
  | 0x48 => f == F.RECOV_CTL_SOLO_CTX && s.changes_ a w f &&
      !(s.cf (bitsOf w 2 6) F.CTX_CFG_VALID == 1 && s.cf (bitsOf w 2 6) F.CTX_CFG_PART == p)
  | 0x68 => s.pf p F.HIB_STATUS_PHASE != 0
  | 0xA8 => f == F.FOX_RING_PTR_HEAD &&
      s.pf p F.FOX_DUMP_BASE_SLOTS < (s.pf p F.FOX_RING_PTR_TAIL + 2 ^ 32 - bitsOf w 32 32) % 2 ^ 32
  | 0xC0 => w < s.owl.ns + 4096
  | _ => false

/-- Fields of a queue's registers that hold a reserved encoding (R693, R713 to R716). -/
def State.badQueue (s : State) (c q a w : Nat) (f : Fld) : Bool :=
  let b := queuePage c q
  let en := s.hf b F.Q_CFG_EN == 1
  let ring := 2 ^ s.hf b F.Q_CFG_SIZE
  match a - b with
  | 0x00 => en && s.changes_ a w f
  | 0x20 => en && s.changes_ a w f
  | 0x08 => (f == F.Q_CFG_SIZE && en && s.changes_ a w f) ||
      (f == F.Q_CFG_EN && bitOf w 0 && s.cf c F.CTX_CFG_QUEUES < q)
  | 0x10 => !en || s.fenced c || ring < (bitsOf w 0 16 + 65536 - s.hf b F.Q_PTR_HEAD) % 65536
  | 0x28 => f == F.CQ_PTR_CHEAD && ring < (s.hf b F.CQ_PTR_CTAIL + 65536 - bitsOf w 0 16) % 65536
  | _ => false

/-- Fields of a host write that hold a reserved encoding for a reason beyond the tables. -/
def State.badHost (s : State) (a w : Nat) (f : Fld) : Bool :=
  match pageOf a with
  | .engine => a == 0x310 && (List.range 256).any (fun g => s.hf (groupPage g) F.GRP_CTRL_VALID == 1)
  | .part p => s.badPart p a w f
  | .queue c q => s.badQueue c q a w f
  | .group g => s.hf (groupPage g) F.GRP_CTRL_VALID == 1 && s.changes_ a w f
  | .link l => a == linkPage l + 0x30 &&
      (List.range 16).any (fun p => bitOf (s.lf l F.LINK_OWNER_PARTS) p && !bitOf w p && s.holdsLink p l)
  | .block b => a == blockPage b &&
      (((f == F.MEM_CLASS_CFG_FLOOR_N || f == F.MEM_CLASS_CFG_FLOOR_W || f == F.MEM_CLASS_CFG_FLOOR_B) &&
          48 < bitsOf w 0 6 + bitsOf w 8 6 + bitsOf w 16 6) ||
        ((f == F.MEM_CLASS_CFG_WM_HI || f == F.MEM_CLASS_CFG_WM_LO) && bitsOf w 24 8 ≤ bitsOf w 32 8))
  | _ => false

/-! ## Writing -/

/-- A write to IRQ_MASK (R709): a mask bit that is cleared while its status bit is 1 sends the bit's vector. -/
def State.writeIrqMask (s : State) (w src : Nat) : State :=
  let a := F.IRQ_MASK_TIME.reg
  let old := (s.hostWord a).toNat
  let status := (s.hostWord F.IRQ_STATUS_TIME.reg).toNat
  let s := s.writeHost a w src noBad
  let new := (s.hostWord a).toNat
  (List.range 32).foldl (fun (s : State) n =>
    if bitOf status n ∧ bitOf old n ∧ !bitOf new n then s.vector 0 (if n < 16 then 0 else n - 15) else s) s

/-- The engine writes the map image to the host (R705, R708): 43,264 bytes in lines of 64. -/
def State.writeMapImg (s : State) (w src : Nat) : State :=
  let s := s.writeHost F.MAP_IMG_GO.reg w src noBad
  if !bitOf w 0 then s
  else
    let a := s.ef F.MAP_IMG_ADDR * 64
    let image := s.mapImage
    let s := if s.linkUp then
        (List.range 676).foldl (fun (s : State) k => s.hostWrite (a + 64 * k) 64 (ofLeBytes ((image.drop (64 * k)).take 64))) s
      else s
    s.setEf F.MAP_IMG_DONE 1

/-- A write to a queue's doorbell (R693, R715). -/
def State.writeDoorbell (s : State) (c q w src : Nat) : State :=
  let a := queuePage c q + F.Q_DB_TAIL.reg
  let bad := s.badQueue c q a w F.Q_DB_TAIL
  let s := s.writeHost a w src (fun _ => bad)
  if bad then s else s.setHf (queuePage c q) F.Q_PTR_TAIL (bitsOf w 0 16)

/-- A write to an engine register. -/
def State.writeEngine (s : State) (a w src : Nat) : State :=
  let before := s
  match a with
  | 0x68 => s.writeMapImg w src
  | 0x120 => (s.writeHost a w src noBad).settleOwl
  | 0x130 => s.writeTimeCtl w src
  | 0x200 => s.writePlvl w src
  | 0x210 => s.writeEngineReset w src
  | 0x318 =>
    let s := s.writeHost a w src noBad
    if bitOf w 8 then (s.submitChange (s.ef F.GRP_CHG_GROUP) src).onceRejected before else s
  | 0x508 => s.writeIrqMask w src
  | _ => s.writeHost a w src (s.badHost a w)

/-- A write to a register of a partition page. -/
def State.writePart (s : State) (p a w src : Nat) : State :=
  let plain := s.writeHost a w src (s.badHost a w)
  match a - partPage p with
  | 0x08 =>
    match bitsOf w 0 2 with
    | 1 => plain.create p src
    | 2 => plain.destroy p src
    | _ => plain
  | 0x28 =>
    match bitsOf w 0 2 with
    | 1 => plain.submit p
    | 2 => plain.withdraw p (bitsOf w 2 8)
    | _ => plain
  | 0x48 =>
    let s := if bitOf w 0 then plain.partReset p 5 src else plain
    if bitOf w 8 then s.treset p (bitsOf w 9 14) src else s
  | 0x58 => if !bitOf w 0 || bitOf w 1 then plain.provClear p else plain
  | 0x60 =>
    match bitsOf w 0 2 with
    | 1 => plain.hibEnter p
    | 2 => plain.hibWake p 7
    | _ => plain
  | 0x88 => if bitOf w 0 then plain.partRelease p else plain
  | 0x90 => s.writeDumpBase p w src
  | 0xA0 => s.writeLatchAt p w src
  | 0xB8 => if bitsOf w 0 2 = 3 then plain else plain.setPf p F.DBG_PART_CTL_ARMED (b2n (bitsOf w 0 2 != 0))
  | _ => plain

/-- A write to a register of a context page. -/
def State.writeCtx (s : State) (c a w src : Nat) : State :=
  match a - ctxPage c with
  | 0x00 => s.writeCtxCfg c w src
  | 0x08 =>
    let s := s.writeHost a w src noBad
    s.setMemUsed c (s.cf c F.CTX_USE_MEM_USED)
  | 0x18 =>
    let s := s.writeHost a w src noBad
    if bitOf w 1 then s.startCtxReset c 1 src else if bitOf w 0 then s.fenceCtx c 1 src else s
  | _ => s.writeHost a w src (s.badHost a w)

/-- A write to a register of a link page. -/
def State.writeLink (s : State) (l a w src : Nat) : State :=
  let plain := s.writeHost a w src (s.badHost a w)
  match a - linkPage l with
  | 0x00 =>
    let s := if bitOf w 0 then plain.linkEnable l else if s.lf l F.LINK_CFG_EN = 1 then plain.linkLeave l else plain
    let s := if bitOf w 1 then s.linkLeave l else s
    if bitOf w 2 then s.linkClear l else s
  | 0x18 => plain.settleOwl
  | _ => plain

/-- A write of `w` to the host register at offset `a` by source `src`, with its effects. -/
def State.writeReg (s : State) (a w src : Nat) : State :=
  match pageOf a with
  | .engine => if (hostReg a).isNone then s.hostReject a src else s.writeEngine a w src
  | pg => State.onceRejected (if (hostReg a).isNone then s.hostReject a src
    else match pg with
      | .part p => s.writePart p a w src
      | .ctx c => s.writeCtx c a w src
      | .queue c q => if a = queuePage c q + 0x10 then s.writeDoorbell c q w src else s.writeHost a w src (s.badHost a w)
      | .group g => if a = groupPage g then s.writeGrpCtrl g w src else s.writeHost a w src (s.badHost a w)
      | .link l => s.writeLink l a w src
      | .block b =>
        let s := s.writeHost a w src (s.badHost a w)
        if a = blockPage b + 0x08 ∧ bitOf w 10 then s.scrubNow b else s
      | .engine | .none => s) s

/-- REGISTER_WRITE (R24). -/
def execRegisterWrite (r : RegIx) (w : BitVec 64) (src : Fin 4) (s : State) : Host.Outcome State Fault Refusal :=
  .next (match r with
    | .host off => s.writeReg off.toNat w.toNat src
    | .tile t addr => s.writeCtl t addr.toNat w.toNat src)

/-- Q_DB_WRITE. -/
def execQDbWrite (c : CtxIx) (q : QueueIx) (w : BitVec 64) (src : Fin 4) (s : State) : Host.Outcome State Fault Refusal :=
  .next (s.writeDoorbell c q w.toNat src)

/-- IRQ_MASK_WRITE. -/
def execIrqMaskWrite (w : BitVec 64) (src : Fin 4) (s : State) : Host.Outcome State Fault Refusal :=
  .next (s.writeIrqMask w.toNat src)

/-- MAP_IMG_WRITE. -/
def execMapImgWrite (w : BitVec 64) (src : Fin 4) (s : State) : Host.Outcome State Fault Refusal :=
  .next (s.writeMapImg w.toNat src)

end Sys2Proof.Machine
end

