-- ==== Sys2Proof/Machine/Debug.lean ====
section
/-!
DEFINITION. The test access port and its access frames (R659 to R664), the physical scan chains (R669), and the trace unit
(R671 to R673).
-/
namespace Sys2Proof.Machine

/-! ## Access frames -/

/-- Perform a command on a host register (R662, R663). A TAKE that meets the host's on one register in one tick comes after it
(R672). -/
def State.debugHost (s : State) (op f : Nat) : State :=
  let a := frameAddr f
  match op with
  | 1 => s.tapAnswer f (s.readReg a).toNat 0
  | 2 =>
    let s := if s.tap.hostTook ∧ a = F.TRACE_DATA1_W1.reg then s.setEf F.DBG_CONFLICT_TAKE 1 else s
    let (s, w) := s.takeReg a
    s.tapAnswer f w.toNat 0
  | _ => (s.writeReg a (frameData f) 2).tapAnswer f 0 0

/-- Update-DR with a DBG_ACCESS frame: the command `op` runs, and RESULT says how it ended (R661). -/
def State.debugFrame (s : State) (op f : Nat) : State :=
  let t := frameTile f
  let tile := frameTarget f < 2
  if s.tap.held.isSome then { s with tap := { s.tap with ir := 0x10, dr := captureFrame f 0 1 true } }
  else if !s.debugOpen then s.tapAnswer f 0 2
  else if frameBad op f ∨ (op ≠ 0 ∧ frameTarget f = 2 ∧ (hostReg (frameAddr f)).isNone) then s.tapAnswer f 0 3
  else if op = 0 then s.tapAnswer f 0 0
  else if tile ∧ (s.tile t).power = .hib then
    { s with tap := { s.tap with ir := 0x10, dr := captureFrame f 0 6 true, held := some f } }
  else if tile ∧ ((s.tile t).inReset ∨ s.covered t) then s.tapAnswer f 0 4
  else if tile then s.debugTile op f else s.debugHost op f

/-- DEBUG_NOP: OP 0, or a reserved OP. -/
def execDebugNop (f : BitVec 112) (s : State) : Host.Outcome State Fault Refusal :=
  .next (s.debugFrame (if frameOp f.toNat < 4 then 0 else 4) f.toNat)

/-- DEBUG_PEEK. -/
def execDebugPeek (f : BitVec 112) (s : State) : Host.Outcome State Fault Refusal := .next (s.debugFrame 1 f.toNat)

/-- DEBUG_TAKE. -/
def execDebugTake (f : BitVec 112) (s : State) : Host.Outcome State Fault Refusal := .next (s.debugFrame 2 f.toNat)

/-- DEBUG_WRITE. -/
def execDebugWrite (f : BitVec 112) (s : State) : Host.Outcome State Fault Refusal := .next (s.debugFrame 3 f.toNat)

/-! ## The other instructions of the TAP (R659) -/

/-- An instruction selects its data register, whose capture is `dr`. -/
def State.selectIr (s : State) (ir dr : Nat) : State := { s with tap := { s.tap with ir := ir, dr := dr } }

/-- EXTEST: the boundary scan takes the pins of the trace port; records that would leave by them stay (R672). -/
def execExtest (s : State) : Host.Outcome State Fault Refusal :=
  let s := ({ s with free := s.free + 1 } : State).selectIr 0x00 (Config.freeWord s.free).toNat
  .next (if s.ef F.TRACE_CFG_EN = 1 ∧ s.trace ≠ [] then s.setEf F.DBG_CONFLICT_TRACE_PINS 1 else s)

/-- IDCODE. -/
def execIdcode (s : State) : Host.Outcome State Fault Refusal := .next (s.selectIr 0x01 0x1D40114F)

/-- SAMPLE/PRELOAD. -/
def execSamplePreload (s : State) : Host.Outcome State Fault Refusal :=
  .next (({ s with free := s.free + 1 } : State).selectIr 0x02 (Config.freeWord s.free).toNat)

/-- BYPASS, and every code that is not listed. -/
def execBypass (code : BitVec 8) (s : State) : Host.Outcome State Fault Refusal := .next (s.selectIr code.toNat 0)

/-- Does SCAN_PHYS shift the chains? Only while unlocked, and held by an engine reset before bring-up (R660, R669). -/
def State.scanOpen (s : State) : Bool := s.debugOpen && s.engReset.isSome && s.ef F.BOOT_STATUS_STAGE == 4

/-- SCAN_PHYS. -/
def execScanPhys (s : State) : Host.Outcome State Fault Refusal :=
  .next (if s.scanOpen then
    let s := ({ s with free := s.free + 1 } : State).selectIr 0x20 (Config.freeWord s.free).toNat
    { s with tap := { s.tap with scanned := true } }
  else s.selectIr 0x20 0)

/-! ## Trace -/

/-- W0 of a record. -/
def traceW0 (tile kind pc code : Nat) : Word :=
  BitVec.ofNat 64 (pc + tile * 2 ^ 22 + kind * 2 ^ 36 + (if kind = 1 ∨ kind = 6 then code else 0) * 2 ^ 39)

/-- A record is dropped (R671). -/
def State.traceDrop (s : State) (kind : Nat) : State :=
  let s := ({ s with dropped := s.dropped + 1 } : State).satHf 0 F.TRACE_STATUS_DROPPED 1
  let s := s.setEf F.TRACE_STATUS_DROP_SEEN 1
  if kind = 0 ∨ kind = 5 then s.setEf F.DBG_CONFLICT_TRACE_BUF 1 else s

/-- A traced event: a record, behind a drop marker where records have been dropped since the last one (R671). -/
def State.traceEvent (s : State) (kind pc code : Nat) : State :=
  let tile := s.ef F.TRACE_CFG_TILE
  let room := 16384 - s.trace.length
  let need := if s.dropped = 0 then 1 else 2
  if s.ef F.TRACE_CFG_EN = 0 then s
  else if ((kind = 0 ∨ kind = 5) ∧ room < 64) ∨ room < need then s.traceDrop kind
  else
    let ns := BitVec.ofNat 64 s.owl.ns
    let marker := if s.dropped = 0 then [] else [(traceW0 tile 6 0 (satTo 8 s.dropped), ns)]
    { s with trace := s.trace ++ marker ++ [(traceW0 tile kind pc code, ns)], dropped := 0 }

/-- TRACE_RECORD. -/
def execTraceRecord (kind : Fin 6) (pc : BitVec 22) (code : BitVec 8) (s : State) : Host.Outcome State Fault Refusal :=
  .next (s.traceEvent kind pc.toNat code.toNat)

/-- A host read with its answer (R677). -/
def State.hostRead (s : State) (a : Nat) : State :=
  let (s, w) := s.takeReg a
  { s with reply := { status := 0, poisoned := false, data := w.toNat },
           tap := { s.tap with hostTook := s.tap.hostTook || a == F.TRACE_DATA1_W1.reg } }

/-- TRACE_DATA1_READ (R673). -/
def execTraceData1Read (s : State) : Host.Outcome State Fault Refusal := .next (s.hostRead F.TRACE_DATA1_W1.reg)

end Sys2Proof.Machine
end

