-- ==== Sys2Proof/Machine/HostIf.lean ====
section
/-!
DEFINITION. The host interface: accesses to the BARs (R674 to R686), the management commands (R698 to R700), the PCIe link and its
configuration (R681), and bring-up (R701 to R704).
-/
namespace Sys2Proof.Machine

/-! ## Accesses -/

/-- Answer a host access or a management command. -/
def State.answer (s : State) (status data : Nat) (poisoned : Bool) : State :=
  { s with reply := { status := status, poisoned := poisoned, data := data } }

/-- Does a function answer memory requests? Not without a link, before the end of stage 1 (R702), nor in D3hot (R674). -/
def State.answers (s : State) (fn : Nat) : Bool :=
  s.linkUp && (2 ≤ s.ef F.BOOT_STATUS_STAGE || s.ef F.BOOT_STATUS_ERROR != 0) && !s.d3.contains fn &&
    (fn == 0 || s.vfs.contains fn)

/-- Registers of a context page whose fields act as RO through VF BAR0 (R679). -/
def vfReadOnly (o : Nat) : Bool := [0x00, 0x08, 0x40, 0x80, 0x88, 0x90, 0x98].contains o

/-- A write to a register whose fields all act as RO: only nonzero RSV bits count (R24, R25). -/
def State.writeReadOnly (s : State) (a w src : Nat) : State :=
  match hostReg a with
  | some r => if r.rsvBits w = 0 then s else s.hostReject a src
  | none => s.hostReject a src

/-- A host access to BAR0, or to VF BAR0 of a context (R676, R677, R679). -/
def State.hostAccess (s : State) (vf : Option CtxIx) (off n : Nat) (wr : Bool) (w : Nat) : State :=
  let fn := (vf.map (fun c => c.val + 1)).getD 0
  let a := match vf with
    | some c => ctxPage c.val + off
    | none => off
  if !s.answers fn then s
  else if n ≠ 8 ∨ off % 8 ≠ 0 ∨ (vf.isSome ∧ 0x10000 ≤ off) then s.answer 1 0 false
  else if vf.isSome ∧ 0x8000 ≤ off then
    if wr then s else ({ s with free := s.free + 1 } : State).answer 0 (Config.freeWord s.free).toNat false
  else if wr then (if vf.isSome ∧ vfReadOnly off then s.writeReadOnly a w 1 else s.writeReg a w 1)
  else s.hostRead a

/-- HOST_REGISTER_ACCESS. -/
def execHostRegisterAccess (vf : Option CtxIx) (off : BitVec 28) (n : BitVec 13) (wr : Bool) (w : BitVec 64) (s : State) :
    Host.Outcome State Fault Refusal :=
  .next (s.hostAccess vf off.toNat n.toNat wr w.toNat)

/-! ## Apertures (R684 to R686) -/

/-- The pieces of `n` bytes from partition offset `o` on, by line: the offset of each in the access and its length. -/
def linePieces (o : Nat) : Nat → Nat → List (Nat × Nat)
  | 0, _ => []
  | fuel + 1, n =>
    if n = 0 then []
    else
      let k := min n (64 - o % 64)
      (0, k) :: (linePieces (o + k) fuel (n - k)).map (fun x => (x.1 + k, x.2))

/-- A read of partition memory for the host, in class N: the data and the poisoned bit. -/
def State.apertureRead (s : State) (p o n : Nat) (errs : List LineErr) : State :=
  let ps := linePieces o 66 n
  let r := ((List.range ps.length).zip ps).foldl (fun (x : State × Nat × Bool) (i : Nat × Nat × Nat) =>
    let (s, v, code) := x.1.readStacked (s.interleave p (o + i.2.1)) i.2.2 (errs.getD i.1 []) false 0 1
    (s, x.2.1 + v * 2 ^ (8 * i.2.1), x.2.2 || code != 0)) (s, 0, false)
  r.1.answer 0 r.2.1 r.2.2

/-- A write of partition memory for the host, in class W. -/
def State.apertureWrite (s : State) (p o n data : Nat) (errs : List LineErr) : State :=
  let ps := linePieces o 66 n
  ((List.range ps.length).zip ps).foldl (fun (s : State) (i : Nat × Nat × Nat) =>
    (s.writeStacked (s.interleave p (o + i.2.1)) i.2.2 (bitsOf data (8 * i.2.1) (8 * i.2.2)) (errs.getD i.1 []) 2).1) s

/-- An access through an aperture to offset `o` of partition `p` (R685): judged whole. `own` says that every granule touched is
the context's own (R686). -/
def State.aperture (s : State) (p o n : Nat) (en own wr : Bool) (data : Nat) (errs : List LineErr) : State :=
  if !en ∨ s.blockCount (some p) * blockBytes < o + n then (if wr then s else s.answer 1 0 false)
  else if s.pstate p ≠ 2 ∨ !own then (if wr then s else s.answer 2 0 false)
  else if wr then s.apertureWrite p o n data errs else s.apertureRead p o n errs

/-- PF_APERTURE_ACCESS. -/
def execPfApertureAccess (off : BitVec 36) (n : BitVec 13) (wr : Bool) (data : Nat) (errs : List LineErr) (s : State) :
    Host.Outcome State Fault Refusal :=
  .next (if !s.answers 0 then s
  else s.aperture (s.ef F.APERTURE_PART) (s.ef F.APERTURE_BASE_GIB * 2 ^ 30 + off.toNat) n.toNat (s.ef F.APERTURE_EN == 1) true wr
    data errs)

/-- VF_APERTURE_ACCESS. -/
def execVfApertureAccess (c : CtxIx) (off : BitVec 32) (n : BitVec 13) (wr : Bool) (data : Nat) (errs : List LineErr)
    (s : State) : Host.Outcome State Fault Refusal :=
  let p := s.cf c F.CTX_CFG_PART
  let o := s.cf c F.CTX_APERTURE_BASE_GIB * 2 ^ 30 + off.toNat
  let first := o / 2 ^ 21
  let count := (o + n.toNat - 1) / 2 ^ 21 + 1 - first
  let own := (List.range count).all (fun k => s.granOwner p (first + k) == c.val + 1)
  .next (if !s.answers (c.val + 1) then s
  else s.aperture p o n.toNat (s.cf c F.CTX_APERTURE_EN == 1) own wr data errs)

/-! ## The link and the configuration -/

/-- PCIE_LINK_UP (R687): the link returns. -/
def execPcieLinkUp (s : State) : Host.Outcome State Fault Refusal :=
  .next (if s.module.mainPg ∧ !s.module.perst ∧ 2 ≤ s.ef F.BOOT_STATUS_STAGE then { s with linkUp := true } else s)

/-- PCIE_CONFIG_WRITE (R681). -/
def execPcieConfigWrite (op : CfgOp) (s : State) : Host.Outcome State Fault Refusal :=
  .next (if !s.linkUp then s
  else match op with
    | .vfs n => { s with vfs := (List.range n.val).map (· + 1) }
    | .master fn on => { s with master := if on then insertNat fn.val (s.master.filter (· != fn.val)) else s.master.filter (· != fn.val) }
    | .power fn d3 => { s with d3 := if d3 then insertNat fn.val (s.d3.filter (· != fn.val)) else s.d3.filter (· != fn.val) })

/-! ## Management (R700) -/

/-- A management command: nothing without standby power, NOT_POWERED where it needs the 48 V domain and that is off, else `f`. -/
def State.managed (s : State) (needs : Bool) (f : State → State) : State :=
  if !s.module.standby then s
  else if needs ∧ !s.module.mainPg then s.answer 3 0 false
  else f s

/-- A management command has changed engine state (R709). -/
def State.mgmtDone (s : State) : State := (s.irq F.IRQ_STATUS_MGMT).answer 0 0 false

/-- MGMT_REG_READ: without a read side effect. -/
def execMgmtRegRead (off : BitVec 28) (s : State) : Host.Outcome State Fault Refusal :=
  .next (s.managed (!alwaysOn off.toNat) (fun s => s.answer 0 (s.readReg off.toNat).toNat false))

/-- MGMT_REG_WRITE: with SRC 3. -/
def execMgmtRegWrite (off : BitVec 28) (w : BitVec 64) (s : State) : Host.Outcome State Fault Refusal :=
  .next (s.managed (!alwaysOn off.toNat) (fun s => (s.writeReg off.toNat w.toNat 3).mgmtDone))

/-- PART_WAKE: with SOURCE 8. -/
def execPartWake (p : PartIx) (s : State) : Host.Outcome State Fault Refusal :=
  .next (s.managed true (fun s => (s.hibWake p 8).mgmtDone))

/-- MGMT_ENGINE_RESET: with CAUSE 9; inside a step in progress it is rejected (R554). -/
def execMgmtEngineReset (s : State) : Host.Outcome State Fault Refusal :=
  .next (s.managed true (fun s => (if s.engReset.isSome then s.hostReject F.ENGINE_RESET_KEY.reg 3 else s.startEngine 9).mgmtDone))

/-- MGMT_POWER_CYCLE. -/
def execMgmtPowerCycle (s : State) : Host.Outcome State Fault Refusal :=
  .next (s.managed true (fun s => (s.requestCycle 9).mgmtDone))

/-- DEBUG_CHALLENGE: a nonce of 32 bytes. -/
def execDebugChallenge (s : State) : Host.Outcome State Fault Refusal :=
  .next (s.managed false (fun s =>
    let nonce := (List.range 4).foldl (fun n k => n + (Config.freeWord (s.free + k)).toNat * 2 ^ (64 * k)) 0
    ({ s with free := s.free + 4, tap := { s.tap with nonce := some nonce } } : State).answer 0 nonce false))

/-- Debug is unlocked or locked, which measurement 7 records (R701). -/
def State.setDebug (s : State) (open_ : Nat) : State :=
  { s.setEf F.BOOT_STATUS_DEBUG_OPEN open_ with dbgEvents := s.dbgEvents + 1 }

/-- DEBUG_UNLOCK: a nonce serves one command. -/
def execDebugUnlock (sig : BitVec 768) (s : State) : Host.Outcome State Fault Refusal :=
  .next (s.managed true (fun s =>
    match s.tap.nonce with
    | none => s.answer 4 0 false
    | some n =>
      let s := { s with tap := { s.tap with nonce := none } }
      if Config.signatureOk n Config.serial sig then (s.setDebug 1).mgmtDone else s.answer 4 0 false))

/-- DEBUG_LOCK. -/
def execDebugLock (s : State) : Host.Outcome State Fault Refusal :=
  .next (s.managed true (fun s => (s.setDebug 0).mgmtDone))

/-- SVN_COMMIT. -/
def execSvnCommit (s : State) : Host.Outcome State Fault Refusal :=
  .next (s.managed true (fun s => ({ s with svn := max s.svn (s.ef F.FW_VERSION_SVN) } : State).mgmtDone))

/-! ## Bring-up (R701 to R704) -/

/-- A stage is reported. -/
def State.toStage (s : State) (n : Nat) : State := s.setEf F.BOOT_STATUS_STAGE n

/-- Bring-up stops with an ERROR. -/
def State.bootError (s : State) (e : Nat) : State := (s.setEf F.BOOT_STATUS_ERROR e).irq F.IRQ_STATUS_BOOT

/-- Stage 6: every tile is reset; spares replace marked units and what the built-in tests find (R576). -/
def State.bootTiles (s : State) (found : List (TileIx × Option FailCol)) : State :=
  let old := s
  let s := { s with tiles := s.freshTiles s.plevel }
  ((s.bringIn (List.range 10800) found true).newMap old).toStage 7

/-- Stage 7 ends (R703); while a step is pending the engine accepts STEP_OK itself. -/
def State.timeStage (s : State) : State :=
  let state := s.ef F.TIME_STATE_STATE
  if s.ef F.BOOT_STATUS_STAGE ≠ 7 ∨ !s.module.mainPg then s
  else if s.ef F.TIME_STATE_STEP_PEND = 1 then (if s.owl.stepOk.isSome then s else s.acceptStep)
  else if state ≠ 0 ∧ (s.ef F.BOOT_CFG_WAIT_LOCK = 0 ∨ state = 3) then
    { (s.toStage 8).irq F.IRQ_STATUS_BOOT with engReset := none }
  else s

/-- BRING_UP: the stage in progress ends. `a` and `b` are the verdicts on copies A and B of the images (0 accepted, 1 signature,
2 SVN), `digest` says that the map's digest agrees, and `found` is what the built-in tests find. -/
def execBringUp (a b : Fin 3) (digest : Bool) (found : List (TileIx × Option FailCol)) (s : State) :
    Host.Outcome State Fault Refusal :=
  .next (if !s.module.mainPg ∨ s.ef F.BOOT_STATUS_ERROR ≠ 0 then s
  else match s.ef F.BOOT_STATUS_STAGE with
    | 1 =>
      if a.val = 0 then (s.setEf F.FW_VERSION_COPY 0).toStage 2
      else if b.val = 0 then (s.setEf F.FW_VERSION_COPY 1).toStage 2 else s.bootError b.val
    | 2 => if s.module.perst then s else s.toStage 3
    | 3 => if digest then s.toStage 4 else s.bootError 3
    | 4 => s.toStage 5
    | 5 => ({ s with mem := [], memUE := [], memPoison := [] } : State).toStage 6
    | 6 => s.bootTiles found
    | 7 => s.timeStage
    | _ => s)

/-- TIME_STAGE_END. -/
def execTimeStageEnd (s : State) : Host.Outcome State Fault Refusal := .next s.timeStage

end Sys2Proof.Machine
end

