-- ==== Sys2Proof/Machine/Module.lean ====
section
/-!
DEFINITION. The module: supplies, tray control, panel faults and thermal protection (R721 to R738), and the loss of standby
power (R98).
-/
namespace Sys2Proof.Machine

/-! ## Loss of the 48 V domain (R723) -/

/-- Change the module. -/
def State.onModule (s : State) (f : Module → Module) : State := { s with module := f s.module }

/-- Every tile without power, its mark kept. -/
def State.darkTiles (s : State) : NMap Tile :=
  NMap.tabulate tileDflt 10800 (fun t => { (s.tile t).unitKept with power := .off })

/-- The 48 V domain is lost: everything in it stops, stacked memory with it; the always-on domain, hall time and part data
continue. -/
def State.mainLoss (s : State) : State :=
  let cause := if s.module.cycleReq then s.module.cycleCause else 0
  let kept := s.resetEngine
  let s' := { kept with
    tiles := s.darkTiles, mem := [], memUE := [], memPoison := [], linkUp := false, engReset := none, stretch := none,
    tap := { s.tap with held := none, scanned := false }, blocks := kept.blocks }
  let s' := ((s'.resetConfig.setEf F.RESET_LOG_KIND 2).setEf F.RESET_LOG_CAUSE cause).setEf F.RESET_LOG_HOST_LOST 1
  let s' := ((s'.setEf F.RESET_TIME_NS s.owl.ns).setEf F.BOOT_STATUS_STAGE 0).setEf F.BOOT_STATUS_ERROR 0
  s'.onModule (fun M => { M with mainPg := false, cycleReq := false })

/-- Is the 48 V domain on, or the panel starting? -/
def State.panelOn (s : State) : Bool := s.module.mainState == 1 || s.module.mainState == 2

/-- The panel goes off: the domain is lost, and MAIN_STATE reads `state`. -/
def State.panelOff (s : State) (state : Nat) : State := s.mainLoss.onModule (fun M => { M with mainState := state })

/-- MAIN_POWER_LOSS: the 48 V input is removed. -/
def execMainPowerLoss (s : State) : Host.Outcome State Fault Refusal :=
  .next (if s.panelOn then (s.panelOff 0).onModule (fun M => { M with inputOk := false }) else s)

/-! ## Starting (R722, R730) -/

/-- May the panel soft-start? After a thermal trip the sensors must lie below the restart limits. -/
def State.mayStart (s : State) : Bool :=
  let M := s.module
  M.standby && M.mainEn && M.coolOk && M.inputOk && !M.latched && M.mainState == 0 &&
    M.offAt.all (fun t => decide (t + 1000000000 ≤ s.owl.ns)) &&
    (!(1 ≤ M.fault && M.fault ≤ 3) || (M.lastLogic ≤ 95 && M.lastDram ≤ 85))

/-- A MAIN_EN that is high is acted on once the conditions hold. -/
def State.softStart (s : State) (input cool : Bool) : State :=
  let s := s.onModule (fun M => { M with inputOk := input, coolOk := cool })
  if s.mayStart then s.onModule (fun M => { M with mainState := 1 }) else s

/-- MAIN_EN_HIGH. -/
def execMainEnHigh (input cool : Bool) (s : State) : Host.Outcome State Fault Refusal :=
  .next ((s.onModule (fun M => { M with mainEn := true })).softStart input cool)

/-- PANEL_SOFT_START. -/
def execPanelSoftStart (input cool : Bool) (s : State) : Host.Outcome State Fault Refusal := .next (s.softStart input cool)

/-- MAIN_POWER_GOOD: regulation is reached, MAIN_PG is released, and bring-up begins at stage 1. -/
def execMainPowerGood (s : State) : Host.Outcome State Fault Refusal :=
  .next (if s.module.mainState = 1 then
    (s.onModule (fun M => { M with mainState := 2, mainPg := true, fault := 0, offAt := none })).toStage 1
  else s)

/-- MAIN_EN_LOW: the panel goes off, latched faults and trips are cleared, and THERM_TRIP# is released. -/
def execMainEnLow (s : State) : Host.Outcome State Fault Refusal :=
  let now := s.owl.ns
  let s := if s.panelOn then s.panelOff 0 else s
  let s := if s.module.mainEn then s.onModule (fun M => { M with offAt := some now }) else s
  .next (s.onModule (fun M => { M with mainEn := false, latched := false, thermTrip := false, mainState := 0 }))

/-! ## Panel faults (R724) -/

/-- PANEL_FAULT: 0 undervoltage, 1 overvoltage, 2 overcurrent, 3 regulator. -/
def execPanelFault (kind : Fin 4) (s : State) : Host.Outcome State Fault Refusal :=
  .next (if !s.panelOn then s
  else (s.panelOff 3).onModule (fun M =>
    { M with fault := 4 + kind.val, latched := M.latched || kind.val != 0, inputOk := M.inputOk && kind.val != 0 }))

/-- UNDERVOLTAGE_RESTART: the input has stayed at 40 V or above for 100 ms with MAIN_EN high. No latched fault or trip may
stand (R738). -/
def execUndervoltageRestart (cool : Bool) (s : State) : Host.Outcome State Fault Refusal :=
  let s := s.onModule (fun M => { M with inputOk := true, coolOk := cool })
  let M := s.module
  .next (if M.standby && M.mainEn && cool && !M.latched && M.mainState == 3 && M.fault == 4 then
    s.onModule (fun M => { M with mainState := 1 }) else s)

/-! ## Thermal protection (R728 to R730) -/

/-- A reading that the sensor's range and self-check accept (R729). -/
def validTemp (x : Option Int) : Option Int :=
  match x with
  | some v => if -20 ≤ v ∧ v ≤ 140 then some v else none
  | none => none

/-- The reading of a sensor: its own where one is listed, else the common one. -/
def reading (base : Int) (l : List (Nat × Option Int)) (n : Nat) : Option Int :=
  validTemp (match l.find? (fun x => x.1 == n) with
    | some x => x.2
    | none => some base)

/-- The highest of some readings. -/
def hottest (l : List (Option Int)) : Option Int :=
  l.foldl (fun (b : Option Int) x => match b, x with
    | some y, some v => some (max y v)
    | none, v => v
    | b, none => b) none

/-- The quarters beside a quarter, up to four. -/
def quartersBeside (q : Nat) : List Nat :=
  let x := q % 8
  let y := q / 8
  (if x = 0 then [] else [q - 1]) ++ (if x = 7 then [] else [q + 1]) ++ (if y = 0 then [] else [q - 8]) ++
    (if y = 5 then [] else [q + 8])

/-- The value of a logic sensor: its reading, or the substitute of a failed one (R729). -/
def logicValue (base : Int) (l : List (Nat × Option Int)) (q : Nat) : Option Int :=
  match reading base l q with
  | some v => some v
  | none => (hottest ((quartersBeside q).map (reading base l))).map (· + 10)

/-- The value of DRAM layer sensor 12 × BLOCK + layer. -/
def dramValue (base : Int) (l : List (Nat × Option Int)) (n : Nat) : Option Int :=
  match reading base l n with
  | some v => some v
  | none => (hottest (((List.range 12).filter (fun k => k != n % 12)).map (fun k => reading base l (n / 12 * 12 + k)))).map (· + 5)

/-- Values at or above a limit. -/
def atLeast (limit : Int) (x : Option Int) : Bool := x.any (fun v => decide (limit ≤ v))

/-- The sample of a block's layers for hot refresh (R403): a failed sensor counts as hot at once (R729). -/
def State.hotSample (s : State) (base : Int) (l : List (Nat × Option Int)) (b : Nat) : State :=
  let rs := (List.range 12).map (fun k => reading base l (b * 12 + k))
  let failed := rs.any (·.isNone)
  let hot := failed || rs.any (atLeast 86)
  let warm := failed || rs.any (atLeast 81)
  let s := if failed then s.setHf (blockPage b) F.MEM_STATUS_HOT 1 else s
  s.onBlock b (fun B => { B with hotRound := B.hotRound || hot, coolRound := B.coolRound && !warm })

/-- A trip takes effect (R730). -/
def State.trip (s : State) (code : Nat) : State :=
  (s.panelOff 3).onModule (fun M => { M with fault := code, latched := true, thermTrip := true })

/-- THERMAL_SAMPLE: the sensors and COOL_OK are sampled. -/
def execThermalSample (cool : Bool) (base : Int) (logic : List LogicReading) (dram : List DramReading) (s : State) :
    Host.Outcome State Fault Refusal :=
  let M := s.module
  let before := s
  let ls := logic.map (fun x => (x.1.val, x.2))
  let ds := dram.map (fun x => (x.1.val * 12 + x.2.1.val, x.2.2))
  let qs := List.range 48
  let ns := ((List.range 720).filter (fun b => !s.vacant b)).flatMap (fun b => (List.range 12).map (fun k => b * 12 + k))
  let lr := qs.map (reading base ls)
  let dr := ns.map (reading base ds)
  let failed := lr.any (·.isNone) || dr.any (·.isNone)
  let hotL := qs.filter (fun q => atLeast 110 (logicValue base ls q))
  let hotD := ns.filter (fun n => atLeast 105 (dramValue base ds n))
  let lostL := qs.filter (fun q => (logicValue base ls q).isNone)
  let lostD := ns.filter (fun n => (dramValue base ds n).isNone)
  let low := if cool then 0 else M.lowCool + 1
  let alert := failed || !cool || lr.any (atLeast 100) || dr.any (atLeast 95)
  let clear := !failed && cool && !lr.any (atLeast 96) && !dr.any (atLeast 91)
  let code := if hotL.any M.hotLogic.contains || lostL.any M.lostLogic.contains then 1
    else if hotD.any M.hotDram.contains || lostD.any M.lostDram.contains then 2
    else if 100 ≤ low then 3 else 0
  let s := s.onModule (fun M =>
    { M with coolOk := cool, thermAlert := alert || (M.thermAlert && !clear), hotLogic := hotL, hotDram := hotD, lostLogic := lostL,
             lostDram := lostD, lowCool := low, tbase := base, tlogic := ls, tdram := ds,
             lastLogic := if lostL = [] then (hottest (qs.map (logicValue base ls))).getD 1000 else 1000,
             lastDram := if lostD = [] then (hottest (ns.map (dramValue base ds))).getD (-1000) else 1000 })
  let s := if s.panelOn then ((List.range 720).filter (fun b => !s.vacant b)).foldl (fun (s : State) b => s.hotSample base ds b) s
    else s
  .next (if !M.standby then before else if s.panelOn ∧ code ≠ 0 then s.trip code else s)

/-! ## Standby power (R98) -/

/-- STANDBY_POWER_LOST: the counter, the Owl and every always-on register are lost; the 48 V domain does not run without it. -/
def execStandbyPowerLost (s : State) : Host.Outcome State Fault Refusal :=
  .next (if !s.module.standby then s
  else
    let s := if s.panelOn then s.panelOff 0 else s
    let s := { s.standbyRegs with owl := Owl.start, tap := { s.tap with nonce := none } }
    s.onModule (fun M => { M with standby := false, mainState := 0, thermAlert := false, thermTrip := false, latched := false,
                                  fault := 0, offAt := none, hotLogic := [], hotDram := [], lostLogic := [], lostDram := [],
                                  lowCool := 0 }))

end Sys2Proof.Machine
end

