-- ==== Sys2Proof/Machine/Runs.lean ====
section
/-!
DEFINITION. The run of a tile program and the accumulator instructions as commands (R289 to R298). When the run has ended, or
released the array, the queues of the tile go on.
-/
namespace Sys2Proof.Machine

/-- May the pending run start: has every C-queue instruction before its trigger completed (R298)? -/
def Tile.runStarts (T : Tile) : Bool := T.run.any (fun r => T.cq.all (fun e => r.entry.age ≤ e.age))

/-- A tile program runs (R296), once the C-queue instructions before it have completed. -/
def execTileProgramRun (t : TileIx) (s : State) : Host.Outcome State Fault Refusal :=
  .next (if (s.tile t).runStarts then (s.onTile t (fun T => T.programRun t (s.tileCycle t))).advance t else s)

/-- `vacc` (R289) in group `g`. -/
def execVacc (t : TileIx) (f : FX) (g : BitVec 7) (s : State) : Host.Outcome State Fault Refusal :=
  .next (s.onTile t (fun T => T.accInstr (.vacc t f g) f 0x41 g.toNat true
    (fun r h cf x => vaccRun t r.desc (g.toNat * h.g + cf.w1 % 64) cf x)))

/-- `vaccred` (R290) in group `g`. -/
def execVaccred (t : TileIx) (f : FX) (g : BitVec 7) (s : State) : Host.Outcome State Fault Refusal :=
  .next (s.onTile t (fun T => T.accInstr (.vaccred t f g) f 0x42 g.toNat true
    (fun r h cf x => vaccredRun (s.tileCycle t) r.desc g.toNat h.g cf x)))

/-- `vrscale` (R291) in group `g` of a run of either kind. -/
def execVrscale (t : TileIx) (x : ScaleWord) (s : State) : Host.Outcome State Fault Refusal :=
  .next (s.onTile t (fun T => T.accInstr (.vrscale t x) x.f 0x43 x.g.toNat false (fun _ _ cf r => vrscaleRun cf r)))

/-- `vaccrel` (R292) in group `g`. -/
def execVaccrel (t : TileIx) (f : FX) (g : BitVec 7) (s : State) : Host.Outcome State Fault Refusal :=
  .next ((s.onTile t (fun T => T.accInstr (.vaccrel t f g) f 0x44 g.toNat true
    (fun r h _ x => vaccrelRun r (g.toNat + 1 == r.groups h) x))).advance t)

end Sys2Proof.Machine
end

