-- ==== Sys2Proof/Machine/Scalar.lean ====
section
/-!
DEFINITION. The scalar instructions (R117, R118): ALU, immediates, loads and stores, branches and jumps. Each
acts on the tile that confirms it and on nothing else.
-/
namespace Sys2Proof.Machine

/-! ## Shapes -/

/-- A scalar ALU instruction (MAJOR 0x01): sA from sB and sC. K is reserved; `unary` forms reserve C too (R118, R156). -/
def Tile.alu (T : Tile) (f : F3) (minor : Nat) (unary : Bool) (op : Word → Word → Word) : Tile :=
  T.scalar (F3w f 1 minor) [f.a.toNat, f.b.toNat, f.c.toNat]
    (reservedIf (f.k != 0 || unary && f.c != 0))
    (fun T => .ok (T.setS f.a.toNat (op (T.sreg f.b.toNat) (T.sreg f.c.toNat))) T.pc4)

/-- An immediate instruction: sA from sB and IMM16 (R117). -/
def Tile.aluImm (T : Tile) (f : FI) (major : Nat) (bad : Bool) (op : Word → Word) : Tile :=
  T.scalar (FIw f major) [f.a.toNat, f.b.toNat] (reservedIf bad)
    (fun T => .ok (T.setS f.a.toNat (op (T.sreg f.b.toNat))) T.pc4)

/-- A shift by immediate (MAJOR 0x06): IMM16[5:0] is the amount, IMM16[15:8] is reserved (R117). -/
def Tile.shiftImm (T : Tile) (f : FI) (op : Word → Nat → Word) : Tile :=
  T.aluImm f 6 (f.imm.toNat / 256 != 0) (fun b => op b (f.imm.toNat % 64))

/-- A load of `n` bytes at sB + IMM16: misaligned or out of range raises LOAD_ADDR, an uncorrectable error
TSTORE_ECC (R117, R142). -/
def Tile.load (T : Tile) (f : FI) (major n : Nat) (ext : Nat → Word) : Tile :=
  T.scalar (FIw f major) [f.a.toNat, f.b.toNat] none (fun T =>
    let a := T.sreg f.b.toNat + f.sext
    if !localOk a.toNat n then .sync 3 0 a
    else if T.waits a.toNat n false then .wait
    else if T.hasUE a.toNat n then .sync 6 0 (T.firstUE a.toNat n)
    else .ok (T.setS f.a.toNat (ext (T.peek a.toNat n))) T.pc4)

/-- A store of the low `n` bytes of sA at sB + IMM16: misaligned or out of range raises STORE_ADDR (R117, R142). -/
def Tile.storeS (T : Tile) (f : FI) (major n : Nat) : Tile :=
  T.scalar (FIw f major) [f.a.toNat, f.b.toNat] none (fun T =>
    let a := T.sreg f.b.toNat + f.sext
    if T.waits a.toNat n true then .wait
    else if localOk a.toNat n then .ok (T.poke a.toNat n (T.sreg f.a.toNat).toNat) T.pc4
    else .sync 4 0 a)

/-- A conditional branch: compares sA with sB, and goes to PC + IMM16 × 4 where the comparison holds (R117). -/
def Tile.branch (T : Tile) (f : FI) (major : Nat) (c : Word → Word → Bool) : Tile :=
  T.scalar (FIw f major) [f.a.toNat, f.b.toNat] none (fun T =>
    .ok T (if c (T.sreg f.a.toNat) (T.sreg f.b.toNat) then T.pc + f.sext * 4 else T.pc4))

/-! ## Operations -/

/-- 1 where a condition holds, else 0. -/
def flagWord (c : Bool) : Word := if c then 1 else 0

/-- High 64 bits of a signed product. -/
def mulHigh (b c : Word) : Word := BitVec.ofInt 64 (b.toInt * c.toInt / (2 ^ 64 : Nat))
/-- High 64 bits of an unsigned product. -/
def mulHighU (b c : Word) : Word := BitVec.ofNat 64 (b.toNat * c.toNat / 2 ^ 64)
/-- Signed quotient toward zero; all ones for a divisor of 0; −2^63 by −1 gives −2^63 (R118). -/
def divS (b c : Word) : Word := if c = 0 then BitVec.allOnes 64 else BitVec.ofInt 64 (b.toInt.tdiv c.toInt)
/-- Unsigned quotient; all ones for a divisor of 0. -/
def divU (b c : Word) : Word := if c = 0 then BitVec.allOnes 64 else BitVec.ofNat 64 (b.toNat / c.toNat)
/-- Signed remainder with the sign of sB; sB for a divisor of 0 (R118). -/
def remS (b c : Word) : Word := if c = 0 then b else BitVec.ofInt 64 (b.toInt.tmod c.toInt)
/-- Unsigned remainder; sB for a divisor of 0. -/
def remU (b c : Word) : Word := if c = 0 then b else BitVec.ofNat 64 (b.toNat % c.toNat)
/-- Rotate right. -/
def rotR (b : Word) (n : Nat) : Word := b >>> n ||| b <<< (64 - n)
/-- Leading zeros, 0 to 64. -/
def leadZeros (b : Word) : Word := BitVec.ofNat 64 (64 - bitLen b.toNat)

/-! ## Meanings -/

/-- `add` (R118). -/
def execAdd (t : TileIx) (f : F3) (s : State) : Host.Outcome State Fault Refusal :=
  .next (s.onTile t (fun T => T.alu f 0x0 false (fun b c => b + c)))

/-- `sub` (R118). -/
def execSub (t : TileIx) (f : F3) (s : State) : Host.Outcome State Fault Refusal :=
  .next (s.onTile t (fun T => T.alu f 0x1 false (fun b c => b - c)))

/-- `and` (R118). -/
def execAnd (t : TileIx) (f : F3) (s : State) : Host.Outcome State Fault Refusal :=
  .next (s.onTile t (fun T => T.alu f 0x2 false (fun b c => b &&& c)))

/-- `or` (R118). -/
def execOr (t : TileIx) (f : F3) (s : State) : Host.Outcome State Fault Refusal :=
  .next (s.onTile t (fun T => T.alu f 0x3 false (fun b c => b ||| c)))

/-- `xor` (R118). -/
def execXor (t : TileIx) (f : F3) (s : State) : Host.Outcome State Fault Refusal :=
  .next (s.onTile t (fun T => T.alu f 0x4 false (fun b c => b ^^^ c)))

/-- `shl` (R118). -/
def execShl (t : TileIx) (f : F3) (s : State) : Host.Outcome State Fault Refusal :=
  .next (s.onTile t (fun T => T.alu f 0x5 false (fun b c => b <<< (c.toNat % 64))))

/-- `shr` (R118). -/
def execShr (t : TileIx) (f : F3) (s : State) : Host.Outcome State Fault Refusal :=
  .next (s.onTile t (fun T => T.alu f 0x6 false (fun b c => b >>> (c.toNat % 64))))

/-- `sar` (R118). -/
def execSar (t : TileIx) (f : F3) (s : State) : Host.Outcome State Fault Refusal :=
  .next (s.onTile t (fun T => T.alu f 0x7 false (fun b c => b.sshiftRight (c.toNat % 64))))

/-- `slt` (R118). -/
def execSlt (t : TileIx) (f : F3) (s : State) : Host.Outcome State Fault Refusal :=
  .next (s.onTile t (fun T => T.alu f 0x8 false (fun b c => flagWord (b.slt c))))

/-- `sltu` (R118). -/
def execSltu (t : TileIx) (f : F3) (s : State) : Host.Outcome State Fault Refusal :=
  .next (s.onTile t (fun T => T.alu f 0x9 false (fun b c => flagWord (b.ult c))))

/-- `min` (R118). -/
def execMin (t : TileIx) (f : F3) (s : State) : Host.Outcome State Fault Refusal :=
  .next (s.onTile t (fun T => T.alu f 0xa false (fun b c => if b.slt c then b else c)))

/-- `max` (R118). -/
def execMax (t : TileIx) (f : F3) (s : State) : Host.Outcome State Fault Refusal :=
  .next (s.onTile t (fun T => T.alu f 0xb false (fun b c => if b.slt c then c else b)))

/-- `minu` (R118). -/
def execMinu (t : TileIx) (f : F3) (s : State) : Host.Outcome State Fault Refusal :=
  .next (s.onTile t (fun T => T.alu f 0xc false (fun b c => if b.ult c then b else c)))

/-- `maxu` (R118). -/
def execMaxu (t : TileIx) (f : F3) (s : State) : Host.Outcome State Fault Refusal :=
  .next (s.onTile t (fun T => T.alu f 0xd false (fun b c => if b.ult c then c else b)))

/-- `mul` (R118). -/
def execMul (t : TileIx) (f : F3) (s : State) : Host.Outcome State Fault Refusal :=
  .next (s.onTile t (fun T => T.alu f 0x10 false (fun b c => b * c)))

/-- `mulh` (R118). -/
def execMulh (t : TileIx) (f : F3) (s : State) : Host.Outcome State Fault Refusal :=
  .next (s.onTile t (fun T => T.alu f 0x11 false (fun b c => mulHigh b c)))

/-- `mulhu` (R118). -/
def execMulhu (t : TileIx) (f : F3) (s : State) : Host.Outcome State Fault Refusal :=
  .next (s.onTile t (fun T => T.alu f 0x12 false (fun b c => mulHighU b c)))

/-- `div` (R118). -/
def execDiv (t : TileIx) (f : F3) (s : State) : Host.Outcome State Fault Refusal :=
  .next (s.onTile t (fun T => T.alu f 0x14 false (fun b c => divS b c)))

/-- `divu` (R118). -/
def execDivu (t : TileIx) (f : F3) (s : State) : Host.Outcome State Fault Refusal :=
  .next (s.onTile t (fun T => T.alu f 0x15 false (fun b c => divU b c)))

/-- `rem` (R118). -/
def execRem (t : TileIx) (f : F3) (s : State) : Host.Outcome State Fault Refusal :=
  .next (s.onTile t (fun T => T.alu f 0x16 false (fun b c => remS b c)))

/-- `remu` (R118). -/
def execRemu (t : TileIx) (f : F3) (s : State) : Host.Outcome State Fault Refusal :=
  .next (s.onTile t (fun T => T.alu f 0x17 false (fun b c => remU b c)))

/-- `clz` (R118): C must be 0. -/
def execClz (t : TileIx) (f : F3) (s : State) : Host.Outcome State Fault Refusal :=
  .next (s.onTile t (fun T => T.alu f 0x18 true (fun b _ => leadZeros b)))

/-- `ctz` (R118): C must be 0. -/
def execCtz (t : TileIx) (f : F3) (s : State) : Host.Outcome State Fault Refusal :=
  .next (s.onTile t (fun T => T.alu f 0x19 true (fun b _ => BitVec.ofNat 64 (trailZeros b.toNat 64))))

/-- `popc` (R118): C must be 0. -/
def execPopc (t : TileIx) (f : F3) (s : State) : Host.Outcome State Fault Refusal :=
  .next (s.onTile t (fun T => T.alu f 0x1a true (fun b _ => BitVec.ofNat 64 (popCount b.toNat 64))))

/-- `addi` (R117). -/
def execAddi (t : TileIx) (f : FI) (s : State) : Host.Outcome State Fault Refusal :=
  .next (s.onTile t (fun T => T.aluImm f 2 false (fun b => b + f.sext)))

/-- `andi` (R117). -/
def execAndi (t : TileIx) (f : FI) (s : State) : Host.Outcome State Fault Refusal :=
  .next (s.onTile t (fun T => T.aluImm f 3 false (fun b => b &&& f.zext)))

/-- `ori` (R117). -/
def execOri (t : TileIx) (f : FI) (s : State) : Host.Outcome State Fault Refusal :=
  .next (s.onTile t (fun T => T.aluImm f 4 false (fun b => b ||| f.zext)))

/-- `xori` (R117). -/
def execXori (t : TileIx) (f : FI) (s : State) : Host.Outcome State Fault Refusal :=
  .next (s.onTile t (fun T => T.aluImm f 5 false (fun b => b ^^^ f.zext)))

/-- `slti` (R117). -/
def execSlti (t : TileIx) (f : FI) (s : State) : Host.Outcome State Fault Refusal :=
  .next (s.onTile t (fun T => T.aluImm f 7 false (fun b => flagWord (b.slt f.sext))))

/-- `sltiu` (R117). -/
def execSltiu (t : TileIx) (f : FI) (s : State) : Host.Outcome State Fault Refusal :=
  .next (s.onTile t (fun T => T.aluImm f 8 false (fun b => flagWord (b.ult f.sext))))

/-- `lsh` (R117). -/
def execLsh (t : TileIx) (f : FI) (s : State) : Host.Outcome State Fault Refusal :=
  .next (s.onTile t (fun T => T.aluImm f 10 false (fun b => b <<< 16 ||| f.zext)))

/-- `shli` (R117): IMM16[7:6] is 0. -/
def execShli (t : TileIx) (f : FI) (s : State) : Host.Outcome State Fault Refusal :=
  .next (s.onTile t (fun T => T.shiftImm f (fun b n => b <<< n)))

/-- `shri` (R117): IMM16[7:6] is 1. -/
def execShri (t : TileIx) (f : FI) (s : State) : Host.Outcome State Fault Refusal :=
  .next (s.onTile t (fun T => T.shiftImm f (fun b n => b >>> n)))

/-- `sari` (R117): IMM16[7:6] is 2. -/
def execSari (t : TileIx) (f : FI) (s : State) : Host.Outcome State Fault Refusal :=
  .next (s.onTile t (fun T => T.shiftImm f (fun b n => b.sshiftRight n)))

/-- `rotri` (R117): IMM16[7:6] is 3. -/
def execRotri (t : TileIx) (f : FI) (s : State) : Host.Outcome State Fault Refusal :=
  .next (s.onTile t (fun T => T.shiftImm f (fun b n => rotR b n)))

/-- `li` (R117): sA = IMM21, sign-extended. -/
def execLi (t : TileIx) (f : FL) (s : State) : Host.Outcome State Fault Refusal :=
  .next (s.onTile t (fun T => T.scalar (FLw f 9) [f.a.toNat] none (fun T => .ok (T.setS f.a.toNat f.sext) T.pc4)))

/-- `pcrel` (R117): sA = PC + IMM21 × 4. -/
def execPcrel (t : TileIx) (f : FL) (s : State) : Host.Outcome State Fault Refusal :=
  .next (s.onTile t (fun T => T.scalar (FLw f 11) [f.a.toNat] none
    (fun T => .ok (T.setS f.a.toNat (T.pc + f.sext * 4)) T.pc4)))

/-- `ld8` (R117): load 1 byte, sign-extended. -/
def execLd8 (t : TileIx) (f : FI) (s : State) : Host.Outcome State Fault Refusal :=
  .next (s.onTile t (fun T => T.load f 0x10 1 (fun x => wordOfInt (signed 8 x))))

/-- `ld8u` (R117): load 1 byte, zero-extended. -/
def execLd8u (t : TileIx) (f : FI) (s : State) : Host.Outcome State Fault Refusal :=
  .next (s.onTile t (fun T => T.load f 0x11 1 (fun x => BitVec.ofNat 64 x)))

/-- `ld16` (R117): load 2 bytes, sign-extended. -/
def execLd16 (t : TileIx) (f : FI) (s : State) : Host.Outcome State Fault Refusal :=
  .next (s.onTile t (fun T => T.load f 0x12 2 (fun x => wordOfInt (signed 16 x))))

/-- `ld16u` (R117): load 2 bytes, zero-extended. -/
def execLd16u (t : TileIx) (f : FI) (s : State) : Host.Outcome State Fault Refusal :=
  .next (s.onTile t (fun T => T.load f 0x13 2 (fun x => BitVec.ofNat 64 x)))

/-- `ld32` (R117): load 4 bytes, sign-extended. -/
def execLd32 (t : TileIx) (f : FI) (s : State) : Host.Outcome State Fault Refusal :=
  .next (s.onTile t (fun T => T.load f 0x14 4 (fun x => wordOfInt (signed 32 x))))

/-- `ld32u` (R117): load 4 bytes, zero-extended. -/
def execLd32u (t : TileIx) (f : FI) (s : State) : Host.Outcome State Fault Refusal :=
  .next (s.onTile t (fun T => T.load f 0x15 4 (fun x => BitVec.ofNat 64 x)))

/-- `ld64` (R117): load 8 bytes, zero-extended. -/
def execLd64 (t : TileIx) (f : FI) (s : State) : Host.Outcome State Fault Refusal :=
  .next (s.onTile t (fun T => T.load f 0x16 8 (fun x => BitVec.ofNat 64 x)))

/-- `st8` (R117). -/
def execSt8 (t : TileIx) (f : FI) (s : State) : Host.Outcome State Fault Refusal :=
  .next (s.onTile t (fun T => T.storeS f 0x18 1))

/-- `st16` (R117). -/
def execSt16 (t : TileIx) (f : FI) (s : State) : Host.Outcome State Fault Refusal :=
  .next (s.onTile t (fun T => T.storeS f 0x19 2))

/-- `st32` (R117). -/
def execSt32 (t : TileIx) (f : FI) (s : State) : Host.Outcome State Fault Refusal :=
  .next (s.onTile t (fun T => T.storeS f 0x1a 4))

/-- `st64` (R117). -/
def execSt64 (t : TileIx) (f : FI) (s : State) : Host.Outcome State Fault Refusal :=
  .next (s.onTile t (fun T => T.storeS f 0x1b 8))

/-- `beq` (R117). -/
def execBeq (t : TileIx) (f : FI) (s : State) : Host.Outcome State Fault Refusal :=
  .next (s.onTile t (fun T => T.branch f 0x20 (fun a b => a == b)))

/-- `bne` (R117). -/
def execBne (t : TileIx) (f : FI) (s : State) : Host.Outcome State Fault Refusal :=
  .next (s.onTile t (fun T => T.branch f 0x21 (fun a b => a != b)))

/-- `blt` (R117). -/
def execBlt (t : TileIx) (f : FI) (s : State) : Host.Outcome State Fault Refusal :=
  .next (s.onTile t (fun T => T.branch f 0x22 (fun a b => a.slt b)))

/-- `bge` (R117). -/
def execBge (t : TileIx) (f : FI) (s : State) : Host.Outcome State Fault Refusal :=
  .next (s.onTile t (fun T => T.branch f 0x23 (fun a b => !a.slt b)))

/-- `bltu` (R117). -/
def execBltu (t : TileIx) (f : FI) (s : State) : Host.Outcome State Fault Refusal :=
  .next (s.onTile t (fun T => T.branch f 0x24 (fun a b => a.ult b)))

/-- `bgeu` (R117). -/
def execBgeu (t : TileIx) (f : FI) (s : State) : Host.Outcome State Fault Refusal :=
  .next (s.onTile t (fun T => T.branch f 0x25 (fun a b => !a.ult b)))

/-- `jal` (R117): sA = PC + 4, PC = PC + IMM21 × 4. -/
def execJal (t : TileIx) (f : FL) (s : State) : Host.Outcome State Fault Refusal :=
  .next (s.onTile t (fun T => T.scalar (FLw f 0x26) [f.a.toNat] none
    (fun T => .ok (T.setS f.a.toNat T.pc4) (T.pc + f.sext * 4))))

/-- `jalr` (R117): the target sB + IMM16 is taken before sA = PC + 4 is written. -/
def execJalr (t : TileIx) (f : FI) (s : State) : Host.Outcome State Fault Refusal :=
  .next (s.onTile t (fun T => T.scalar (FIw f 0x27) [f.a.toNat, f.b.toNat] none
    (fun T => .ok (T.setS f.a.toNat T.pc4) (T.sreg f.b.toNat + f.sext))))

end Sys2Proof.Machine
end

