-- ==== Sys2Proof/Machine/System.lean ====
section
/-!
DEFINITION. The system class (R119), hall-time issue (R121 to R125), control-space instructions (R147, R148), `eret` and
asynchronous events (R143 to R146), and the entry into sleep by `wait` (R608 to R614).
-/
namespace Sys2Proof.Machine

/-! ## Shapes -/

/-- What an instruction that reaches beyond the tile's registers gives. -/
inductive TRes where
  | ok (s : State) (next : Word)
  | sync (code sub : Nat) (info : Word)
  | wait (s : State)

/-- Dispatch and execution of an S-queue instruction of tile `t` with word `w0` that acts on the whole state. -/
def State.scalarOp (s : State) (t w0 : Nat) (regs : List Nat) (bad : Option Nat) (body : State → TRes) : State :=
  let T := s.tile t
  if T.ready regs then
    match T.preFault 1 4 w0 0 bad with
    | some (code, sub, info) => s.setTile t ((T.syncExc 1 code sub info).afterStep)
    | none =>
      match body s with
      | .wait s' => s'
      | .ok s' next => s'.onTile t (fun T => ((T.slot (retFld 1) 1).goto next).afterStep)
      | .sync code sub info => s.setTile t ((T.syncExc 1 code sub info).afterStep)
  else s

/-! ## `tsync` and `ifence` -/

/-- Has every instruction in a queue completed? 2 M, 3 C, 4 X. An epilogue belongs to the M instruction that triggered it,
a `tprog` to the C queue. -/
def Tile.queueDone (T : Tile) (q : Nat) : Bool :=
  match q with
  | 2 => T.mq == [] && !T.run.any (·.epilogue)
  | 3 => T.cq == [] && !T.run.any (fun r => !r.epilogue)
  | _ => T.xq == [] && T.reqs.all (fun (r : Nat × XReq) => r.2.done)

/-- The queues that a QMASK names. -/
def maskQueues (m : Nat) : List Nat := [2, 3, 4].filter (fun q => bitOf m (q - 2))

/-- The awaited scalar registers without those of discarded instructions. -/
def Tile.unawait (T : Tile) (rs : List Nat) : List Nat := T.sWait.filter (fun r => !rs.contains r)

/-- Discard the contents of a frozen queue (R146): nothing of it executes. A stopped solver or chain instruction has no
element to resume at. -/
def Tile.discard (T : Tile) (q : Nat) : Tile :=
  if !T.frozen q then T
  else match q with
    | 2 => { T with mq := [], trapSlot := none, sWait := T.unawait (T.mq.map QEntry.dest) }.setFld F.SOLV_RES_VALID 0
    | 3 => ({ T with cq := [], cPre := none, sWait := T.unawait (T.cq.map QEntry.dest) }.setFld F.VRES_VALID 0).setFld F.VRES_RESTART 0
    | _ => { T with xq := [], stampAt := none, sWait := T.unawait (T.xq.map (fun e => destReg e.instr)) }

/-- Does a frozen queue hold, at its head, the faulting instruction of the queue cause being handled (R146)? -/
def Tile.stuck (T : Tile) (q : Nat) : Bool := T.frozen q && T.fld F.EXC_CAUSE_QUEUE == q

/-- A frozen queue is let run. -/
def Tile.thaw (T : Tile) (q : Nat) : Tile :=
  if T.stuck q then T else T.setFld F.TILE_STATUS_FROZEN (setBits (T.fld F.TILE_STATUS_FROZEN) (q - 2) 1 0)

/-- A `tsync` acts (R119, R146): in a handler it discards the frozen queues that it names, or lets them run. What it still
waits for is kept as its mask. -/
def State.tsync (s : State) (t m : Nat) : State × List Nat :=
  let T := s.tile t
  let qs := maskQueues m
  if T.handler ∧ T.fld F.TILE_STATUS_FROZEN ≠ 0 then
    if T.fld F.EXC_CAUSE_DISCARD = 1 then (s.setTile t (qs.foldl (fun (T : Tile) q => T.discard q) T), qs)
    else ((s.setTile t (qs.foldl (fun (T : Tile) q => T.thaw q) T)).advance t, qs.filter (fun q => !T.stuck q))
  else (s, qs)

/-- The mask of a list of queues. -/
def queuesMask (qs : List Nat) : Nat := qs.foldl (fun n q => n + 2 ^ (q - 2)) 0

/-- A `tsync` that waits completes once its queues have (R119). -/
def State.tsyncDone (s : State) (t : Nat) : State :=
  match (s.tile t).barrier with
  | .tsync m =>
    if (maskQueues m).all (s.tile t).queueDone ∧ { s.tile t with barrier := .none }.ready [] then
      s.onTile t (fun T => T.barrierDone.afterStep)
    else s
  | _ => s

/-- `tsync` (R119), MINOR 0x02: its first confirmation acts, and a further one completes it if its queues have. -/
def execTsync (t : TileIx) (f : F3) (s : State) : Host.Outcome State Fault Refusal :=
  let m := f.a.toNat
  .next (match (s.tile t).barrier with
    | .tsync _ => s.tsyncDone t
    | _ => s.scalarOp t (F3w f 0x28 2) [] (reservedIf (f.b != 0 || f.c != 0 || f.k != 0 || m / 8 != 0 || m == 0)) (fun s =>
      let (s', qs) := s.tsync t m
      if qs.all (s'.tile t).queueDone ∧ (s'.tile t).fld F.TILE_STATUS_DOUBLE = 0 then .ok s' (s'.tile t).pc4
      else .wait (s'.onTile t (fun T => { T with barrier := .tsync (queuesMask qs) }))))

/-- `ifence` (R119), MINOR 0x03: instructions are fetched from the store as each is dispatched, so nothing is stale. -/
def execIfence (x : TileWord) (s : State) : Host.Outcome State Fault Refusal :=
  .next (s.scalarOp x.tile (F3w x.f 0x28 3) [] (noFields x.f) (fun s => .ok s (s.tile x.tile).pc4))

/-! ## `trap` and `eret` -/

/-- `eret` in handler mode (R145, R146): FENCED is taken in its place while it is pending. -/
def State.leaveHandler (s : State) (t : Nat) : State :=
  let T := s.tile t
  match T.events.fenced with
  | some gen =>
    let pc := T.ctlWord F.EXC_PC_PC.reg
    let T := { T with events := { T.events with fenced := .none } }.setFld F.EXC_CAUSE_DISCARD 0
    s.setTile t (T.exception 0x20 0 0 true pc pc (BitVec.ofNat 64 gen))
  | none => (s.setTile t T.return).advance t

/-- `eret` (R146), MINOR 0x06: in user mode it raises ILLEGAL, sub-code 4 (R156). -/
def execEret (x : TileWord) (s : State) : Host.Outcome State Fault Refusal :=
  let t := x.tile
  let T := s.tile t
  let w := F3w x.f 0x28 6
  .next (if T.ready [] then
    match T.preFault 1 4 w 0 (noFields x.f) with
    | some (code, sub, info) => s.setTile t ((T.syncExc 1 code sub info).afterStep)
    | none =>
      if T.handler then ((s.setTile t (T.slot (retFld 1) 1)).leaveHandler t).onTile t Tile.afterStep
      else s.setTile t ((T.syncExc 1 1 4 (illegalInfo w 0)).afterStep)
  else s)

/-- What the firmware does for a `trap` of a context's work (R690): CODE 0 ends the tile's part, the frozen queues run; any
other code enters TRAP_VEC in user mode if the RUN gives one. Otherwise the firmware goes on from EXC_VEC. -/
def State.trapped (s : State) (t code : Nat) : State :=
  match (s.tile t).work with
  | none => s
  | some (c, q) =>
    let vec := bitsOf ((s.queue c q).word 7) 0 22
    if code = 0 then
      ((s.onTile t (fun T => { T.setFld F.TILE_STATUS_FROZEN 0 with ending := true })).advance t).endPart t
    else if vec = 0 then s
    else
      (s.onTile t (fun T =>
        let T := (T.setS 2 (BitVec.ofNat 64 code)).setS 3 (T.ctlWord F.EXC_PC_PC.reg + 4)
        T.setCtl F.EXC_PC_PC.reg (BitVec.ofNat 64 vec))).leaveHandler t

/-- `trap` (R119), MINOR 0x04: cause TRAP with CODE in EXC_INFO. In handler mode that is a double fault (R144). -/
def execTrap (t : TileIx) (f : F3) (s : State) : Host.Outcome State Fault Refusal :=
  let T := s.tile t
  let w := F3w f 0x28 4
  .next (if T.ready [] then
    match T.preFault 1 4 w 0 (reservedIf (f.b != 0 || f.c != 0 || f.k != 0)) with
    | some (code, sub, info) => s.setTile t ((T.syncExc 1 code sub info).afterStep)
    | none =>
      let s' := s.setTile t ((T.syncExc 1 8 0 (BitVec.ofNat 64 f.a.toNat)).afterStep)
      if T.handler ∨ T.events.fenced.isSome then s' else s'.trapped t f.a.toNat
  else s)

/-! ## Asynchronous events (R143) -/

/-- May an asynchronous event be taken now: in user mode, with dispatch alive, whether or not a barrier waits? -/
def Tile.takesEvents (T : Tile) : Bool := !T.handler && { T with barrier := .none, fresh := true, skid := 7 }.ready []

/-- The first pending event in the order of R143 is taken at this boundary: FENCED, TILE_MSG, or SAMPLE, whose
skid is recorded (R655). With STEP_MASK only FENCED is taken in a step (R668). -/
def Tile.takeEvent (T : Tile) : Tile :=
  let E := T.events
  let masked := T.stepping && T.fld F.DBG_CTL_STEP_MASK == 1
  match E.fenced, E.msg with
  | some gen, _ => T.takeFenced gen
  | none, some src =>
    if masked then T else { T with events := { E with msg := .none } }.exception 0x22 0 0 true T.pc T.pc (BitVec.ofNat 64 src)
  | none, none =>
    if masked ∨ !E.sample then T
    else { T.setFld F.SAMPLE_STATUS_SKID (if T.skid = 8 then 0 else T.skid) with events := { E with sample := false } }.exception 0x21 0 0 true T.pc T.pc T.pc

/-- A word whose MAJOR or MINOR is undefined is dispatched: ILLEGAL with sub-code 0 or 1 (R117, R156), unless its words cannot
be read. FENCED comes first, and TILE_MSG and SAMPLE come after a synchronous cause (R143). -/
def Tile.undefinedWord (T : Tile) (w0 w1 sub : Nat) : Tile :=
  match T.preFault 1 (wordLen w0) w0 w1 (some sub) with
  | some (code, sub, info) => (T.syncExc 1 code sub info).afterStep
  | none => T

/-- The sub-code of an undefined word: 0 by its MAJOR, 1 by its MINOR (R156). -/
def undefinedSub (w0 w1 : Nat) : Option Nat := (wordBad w0 w1).filter (· ≤ 1)

/-- ASYNC_EVENT_ENTRY. The boundary may lie before a word that the opcode tables leave undefined. -/
def execAsyncEventEntry (x : Boundary) (s : State) : Host.Outcome State Fault Refusal :=
  .next (s.onTile x.tile (fun T =>
    let u := x.word.bind (fun w => (undefinedSub (wordField w 0 32) (wordField w 32 32)).map
      (fun sub => (wordField w 0 32, if wordLen (wordField w 0 32) = 8 then wordField w 32 32 else 0, sub)))
    match u with
    | some (w0, w1, sub) => if T.ready [] then T.undefinedWord w0 w1 sub else if T.takesEvents then T.takeEvent else T
    | none => if T.takesEvents then T.takeEvent else T))

/-! ## Hall-time issue -/

/-- Has the first tile cycle that starts at or after a target tick started, at the latest in this tick (R122)? -/
def Tile.reached (T : Tile) (ns target : Nat) : Bool :=
  let m := T.fld F.CLK_EPOCH_MULT
  decide (ceilDiv (target * m) 4 * 4 < (ns + 1) * m)

/-- The target tick of a `twait` (R121). -/
def twaitTarget (mode b : Nat) : Nat :=
  match mode with
  | 0 => b
  | 1 => b * 256
  | _ => b * 1048576

/-- `twait` (R121 to R124): it completes at once if its target has been reached, raises TWAIT_RANGE if it is too many
rounds away, and else holds dispatch. -/
def execTwait (t : TileIx) (f : FI) (s : State) : Host.Outcome State Fault Refusal :=
  let imm := f.imm.toNat
  .next (s.scalarOp t (FIw f 0x29) [f.b.toNat] (reservedIf (f.a != 0 || imm / 4 != 0 || imm == 3)) (fun s =>
    let T := s.tile t
    let target := twaitTarget imm (T.sreg f.b.toNat).toNat
    if s.owl.ns / 1048576 + T.fld F.TILE_CFG_TWAIT_MAX < target / 1048576 then .sync 9 0 (BitVec.ofNat 64 target)
    else if T.reached s.owl.ns target then .ok s T.pc4
    else .wait (s.setTile t { T with barrier := .twait target })))

/-- TWAIT_RELEASE (R122): a `twait` that waits completes at its target. -/
def execTwaitRelease (t : TileIx) (s : State) : Host.Outcome State Fault Refusal :=
  .next (match (s.tile t).barrier with
    | .twait target =>
      if (s.tile t).reached s.owl.ns target ∧ { s.tile t with barrier := .none, fresh := true }.ready [] then
        s.onTile t (fun T => T.barrierDone.afterStep)
      else s
    | _ => s)

/-! ## Sleep -/

/-- Units of Den prepare stop, in order, as far as their conditions hold (R612): each one's own prepare starts when the one
before it has stopped. The control core refuses at once while an event or debug request is pending. -/
def Tile.denStops (T : Tile) (ns : Nat) : Nat → Tile
  | 0 => T
  | n + 1 =>
    match T.den with
    | none => T
    | some d =>
      let next := { T with den := some ⟨d.unit + 1, ns⟩ }
      match d.unit with
      | 0 => if T.xq = [] ∧ T.reqs = [] then next.denStops ns n else T
      | 1 => if T.cq = [] ∧ !T.run.any (fun r => !r.epilogue) then next.denStops ns n else T
      | 2 => if T.mq = [] ∧ T.run.isNone then next.denStops ns n else T
      | 3 =>
        if T.haltReq.isSome ∨ T.fld F.DBG_STATUS_STOPPING = 1 then T.denRefuse 4
        else if T.events.fenced.isSome ∨ T.events.msg.isSome ∨ T.events.sample then T.denRefuse 3
        else next
      | _ => T

/-- `wait` acts (R610, R611): Den in handler mode with SLEEPCFG.STATE 1, else Doze. A reservation is broken with status 3.
An alarm less than 4,096 ticks away completes it at once, as does an event that is pending. -/
def State.sleep (s : State) (t : Nat) : TRes :=
  let T := (s.tile t).breakResv 3
  let ns := s.owl.ns
  let put := fun (T : Tile) => s.setTile t T
  if T.stepping then .ok (put T) T.pc4
  else if T.handler ∧ T.fld F.SLEEPCFG_STATE = 1 then
    if T.fld F.SLEEPCFG_ALARM_EN = 1 ∧ T.fld F.DEN_WAKE_AT_BEAT * 256 < ns + 4096 then .ok (put (T.wakeSource 6 0 0 0)) T.pc4
    else .wait (put ({ T with barrier := .wait, den := some ⟨0, ns⟩ }.denStops ns 4))
  else if T.events.fenced.isSome ∨ T.events.msg.isSome ∨ T.events.sample then .ok (put T) T.pc4
  else .wait (put { T with barrier := .wait, dozing := true })

/-- `wait` (R119), MINOR 0x05. -/
def execWait (x : TileWord) (s : State) : Host.Outcome State Fault Refusal :=
  .next (s.scalarOp x.tile (F3w x.f 0x28 5) [] (noFields x.f) (fun s => s.sleep x.tile))

/-- DEN_COMMIT (R614): once every unit has stopped, the pads are latched and the tile is switched off. -/
def execDenCommit (t : TileIx) (s : State) : Host.Outcome State Fault Refusal :=
  .next (s.onTile t (fun T =>
    let T := T.denStops s.owl.ns 4
    match T.den with
    | some d =>
      if d.unit = 4 then
        { (T.setFld F.PAD_RELEASE_HELD 1).stopClock s.owl.ns with
            den := none, padsHeld := true, power := .den,
            waking := if T.events.fenced.isSome ∨ T.events.msg.isSome ∨ T.events.sample ∨ T.haltReq.isSome then some (s.owl.ns + 1) else none }
      else T
    | none => T))

/-- DEN_PREPARE_TIMEOUT (R612): a unit whose condition fails 4,096 ticks after its prepare started refuses. A tile program
run and a solver instruction are waited for without limit (R300, R326). -/
def execDenPrepareTimeout (t : TileIx) (s : State) : Host.Outcome State Fault Refusal :=
  .next (s.onTile t (fun T =>
    let T := T.denStops s.owl.ns 4
    match T.den with
    | some d =>
      if d.unit < 3 ∧ d.since + 4096 ≤ s.owl.ns ∧ (d.unit = 0 ∨ (d.unit = 1 ∧ T.run.isNone) ∨ !T.unfinished) then T.denRefuse (if d.unit = 0 then 1 else 2)
      else T
    | none => T))

/-! ## Control-space instructions -/

/-- Does the tile assign a control address? (R149) -/
def ctlAssigned (a : Nat) : Bool := (findReg tileRegs a).isSome

/-- The sub-code of a control access that is not allowed (R148). -/
def Tile.ctlDenied (T : Tile) (a : Nat) (write : Bool) : Option Nat :=
  if a / 1024 = 3 ∨ (!T.handler ∧ (a / 1024 = 2 ∨ (a / 1024 = 1 ∧ write))) then some 4
  else if ctlAssigned a then none else some 5

/-- Does a write wait for an instruction that reads the register while it executes (R240, R257, R349)? -/
def Tile.ctlHeld (T : Tile) (a : Nat) : Bool :=
  let c := T.cq != [] || T.run.isSome
  let m := T.mq != [] || T.run.any (·.epilogue)
  (0x24 ≤ a && a ≤ 0x3F && c) || (a == F.VGEN_POS_M_POS.reg && m) || ((a == 0x80 || a == 0x81) && m)

/-- The tile counters that a read takes at the start of its tile cycle: TIME_NOW_NS, TIME_NOW_FRAC and CYCLE_COUNT (R63). -/
def clockReg (a : Nat) : Bool := a == 0x400 || a == 0x401 || a == 0x408

/-- A read of the control space by an instruction (R63, R64). Which of the two tile cycles that start in the first tick of
four at P0 it executes in is a free value; time never runs backward. -/
def State.csrRead (s : State) (t a : Nat) : State × Word :=
  if clockReg a then
    let late := (s.tile t).lateAt == some s.owl.ns || Config.lateCycle s.free
    ({ s.onTile t (fun T => if late then { T with lateAt := some s.owl.ns } else T) with free := s.free + 1 },
      s.readCtlAt late t a)
  else (s, s.readCtl t a)

/-- A control-space instruction (R147); IMM16[15:12] names its operation, 4 to 15 undefined (R156). `new` gives what is written from the old value and sB, none for `csrr`. -/
def State.csr (s : State) (t : Nat) (f : FI) (new : Option (Word → Word → Word)) : State :=
  let a := f.imm.toNat % 4096
  let w := FIw f 0x2A
  s.scalarOp t w [f.a.toNat, f.b.toNat] (firstBad [(4 ≤ f.imm.toNat / 4096, 1), (new.isNone && f.b != 0, 2)]) (fun s =>
    let T := s.tile t
    match T.ctlDenied a new.isSome with
    | some sub => .sync 1 sub (illegalInfo w 0)
    | none =>
      let (s, old) := s.csrRead t a
      match new with
      | none => .ok (s.onTile t (fun T => T.setS f.a.toNat old)) T.pc4
      | some op =>
        if T.ctlHeld a then .wait s
        else
          let s := s.writeCtl t a (op old (T.sreg f.b.toNat)).toNat 0
          .ok (s.onTile t (fun T => T.setS f.a.toNat old)) T.pc4)

/-- `csrr` (R147). -/
def execCsrr (t : TileIx) (f : FI) (s : State) : Host.Outcome State Fault Refusal := .next (s.csr t f none)
/-- `csrw` (R147). -/
def execCsrw (t : TileIx) (f : FI) (s : State) : Host.Outcome State Fault Refusal := .next (s.csr t f (some (fun _ b => b)))
/-- `csrs` (R147). -/
def execCsrs (t : TileIx) (f : FI) (s : State) : Host.Outcome State Fault Refusal := .next (s.csr t f (some (fun o b => o ||| b)))
/-- `csrc` (R147). -/
def execCsrc (t : TileIx) (f : FI) (s : State) : Host.Outcome State Fault Refusal := .next (s.csr t f (some (fun o b => o &&& ~~~b)))

/-! ## A solver instruction that a fence stops (R344) -/

/-- SOLVER_FENCE_STOP: the solver instruction `f` that was running when its context was fenced, and before FENCED is taken,
stops in `slot` after `iters` inner iterations of it, or after `iters` delta entries. `kind`: 0 `sdelta`, 1 `ssolve`,
2 `ssolvet`. One that `eret` re-issues while the fence is due stands at the head of the M queue (`Tile.startHead`); any other is
dispatched by this command. -/
def execSolverFenceStop (t : TileIx) (f : F3) (kind : Fin 3) (slot : Fin 64) (iters : BitVec 16) (s : State) :
    Host.Outcome State Fault Refusal :=
  let c := s.ctxOfTile t
  .next (if s.runsCtx t c ∧ s.fenced c ∧ (s.tile t).events.fenced.isSome then
    s.onTile t (fun T =>
      let i : Instr := match kind with
        | 0 => .sdelta t f
        | 1 => .ssolve t f
        | 2 => .ssolvet t f
      let body := stoppedBody (kind.val + 1) slot iters.toNat f.a.toNat
      match T.mq with
      | e :: rest =>
        if e.again && e.instr == i && !T.frozen 2 then
          match body T e with
          | .ok T' => T'.dequeue 2 e
          | .fault T' code info => (T'.setQueue 2 (e :: rest)).queueExc 2 code e.pc info
        else T
      | [] => T.solverOp i f (kind.val + 1) body)
  else s)

end Sys2Proof.Machine
end

