-- ==== Sys2Proof/Machine/Transfer.lean ====
section
/-!
DEFINITION. The descriptor and mask transfers (MAJOR 0x35, R120), and the squash of a mispredicted path (R130).
-/
namespace Sys2Proof.Machine

/-- A transfer of 64 bytes between the tile store at sB and a register of a file of `n` (R120). C and K must be 0;
a register beyond the file raises sub-code 3; sB must be aligned to 64 bytes. A mask register (a file of 8) is not accessed
before the instructions of the C queue that name it (R106). -/
def Tile.transfer (T : Tile) (f : F3) (minor n fault : Nat) (readsStore : Bool) (body : Tile → Nat → Tile) : Tile :=
  T.scalar (F3w f 0x35 minor) [f.b.toNat]
    (firstBad [(f.c != 0 || f.k != 0, 2), (n ≤ f.a.toNat, 3)])
    (fun T =>
      let a := T.sreg f.b.toNat
      if !localOk a.toNat 64 then .sync fault 0 a
      else if T.waits a.toNat 64 (!readsStore) || (n == 8 && T.maskWaits f.a.toNat readsStore) then .wait
      else if readsStore && T.hasUE a.toNat 64 then .sync 6 0 (T.firstUE a.toNat 64)
      else .ok (body T a.toNat) T.pc4)

/-- `dld` (R120). -/
def execDld (t : TileIx) (f : F3) (s : State) : Host.Outcome State Fault Refusal :=
  .next (s.onTile t (fun T => T.transfer f 0 16 3 true
    (fun T a => T.setD f.a.toNat (BitVec.ofNat 512 (T.peek a 64)))))

/-- `dst` (R120). -/
def execDst (t : TileIx) (f : F3) (s : State) : Host.Outcome State Fault Refusal :=
  .next (s.onTile t (fun T => T.transfer f 1 16 4 false (fun T a => T.poke a 64 (T.dreg f.a.toNat).toNat)))

/-- `kld` (R120); a load of k0 is discarded (R112). -/
def execKld (t : TileIx) (f : F3) (s : State) : Host.Outcome State Fault Refusal :=
  .next (s.onTile t (fun T => T.transfer f 2 8 3 true
    (fun T a => T.setK f.a.toNat (BitVec.ofNat 512 (T.peek a 64)))))

/-- `kst` (R120); k0 stores all ones (R112). -/
def execKst (t : TileIx) (f : F3) (s : State) : Host.Outcome State Fault Refusal :=
  .next (s.onTile t (fun T => T.transfer f 3 8 4 false (fun T a => T.poke a 64 (T.kreg f.a.toNat).toNat)))

/-- A squash (R130): nothing of a mispredicted path has taken effect (R129), so only the slots that carried its
`nS`, `nM`, `nC`, `nX` instructions change, from dispatched to wasted (R641). With SPEC_EN = 0 nothing is predicted (R131). -/
def execSquash (t : TileIx) (nS nM nC nX : BitVec 6) (s : State) : Host.Outcome State Fault Refusal :=
  .next (s.onTile t (fun T => if T.fld F.TILE_CFG_SPEC_EN = 0 then T else
    (((T.slot (wasteFld 1) nS.toNat).slot (wasteFld 2) nM.toNat).slot (wasteFld 3) nC.toNat).slot (wasteFld 4) nX.toNat))

end Sys2Proof.Machine
end

