-- ==== Sys2Proof/Machine/Dispatch.lean ====
section
/-!
DEFINITION. The dispatch of a command to its meaning: one arm per row of the opcode table.
-/
namespace Sys2Proof.Machine

/-- What a command does to everything but the queue of waiting commands. -/
def exec (i : Instr) (s : State) : Host.Outcome State Fault Refusal :=
  match i with
  | .standbyPowerApplied => Sys2Proof.Machine.execStandbyPowerApplied s
  | .standbyPowerLost => Sys2Proof.Machine.execStandbyPowerLost s
  | .warmUpDone => Sys2Proof.Machine.execWarmUpDone s
  | .ptpSyncMeasurement port sec nanos sub => Sys2Proof.Machine.execPtpSyncMeasurement port sec nanos sub s
  | .ppsEdge rising sub => Sys2Proof.Machine.execPpsEdge rising sub s
  | .referenceLoss r => Sys2Proof.Machine.execReferenceLoss r s
  | .roundBoundary f10 => Sys2Proof.Machine.execRoundBoundary f10 s
  | .referenceSelection => Sys2Proof.Machine.execReferenceSelection s
  | .automaticLoad => Sys2Proof.Machine.execAutomaticLoad s
  | .holdLimitReached => Sys2Proof.Machine.execHoldLimitReached s
  | .timeSet => Sys2Proof.Machine.execTimeSet s
  | .timeSetAtPps => Sys2Proof.Machine.execTimeSetAtPps s
  | .timeCancel => Sys2Proof.Machine.execTimeCancel s
  | .stepOk => Sys2Proof.Machine.execStepOk s
  | .timeStep => Sys2Proof.Machine.execTimeStep s
  | .droopStretch n deep => Sys2Proof.Machine.execDroopStretch n deep s
  | .clockRealign => Sys2Proof.Machine.execClockRealign s
  | .registerWrite r w src => Sys2Proof.Machine.execRegisterWrite r w src s
  | .squash t nS nM nC nX => Sys2Proof.Machine.execSquash t nS nM nC nX s
  | .add t f => Sys2Proof.Machine.execAdd t f s
  | .sub t f => Sys2Proof.Machine.execSub t f s
  | .and t f => Sys2Proof.Machine.execAnd t f s
  | .or t f => Sys2Proof.Machine.execOr t f s
  | .xor t f => Sys2Proof.Machine.execXor t f s
  | .shl t f => Sys2Proof.Machine.execShl t f s
  | .shr t f => Sys2Proof.Machine.execShr t f s
  | .sar t f => Sys2Proof.Machine.execSar t f s
  | .slt t f => Sys2Proof.Machine.execSlt t f s
  | .sltu t f => Sys2Proof.Machine.execSltu t f s
  | .min t f => Sys2Proof.Machine.execMin t f s
  | .max t f => Sys2Proof.Machine.execMax t f s
  | .minu t f => Sys2Proof.Machine.execMinu t f s
  | .maxu t f => Sys2Proof.Machine.execMaxu t f s
  | .mul t f => Sys2Proof.Machine.execMul t f s
  | .mulh t f => Sys2Proof.Machine.execMulh t f s
  | .mulhu t f => Sys2Proof.Machine.execMulhu t f s
  | .div t f => Sys2Proof.Machine.execDiv t f s
  | .divu t f => Sys2Proof.Machine.execDivu t f s
  | .rem t f => Sys2Proof.Machine.execRem t f s
  | .remu t f => Sys2Proof.Machine.execRemu t f s
  | .clz t f => Sys2Proof.Machine.execClz t f s
  | .ctz t f => Sys2Proof.Machine.execCtz t f s
  | .popc t f => Sys2Proof.Machine.execPopc t f s
  | .addi t f => Sys2Proof.Machine.execAddi t f s
  | .andi t f => Sys2Proof.Machine.execAndi t f s
  | .ori t f => Sys2Proof.Machine.execOri t f s
  | .xori t f => Sys2Proof.Machine.execXori t f s
  | .shli t f => Sys2Proof.Machine.execShli t f s
  | .shri t f => Sys2Proof.Machine.execShri t f s
  | .sari t f => Sys2Proof.Machine.execSari t f s
  | .rotri t f => Sys2Proof.Machine.execRotri t f s
  | .slti t f => Sys2Proof.Machine.execSlti t f s
  | .sltiu t f => Sys2Proof.Machine.execSltiu t f s
  | .li t f => Sys2Proof.Machine.execLi t f s
  | .lsh t f => Sys2Proof.Machine.execLsh t f s
  | .pcrel t f => Sys2Proof.Machine.execPcrel t f s
  | .ld8 t f => Sys2Proof.Machine.execLd8 t f s
  | .ld8u t f => Sys2Proof.Machine.execLd8u t f s
  | .ld16 t f => Sys2Proof.Machine.execLd16 t f s
  | .ld16u t f => Sys2Proof.Machine.execLd16u t f s
  | .ld32 t f => Sys2Proof.Machine.execLd32 t f s
  | .ld32u t f => Sys2Proof.Machine.execLd32u t f s
  | .ld64 t f => Sys2Proof.Machine.execLd64 t f s
  | .st8 t f => Sys2Proof.Machine.execSt8 t f s
  | .st16 t f => Sys2Proof.Machine.execSt16 t f s
  | .st32 t f => Sys2Proof.Machine.execSt32 t f s
  | .st64 t f => Sys2Proof.Machine.execSt64 t f s
  | .beq t f => Sys2Proof.Machine.execBeq t f s
  | .bne t f => Sys2Proof.Machine.execBne t f s
  | .blt t f => Sys2Proof.Machine.execBlt t f s
  | .bge t f => Sys2Proof.Machine.execBge t f s
  | .bltu t f => Sys2Proof.Machine.execBltu t f s
  | .bgeu t f => Sys2Proof.Machine.execBgeu t f s
  | .jal t f => Sys2Proof.Machine.execJal t f s
  | .jalr t f => Sys2Proof.Machine.execJalr t f s
  | .fence x => Sys2Proof.Machine.execFence x s
  | .tsync t f => Sys2Proof.Machine.execTsync t f s
  | .ifence x => Sys2Proof.Machine.execIfence x s
  | .trap t f => Sys2Proof.Machine.execTrap t f s
  | .wait x => Sys2Proof.Machine.execWait x s
  | .denCommit t => Sys2Proof.Machine.execDenCommit t s
  | .eret x => Sys2Proof.Machine.execEret x s
  | .asyncEventEntry x => Sys2Proof.Machine.execAsyncEventEntry x s
  | .twait t f => Sys2Proof.Machine.execTwait t f s
  | .twaitRelease t => Sys2Proof.Machine.execTwaitRelease t s
  | .csrr t f => Sys2Proof.Machine.execCsrr t f s
  | .csrw t f => Sys2Proof.Machine.execCsrw t f s
  | .csrs t f => Sys2Proof.Machine.execCsrs t f s
  | .csrc t f => Sys2Proof.Machine.execCsrc t f s
  | .dld t f => Sys2Proof.Machine.execDld t f s
  | .dst t f => Sys2Proof.Machine.execDst t f s
  | .kld t f => Sys2Proof.Machine.execKld t f s
  | .kst t f => Sys2Proof.Machine.execKst t f s
  | .hold t f => Sys2Proof.Machine.execHold t f s
  | .commit t f => Sys2Proof.Machine.execCommit t f s
  | .amoadd t f => Sys2Proof.Machine.execAmoadd t f s
  | .amoand t f => Sys2Proof.Machine.execAmoand t f s
  | .amoor t f => Sys2Proof.Machine.execAmoor t f s
  | .amoxor t f => Sys2Proof.Machine.execAmoxor t f s
  | .amomin t f => Sys2Proof.Machine.execAmomin t f s
  | .amomax t f => Sys2Proof.Machine.execAmomax t f s
  | .amominu t f => Sys2Proof.Machine.execAmominu t f s
  | .amomaxu t f => Sys2Proof.Machine.execAmomaxu t f s
  | .amoswap t f => Sys2Proof.Machine.execAmoswap t f s
  | .amofadd64 t f => Sys2Proof.Machine.execAmofadd64 t f s
  | .amofadd32 t f => Sys2Proof.Machine.execAmofadd32 t f s
  | .atomicAtHome t tag err => Sys2Proof.Machine.execAtomicAtHome t tag err s
  | .holdServed d a => Sys2Proof.Machine.execHoldServed d a s
  | .reservationLapse t => Sys2Proof.Machine.execReservationLapse t s
  | .haltDeferExpiry t => Sys2Proof.Machine.execHaltDeferExpiry t s
  | .stampLaunch t => Sys2Proof.Machine.execStampLaunch t s
  | .mmac t f => Sys2Proof.Machine.execMmac t f s
  | .mdrain t f => Sys2Proof.Machine.execMdrain t f s
  | .mclear t f => Sys2Proof.Machine.execMclear t f s
  | .mexport t f => Sys2Proof.Machine.execMexport t f s
  | .mimport t f => Sys2Proof.Machine.execMimport t f s
  | .mmom t f => Sys2Proof.Machine.execMmom t f s
  | .mdrmom t f => Sys2Proof.Machine.execMdrmom t f s
  | .mgrp t f => Sys2Proof.Machine.execMgrp t f s
  | .vsetvl t f => Sys2Proof.Machine.execVsetvl t f s
  | .vmv t f => Sys2Proof.Machine.execVmv t f s
  | .vbcast t f => Sys2Proof.Machine.execVbcast t f s
  | .vextr t f => Sys2Proof.Machine.execVextr t f s
  | .vins t f => Sys2Proof.Machine.execVins t f s
  | .vidx t f => Sys2Proof.Machine.execVidx t f s
  | .vadd t f => Sys2Proof.Machine.execVadd t f s
  | .vsub t f => Sys2Proof.Machine.execVsub t f s
  | .vmul t f => Sys2Proof.Machine.execVmul t f s
  | .vfma t f => Sys2Proof.Machine.execVfma t f s
  | .vfnma t f => Sys2Proof.Machine.execVfnma t f s
  | .vmin t f => Sys2Proof.Machine.execVmin t f s
  | .vmax t f => Sys2Proof.Machine.execVmax t f s
  | .vabs t f => Sys2Proof.Machine.execVabs t f s
  | .vneg t f => Sys2Proof.Machine.execVneg t f s
  | .vrecip t f => Sys2Proof.Machine.execVrecip t f s
  | .vrsqrt t f => Sys2Proof.Machine.execVrsqrt t f s
  | .vexp t f => Sys2Proof.Machine.execVexp t f s
  | .vlog t f => Sys2Proof.Machine.execVlog t f s
  | .vsin t f => Sys2Proof.Machine.execVsin t f s
  | .vcos t f => Sys2Proof.Machine.execVcos t f s
  | .vtanh t f => Sys2Proof.Machine.execVtanh t f s
  | .vceq t f => Sys2Proof.Machine.execVceq t f s
  | .vcne t f => Sys2Proof.Machine.execVcne t f s
  | .vclt t f => Sys2Proof.Machine.execVclt t f s
  | .vcle t f => Sys2Proof.Machine.execVcle t f s
  | .vcgt t f => Sys2Proof.Machine.execVcgt t f s
  | .vcge t f => Sys2Proof.Machine.execVcge t f s
  | .vsel t f => Sys2Proof.Machine.execVsel t f s
  | .kand t f => Sys2Proof.Machine.execKand t f s
  | .kor t f => Sys2Proof.Machine.execKor t f s
  | .kxor t f => Sys2Proof.Machine.execKxor t f s
  | .knot t f => Sys2Proof.Machine.execKnot t f s
  | .kpop t f => Sys2Proof.Machine.execKpop t f s
  | .kfirst t f => Sys2Proof.Machine.execKfirst t f s
  | .vshl t f => Sys2Proof.Machine.execVshl t f s
  | .vshr t f => Sys2Proof.Machine.execVshr t f s
  | .vsar t f => Sys2Proof.Machine.execVsar t f s
  | .vand t f => Sys2Proof.Machine.execVand t f s
  | .vor t f => Sys2Proof.Machine.execVor t f s
  | .vxor t f => Sys2Proof.Machine.execVxor t f s
  | .cvt t f p => Sys2Proof.Machine.execCvt t f p s
  | .vwmul t f => Sys2Proof.Machine.execVwmul t f s
  | .vwmulh t f => Sys2Proof.Machine.execVwmulh t f s
  | .vwfma t f => Sys2Proof.Machine.execVwfma t f s
  | .vwfmah t f => Sys2Proof.Machine.execVwfmah t f s
  | .vdot t f => Sys2Proof.Machine.execVdot t f s
  | .vreddot t f => Sys2Proof.Machine.execVreddot t f s
  | .vredsum t f => Sys2Proof.Machine.execVredsum t f s
  | .vredmax t f => Sys2Proof.Machine.execVredmax t f s
  | .vredmin t f => Sys2Proof.Machine.execVredmin t f s
  | .vredamax t f => Sys2Proof.Machine.execVredamax t f s
  | .vrclr t f => Sys2Proof.Machine.execVrclr t f s
  | .vrdrain t f => Sys2Proof.Machine.execVrdrain t f s
  | .vrdrainv t f => Sys2Proof.Machine.execVrdrainv t f s
  | .vrexport t f => Sys2Proof.Machine.execVrexport t f s
  | .vrimport t f => Sys2Proof.Machine.execVrimport t f s
  | .vld t f => Sys2Proof.Machine.execVld t f s
  | .vlds t f => Sys2Proof.Machine.execVlds t f s
  | .vst t f => Sys2Proof.Machine.execVst t f s
  | .vsts t f => Sys2Proof.Machine.execVsts t f s
  | .vgather t f => Sys2Proof.Machine.execVgather t f s
  | .vscatter t f => Sys2Proof.Machine.execVscatter t f s
  | .vrand t f => Sys2Proof.Machine.execVrand t f s
  | .vphilox t f => Sys2Proof.Machine.execVphilox t f s
  | .vchain t f minor => Sys2Proof.Machine.execVchain t f minor s
  | .mvStream t f => Sys2Proof.Machine.execMvStream t f s
  | .streamCompletion t tag => Sys2Proof.Machine.execStreamCompletion t tag s
  | .tprog t f => Sys2Proof.Machine.execTprog t f s
  | .tileProgramRun t => Sys2Proof.Machine.execTileProgramRun t s
  | .vacc t f g => Sys2Proof.Machine.execVacc t f g s
  | .vaccred t f g => Sys2Proof.Machine.execVaccred t f g s
  | .vrscale t x => Sys2Proof.Machine.execVrscale t x s
  | .vaccrel t f g => Sys2Proof.Machine.execVaccrel t f g s
  | .sinit t f => Sys2Proof.Machine.execSinit t f s
  | .sdelta t f => Sys2Proof.Machine.execSdelta t f s
  | .ssolve t f => Sys2Proof.Machine.execSsolve t f s
  | .ssolvet t f => Sys2Proof.Machine.execSsolvet t f s
  | .sresid t f => Sys2Proof.Machine.execSresid t f s
  | .sresidt t f => Sys2Proof.Machine.execSresidt t f s
  | .sfree t f => Sys2Proof.Machine.execSfree t f s
  | .solverFenceStop t f kind slot iters => Sys2Proof.Machine.execSolverFenceStop t f kind slot iters s
  | .solvBaseWrite t w src => Sys2Proof.Machine.execSolvBaseWrite t w src s
  | .solvRegionWrite t w src => Sys2Proof.Machine.execSolvRegionWrite t w src s
  | .alternateStart c q refused poisoned => Sys2Proof.Machine.execAlternateStart c q refused poisoned s
  | .peerEventResume c q => Sys2Proof.Machine.execPeerEventResume c q s
  | .mvDma t f => Sys2Proof.Machine.execMvDma t f s
  | .chunkLaunch t tag => Sys2Proof.Machine.execChunkLaunch t tag s
  | .tagCompletion t tag gen ans => Sys2Proof.Machine.execTagCompletion t tag gen ans s
  | .errorRecordPost t => Sys2Proof.Machine.execErrorRecordPost t s
  | .memoryRequest t tag n err => Sys2Proof.Machine.execMemoryRequest t tag n err s
  | .refreshBeat b ondie => Sys2Proof.Machine.execRefreshBeat b ondie s
  | .zeroFill b layers => Sys2Proof.Machine.execZeroFill b layers s
  | .scrubRead b err => Sys2Proof.Machine.execScrubRead b err s
  | .scrubNow b => Sys2Proof.Machine.execScrubNow b s
  | .rowReplace b row => Sys2Proof.Machine.execRowReplace b row s
  | .bondSwap b ch => Sys2Proof.Machine.execBondSwap b ch s
  | .mvErrqCfgWrite t w src => Sys2Proof.Machine.execMvErrqCfgWrite t w src s
  | .mvSend t f => Sys2Proof.Machine.execMvSend t f s
  | .mvRecv t f => Sys2Proof.Machine.execMvRecv t f s
  | .recvCompletion t tag => Sys2Proof.Machine.execRecvCompletion t tag s
  | .frameSend l => Sys2Proof.Machine.execFrameSend l s
  | .frameReceive l ok at_ h ms corr => Sys2Proof.Machine.execFrameReceive l ok at_ h ms corr s
  | .frameFailed l b => Sys2Proof.Machine.execFrameFailed l b s
  | .messageRelease l fl => Sys2Proof.Machine.execMessageRelease l fl s
  | .transferHorizonExpiry x l fl => Sys2Proof.Machine.execTransferHorizonExpiry x l fl s
  | .laneFailure l lost => Sys2Proof.Machine.execLaneFailure l lost s
  | .laneSwap l => Sys2Proof.Machine.execLaneSwap l s
  | .linkSyncEntry l => Sys2Proof.Machine.execLinkSyncEntry l s
  | .linkServiceEntry l => Sys2Proof.Machine.execLinkServiceEntry l s
  | .linkDown l => Sys2Proof.Machine.execLinkDown l s
  | .linkEnable l => Sys2Proof.Machine.execLinkEnable l s
  | .linkDisable l => Sys2Proof.Machine.execLinkDisable l s
  | .linkRetrain l => Sys2Proof.Machine.execLinkRetrain l s
  | .linkClearCounters l => Sys2Proof.Machine.execLinkClearCounters l s
  | .coll c q => Sys2Proof.Machine.execColl c q s
  | .collCompletion c q => Sys2Proof.Machine.execCollCompletion c q s
  | .grpCtrlWrite g w src => Sys2Proof.Machine.execGrpCtrlWrite g w src s
  | .groupChangeSubmit g src => Sys2Proof.Machine.execGroupChangeSubmit g src s
  | .membershipChange g => Sys2Proof.Machine.execMembershipChange g s
  | .create p src => Sys2Proof.Machine.execCreate p src s
  | .destroy p src => Sys2Proof.Machine.execDestroy p src s
  | .ctxCfgWrite c w src => Sys2Proof.Machine.execCtxCfgWrite c w src s
  | .timetableSubmit p => Sys2Proof.Machine.execTimetableSubmit p s
  | .timetableWithdraw p id => Sys2Proof.Machine.execTimetableWithdraw p id s
  | .timetableInstall p id => Sys2Proof.Machine.execTimetableInstall p id s
  | .withdrawalEffect p id => Sys2Proof.Machine.execWithdrawalEffect p id s
  | .admissionSettlement => Sys2Proof.Machine.execAdmissionSettlement s
  | .contextFence c fw src => Sys2Proof.Machine.execContextFence c fw src s
  | .drainBound c => Sys2Proof.Machine.execDrainBound c s
  | .quiesceLimit t => Sys2Proof.Machine.execQuiesceLimit t s
  | .contextReset c fin src => Sys2Proof.Machine.execContextReset c fin src s
  | .treset p t src => Sys2Proof.Machine.execTreset p t src s
  | .tileReset t => Sys2Proof.Machine.execTileReset t s
  | .partitionResetCmd p src => Sys2Proof.Machine.execPartitionResetCmd p src s
  | .partitionReset p found => Sys2Proof.Machine.execPartitionReset p found s
  | .captureWrite => Sys2Proof.Machine.execCaptureWrite s
  | .escalation u => Sys2Proof.Machine.execEscalation u s
  | .engineReset w fin src => Sys2Proof.Machine.execEngineReset w fin src s
  | .powerCycleRequest => Sys2Proof.Machine.execPowerCycleRequest s
  | .badgerFire u => Sys2Proof.Machine.execBadgerFire u s
  | .pcieLinkDown => Sys2Proof.Machine.execPcieLinkDown s
  | .pcieHotReset => Sys2Proof.Machine.execPcieHotReset s
  | .pfFlr => Sys2Proof.Machine.execPfFlr s
  | .vfFlr c => Sys2Proof.Machine.execVfFlr c s
  | .perst asserted => Sys2Proof.Machine.execPerst asserted s
  | .prov c q => Sys2Proof.Machine.execProv c q s
  | .provCacheClear p => Sys2Proof.Machine.execProvCacheClear p s
  | .plevelRequest w src => Sys2Proof.Machine.execPlevelRequest w src s
  | .plevelChange => Sys2Proof.Machine.execPlevelChange s
  | .dozeEntry t => Sys2Proof.Machine.execDozeEntry t s
  | .dozeWake t source => Sys2Proof.Machine.execDozeWake t source s
  | .denAlarm t => Sys2Proof.Machine.execDenAlarm t s
  | .denWake t source => Sys2Proof.Machine.execDenWake t source s
  | .wakeStepTimeout t => Sys2Proof.Machine.execWakeStepTimeout t s
  | .hibEnter p => Sys2Proof.Machine.execHibEnter p s
  | .hibBlockStop p => Sys2Proof.Machine.execHibBlockStop p s
  | .hibAbort p => Sys2Proof.Machine.execHibAbort p s
  | .hibCommit p => Sys2Proof.Machine.execHibCommit p s
  | .hibWake p => Sys2Proof.Machine.execHibWake p s
  | .hibAlarm p => Sys2Proof.Machine.execHibAlarm p s
  | .hibWakeDone p beat => Sys2Proof.Machine.execHibWakeDone p beat s
  | .hibWakeFail p => Sys2Proof.Machine.execHibWakeFail p s
  | .padRelease u => Sys2Proof.Machine.execPadRelease u s
  | .foxLatch p => Sys2Proof.Machine.execFoxLatch p s
  | .dumpWritten p => Sys2Proof.Machine.execDumpWritten p s
  | .foxLatchAtWrite p w src => Sys2Proof.Machine.execFoxLatchAtWrite p w src s
  | .foxDumpBaseWrite p w src => Sys2Proof.Machine.execFoxDumpBaseWrite p w src s
  | .sampleTrigger t => Sys2Proof.Machine.execSampleTrigger t s
  | .foxSampleWrite t w => Sys2Proof.Machine.execFoxSampleWrite t w s
  | .debugNop f => Sys2Proof.Machine.execDebugNop f s
  | .debugPeek f => Sys2Proof.Machine.execDebugPeek f s
  | .debugTake f => Sys2Proof.Machine.execDebugTake f s
  | .debugWrite f => Sys2Proof.Machine.execDebugWrite f s
  | .extest => Sys2Proof.Machine.execExtest s
  | .idcode => Sys2Proof.Machine.execIdcode s
  | .samplePreload => Sys2Proof.Machine.execSamplePreload s
  | .bypass code => Sys2Proof.Machine.execBypass code s
  | .scanPhys => Sys2Proof.Machine.execScanPhys s
  | .debugHalt t => Sys2Proof.Machine.execDebugHalt t s
  | .tileHalted t => Sys2Proof.Machine.execTileHalted t s
  | .debugResume t => Sys2Proof.Machine.execDebugResume t s
  | .debugStep t => Sys2Proof.Machine.execDebugStep t s
  | .breakpointMatch t => Sys2Proof.Machine.execBreakpointMatch t s
  | .partitionHalt p => Sys2Proof.Machine.execPartitionHalt p s
  | .partitionResume p => Sys2Proof.Machine.execPartitionResume p s
  | .traceRecord kind pc code => Sys2Proof.Machine.execTraceRecord kind pc code s
  | .traceData1Read => Sys2Proof.Machine.execTraceData1Read s
  | .qDbWrite c q w src => Sys2Proof.Machine.execQDbWrite c q w src s
  | .commandFetch c q ok w => Sys2Proof.Machine.execCommandFetch c q ok w s
  | .cmdNop c q => Sys2Proof.Machine.execCmdNop c q s
  | .run c q => Sys2Proof.Machine.execRun c q s
  | .cmdDma c q refused poisoned => Sys2Proof.Machine.execCmdDma c q refused poisoned s
  | .memAlloc c q => Sys2Proof.Machine.execMemAlloc c q s
  | .memFree c q => Sys2Proof.Machine.execMemFree c q s
  | .completionPost c q => Sys2Proof.Machine.execCompletionPost c q s
  | .irqMaskWrite w src => Sys2Proof.Machine.execIrqMaskWrite w src s
  | .mapImgWrite w src => Sys2Proof.Machine.execMapImgWrite w src s
  | .pfApertureAccess off n wr data errs => Sys2Proof.Machine.execPfApertureAccess off n wr data errs s
  | .vfApertureAccess c off n wr data errs => Sys2Proof.Machine.execVfApertureAccess c off n wr data errs s
  | .hostRegisterAccess vf off n wr w => Sys2Proof.Machine.execHostRegisterAccess vf off n wr w s
  | .mgmtRegRead off => Sys2Proof.Machine.execMgmtRegRead off s
  | .mgmtRegWrite off w => Sys2Proof.Machine.execMgmtRegWrite off w s
  | .partWake p => Sys2Proof.Machine.execPartWake p s
  | .mgmtEngineReset => Sys2Proof.Machine.execMgmtEngineReset s
  | .mgmtPowerCycle => Sys2Proof.Machine.execMgmtPowerCycle s
  | .debugChallenge => Sys2Proof.Machine.execDebugChallenge s
  | .debugUnlock sig => Sys2Proof.Machine.execDebugUnlock sig s
  | .debugLock => Sys2Proof.Machine.execDebugLock s
  | .svnCommit => Sys2Proof.Machine.execSvnCommit s
  | .bringUp a b digest found => Sys2Proof.Machine.execBringUp a b digest found s
  | .timeStageEnd => Sys2Proof.Machine.execTimeStageEnd s
  | .mainEnHigh input cool => Sys2Proof.Machine.execMainEnHigh input cool s
  | .mainPowerGood => Sys2Proof.Machine.execMainPowerGood s
  | .mainEnLow => Sys2Proof.Machine.execMainEnLow s
  | .mainPowerLoss => Sys2Proof.Machine.execMainPowerLoss s
  | .panelFault kind => Sys2Proof.Machine.execPanelFault kind s
  | .undervoltageRestart cool => Sys2Proof.Machine.execUndervoltageRestart cool s
  | .thermalSample cool base logic dram => Sys2Proof.Machine.execThermalSample cool base logic dram s
  | .ptpAnnounce port utc logSync => Sys2Proof.Machine.execPtpAnnounce port utc logSync s
  | .inboundRequest t tag n => Sys2Proof.Machine.execInboundRequest t tag n s
  | .pcieLinkUp => Sys2Proof.Machine.execPcieLinkUp s
  | .pcieConfigWrite op => Sys2Proof.Machine.execPcieConfigWrite op s
  | .pcieCompletionTimeout t tag => Sys2Proof.Machine.execPcieCompletionTimeout t tag s
  | .panelSoftStart input cool => Sys2Proof.Machine.execPanelSoftStart input cool s
  | .denPrepareTimeout t => Sys2Proof.Machine.execDenPrepareTimeout t s

end Sys2Proof.Machine
end

