-- ==== Sys2Proof/Machine/Tick.lean ====
section
/-!
DEFINITION. A tick of hall time passes: what ends with a tick, and what takes effect in the tick after it was accepted.
-/
namespace Sys2Proof.Machine

/-- A tile as hall time goes on from a tick to the next: a clock that waits for its beat boundary starts (R100), and what
holds for one tick or tile cycle ends (R155, R192). -/
def Tile.nextTick (T : Tile) (old now : Nat) : Tile :=
  { T with clockHold := T.clockHold && now % 256 != 0, rejNow := 0,
           flagsNow := if T.nominal old = T.nominal now then T.flagsNow else [] }

/-- One tick of hall time passes (R60): reservations that have been broken end (R134), a Set that has been accepted acts
(R87), and fences that have been accepted take effect (R555). -/
def State.nextTick (s : State) : State :=
  let old := s.owl.ns
  let s := s.tiles.foldl (fun (s : State) x => if x.2.resv.isSome then s.endResv x.1 else s) s
  let s := s.tick.onOwl (fun o => { o with up := min (o.up + 1) warmTicks })
  let now := s.owl.ns
  let s := if s.tiles.any (fun x => x.2.rejNow == 2) then s.setEf F.DBG_CONFLICT_REJECT 1 else s
  let s := { s with rejNow := false, tap := { s.tap with hostTook := false }, tiles := s.tiles.mapv tileDflt (fun _ T => T.nextTick old now) }
  s.actSet.tickFences

end Sys2Proof.Machine
end

