-- ==== Sys2Proof/Safety.lean ====
section
/-!
DEFINITION. The terms that claims use: a safe run, the canonical form of a state, and what an instruction that has
retired leaves as it was.
-/
namespace Sys2Proof.Safety

/-- A state from which the next step answers a next state. -/
def Goes (s : Machine.State) : Prop := ∃ t, Machine.step s = .next t

/-- `k` steps from `s` all answer a next state. -/
def GoesFor : Nat → Machine.State → Prop
  | 0, _ => True
  | k + 1, s => ∃ t, Machine.step s = .next t ∧ GoesFor k t

end Sys2Proof.Safety

namespace Sys2Proof.Machine

/-- What holds of a state that a run reaches: hall time is a 64-bit count of ticks with a 16-bit fraction (R60), and
stacked memory, host memory, the tiles and the host registers are held in their canonical form. -/
structure State.Canonical (s : State) : Prop where
  ticks : s.owl.ns < 2 ^ 64
  frac : s.owl.frac < 2 ^ 16
  mem : Memory.wf s.mem
  host : Memory.wf s.host
  tiles : NMap.wf tileDflt s.tiles
  regs : NMap.wf hostDflt s.regs

/-- In `u` tile `t` is `T'`, and nothing but that tile differs from `s`. -/
structure OnlyTile (s : State) (t : Nat) (u : State) (T' : Tile) : Prop where
  tile : u.tile t = T'
  others : ∀ t', t' ≠ t → u.tile t' = s.tile t'
  rest : { u with tiles := s.tiles } = s

/-- The control registers that retiring an instruction of queue `q` writes whatever it does: its slot counters (R641)
and DBG_STATUS under DBG_CTL.STEP (R668). -/
def retireRegs (q : Nat) : List Nat := [(retFld q).reg, F.SLOT_HANDLER_COUNT.reg, F.DBG_STATUS_HALTED.reg]

/-- `T` is `U` with an instruction of queue `q` retired and dispatch going on at `next`: nothing else of the tile
differs but the count of instructions since a sample's trigger (R655). -/
structure Tile.Retired (U T : Tile) (q : Nat) (next : Word) : Prop where
  pc : T.pc = next
  counted : T.fld (retFld q) = (U.fld (retFld q) + 1) % 2 ^ 56
  ctl : ∀ a, a ∉ retireRegs q → T.ctlWord a = U.ctlWord a
  rest : T = { U with pc := next, ctl := T.ctl, stepping := T.stepping, fresh := T.fresh, skid := T.skid }

/-- May dispatch go on at an address without a FETCH cause? (R142) -/
def fetchable (a : Word) : Prop := a.toNat % 4 = 0 ∧ a.toNat + 4 ≤ storeEnd

end Sys2Proof.Machine
end

