-- ==== Sys2Proof/Certificates/Slice0/Obligations.lean ====
section
/-!
DEFINITION. The statements about the DW-1 that the provers are given. The helpers in Claims say, table by table, what a rule
of the spec gives an instruction.
-/
section
open Sys2Proof Sys2Proof.Machine



/-! ## The queue of commands -/

/-- A step takes the command at the front of the queue and runs it with the queue's rest. -/
def Sys2Proof.Claims.StepRunsFrontCommand : Prop :=
  ∀ (s : State) (c : Instr) (rest : List Instr), s.pending = c :: rest → step s = exec c { s with pending := rest }

/-- On an empty queue one tick of hall time passes (the model's choice for an empty queue, log entry 1): the 64-bit counter goes
on by one and wraps. Where no reservation is held, no write has lost in the tick, no Set has been accepted, no fence is due and
every capture is latched, nothing else changes but what is kept for one tick or one cycle: what the rejects and flags of the
present tick were, a host reading of the trace, and a tile clock that waits for its beat boundary. -/
def Sys2Proof.Claims.EmptyQueueTicks : Prop :=
  ∀ s : State, s.pending = [] → s.owl.setDue = none → (∀ x ∈ s.tiles, x.2.resv = none ∧ x.2.rejNow ≠ 2) →
    (∀ c, c < 64 → (s.ctx c).fenceDue = none) → (∀ x ∈ s.captures, x.latched = true) →
    let now := (s.owl.ns + 1) % 2 ^ 64
    ∃ u, step s = .next u ∧ u.owl = { s.owl with ns := now, up := min (s.owl.up + 1) 300000000000 } ∧
      (∀ t, u.tile t = { s.tile t with
        clockHold := (s.tile t).clockHold && now % 256 != 0, rejNow := 0,
        flagsNow := if (s.tile t).nominal s.owl.ns = (s.tile t).nominal now then (s.tile t).flagsNow else [] }) ∧
      u = { s with owl := u.owl, tiles := u.tiles, rejNow := false, tap := { s.tap with hostTook := false } }

/-- No command stops the block: every command answers a next state, from every state. -/
def Obligations.EveryCommandAnswersANextState : Prop :=
  ∀ (c : Instr) (s : State), ∃ u, exec c s = .next u

/-! ## Scalar instructions -/

namespace Sys2Proof.Claims

/-- The tile can dispatch the S-queue instruction at its PC, whose scalar registers are `regs`: nothing holds it back and its
word can be fetched. -/
def Dispatches (T : Tile) (regs : List Nat) : Prop := T.ready regs = true ∧ T.fetchFault 4 = none

/-- −2^63. -/
def minWord : Word := BitVec.intMin 64

/-- Bits of a word that hold, from the lowest up. -/
def setBitsOf (b : Word) : List Nat := (List.range 64).filter (fun i => b.getLsbD i)

/-- The fields of an instruction that has none. -/
def noF : F3 := ⟨0, 0, 0, 0⟩

/-- R118: what `add` to `maxu` compute from sB and sC, exactly and then modulo 2^64. -/
def aluValue : Instr → Option (TileIx × F3 × (Word → Word → Word))
  | .add t f => some (t, f, fun b c => BitVec.ofInt 64 (b.toInt + c.toInt))
  | .sub t f => some (t, f, fun b c => BitVec.ofInt 64 (b.toInt - c.toInt))
  | .and t f => some (t, f, fun b c => b &&& c)
  | .or t f => some (t, f, fun b c => b ||| c)
  | .xor t f => some (t, f, fun b c => b ^^^ c)
  | .shl t f => some (t, f, fun b c => BitVec.ofNat 64 (b.toNat * 2 ^ (c.toNat % 64)))
  | .shr t f => some (t, f, fun b c => BitVec.ofNat 64 (b.toNat / 2 ^ (c.toNat % 64)))
  | .sar t f => some (t, f, fun b c => BitVec.ofInt 64 (b.toInt / (2 ^ (c.toNat % 64) : Nat)))
  | .slt t f => some (t, f, fun b c => if b.toInt < c.toInt then 1 else 0)
  | .sltu t f => some (t, f, fun b c => if b.toNat < c.toNat then 1 else 0)
  | .min t f => some (t, f, fun b c => BitVec.ofInt 64 (min b.toInt c.toInt))
  | .max t f => some (t, f, fun b c => BitVec.ofInt 64 (max b.toInt c.toInt))
  | .minu t f => some (t, f, fun b c => BitVec.ofNat 64 (min b.toNat c.toNat))
  | .maxu t f => some (t, f, fun b c => BitVec.ofNat 64 (max b.toNat c.toNat))
  | _ => none

/-- R118: what `mul` to `popc` compute from sB and sC; the last three take sB alone. -/
def mulValue : Instr → Option (TileIx × F3 × (Word → Word → Word))
  | .mul t f => some (t, f, fun b c => BitVec.ofInt 64 (b.toInt * c.toInt))
  | .mulh t f => some (t, f, fun b c => BitVec.ofInt 64 (b.toInt * c.toInt / 2 ^ 64))
  | .mulhu t f => some (t, f, fun b c => BitVec.ofNat 64 (b.toNat * c.toNat / 2 ^ 64))
  | .div t f => some (t, f, fun b c =>
      if c = 0 then BitVec.allOnes 64 else if b = minWord ∧ c.toInt = -1 then b else BitVec.ofInt 64 (b.toInt.tdiv c.toInt))
  | .divu t f => some (t, f, fun b c => if c = 0 then BitVec.allOnes 64 else BitVec.ofNat 64 (b.toNat / c.toNat))
  | .rem t f => some (t, f, fun b c =>
      if c = 0 then b else if b = minWord ∧ c.toInt = -1 then 0 else BitVec.ofInt 64 (b.toInt.tmod c.toInt))
  | .remu t f => some (t, f, fun b c => if c = 0 then b else BitVec.ofNat 64 (b.toNat % c.toNat))
  | .clz t f => some (t, f, fun b _ => BitVec.ofNat 64 (match (setBitsOf b).getLast? with | some i => 63 - i | none => 64))
  | .ctz t f => some (t, f, fun b _ => BitVec.ofNat 64 ((setBitsOf b).headD 64))
  | .popc t f => some (t, f, fun b _ => BitVec.ofNat 64 (setBitsOf b).length)
  | _ => none

/-- `clz`, `ctz` and `popc`, whose C is reserved. -/
def takesOne : Instr → Bool
  | .clz .. | .ctz .. | .popc .. => true
  | _ => false

/-- R117: what an immediate instruction writes to sA: its tile, A, the scalar registers that it names, and the value. -/
def immValue : Instr → Option (TileIx × Nat × List Nat × (Tile → Word))
  | .addi t f => some (t, f.a.toNat, [f.a.toNat, f.b.toNat], fun T => BitVec.ofInt 64 ((T.sreg f.b.toNat).toInt + f.imm.toInt))
  | .andi t f => some (t, f.a.toNat, [f.a.toNat, f.b.toNat], fun T => T.sreg f.b.toNat &&& BitVec.ofNat 64 f.imm.toNat)
  | .ori t f => some (t, f.a.toNat, [f.a.toNat, f.b.toNat], fun T => T.sreg f.b.toNat ||| BitVec.ofNat 64 f.imm.toNat)
  | .xori t f => some (t, f.a.toNat, [f.a.toNat, f.b.toNat], fun T => T.sreg f.b.toNat ^^^ BitVec.ofNat 64 f.imm.toNat)
  | .slti t f => some (t, f.a.toNat, [f.a.toNat, f.b.toNat], fun T => if (T.sreg f.b.toNat).toInt < f.imm.toInt then 1 else 0)
  | .sltiu t f => some (t, f.a.toNat, [f.a.toNat, f.b.toNat],
      fun T => if (T.sreg f.b.toNat).toNat < (BitVec.ofInt 64 f.imm.toInt).toNat then 1 else 0)
  | .lsh t f => some (t, f.a.toNat, [f.a.toNat, f.b.toNat],
      fun T => BitVec.ofNat 64 ((T.sreg f.b.toNat).toNat * 2 ^ 16 + f.imm.toNat))
  | .li t f => some (t, f.a.toNat, [f.a.toNat], fun _ => BitVec.ofInt 64 f.imm.toInt)
  | .pcrel t f => some (t, f.a.toNat, [f.a.toNat], fun T => BitVec.ofInt 64 (T.pc.toInt + 4 * f.imm.toInt))
  | _ => none

/-- R117: what a shift by immediate writes to sA, from sB and the amount in IMM16[5:0]. -/
def shiftValue : Instr → Option (TileIx × FI × (Word → Nat → Word))
  | .shli t f => some (t, f, fun b n => BitVec.ofNat 64 (b.toNat * 2 ^ n))
  | .shri t f => some (t, f, fun b n => BitVec.ofNat 64 (b.toNat / 2 ^ n))
  | .sari t f => some (t, f, fun b n => BitVec.ofInt 64 (b.toInt / (2 ^ n : Nat)))
  | .rotri t f => some (t, f, fun b n => b.rotateRight n)
  | _ => none

end Sys2Proof.Claims

/-- `add` to `maxu` with K = 0 complete and write the value of R118 to sA (s0 discards it); nothing else of the tile changes
but PC, by 4, and the counters of a retired slot, and nothing outside the tile. -/
def Sys2Proof.Claims.AluResults : Prop :=
  ∀ (s : State) (i : Instr) (t : TileIx) (f : F3) (op : Word → Word → Word),
    Claims.aluValue i = some (t, f, op) → f.k = 0 →
    Claims.Dispatches (s.tile t) [f.a.toNat, f.b.toNat, f.c.toNat] → fetchable ((s.tile t).pc + 4) →
    ∃ u T', exec i s = .next u ∧ OnlyTile s t u T' ∧
      Tile.Retired ((s.tile t).setS f.a.toNat (op ((s.tile t).sreg f.b.toNat) ((s.tile t).sreg f.c.toNat))) T' 1
        ((s.tile t).pc + 4)

/-- `mul` to `popc` with their reserved fields 0 complete with the value of R118 in sA; division by 0 and the division of
−2^63 by −1 complete too. -/
def Sys2Proof.Claims.MulDivBitResults : Prop :=
  ∀ (s : State) (i : Instr) (t : TileIx) (f : F3) (op : Word → Word → Word),
    Claims.mulValue i = some (t, f, op) → f.k = 0 → (Claims.takesOne i = true → f.c = 0) →
    Claims.Dispatches (s.tile t) [f.a.toNat, f.b.toNat, f.c.toNat] → fetchable ((s.tile t).pc + 4) →
    ∃ u T', exec i s = .next u ∧ OnlyTile s t u T' ∧
      Tile.Retired ((s.tile t).setS f.a.toNat (op ((s.tile t).sreg f.b.toNat) ((s.tile t).sreg f.c.toNat))) T' 1
        ((s.tile t).pc + 4)

/-- The immediate instructions complete with the value of R117 in sA. -/
def Sys2Proof.Claims.ImmediateResults : Prop :=
  ∀ (s : State) (i : Instr) (t : TileIx) (a : Nat) (regs : List Nat) (v : Tile → Word),
    Claims.immValue i = some (t, a, regs, v) →
    Claims.Dispatches (s.tile t) regs → fetchable ((s.tile t).pc + 4) →
    ∃ u T', exec i s = .next u ∧ OnlyTile s t u T' ∧
      Tile.Retired ((s.tile t).setS a (v (s.tile t))) T' 1 ((s.tile t).pc + 4)

/-- A shift by immediate whose IMM16[15:8] is 0 completes with sB shifted by IMM16[5:0] in sA. -/
def Sys2Proof.Claims.ShiftImmediateResults : Prop :=
  ∀ (s : State) (i : Instr) (t : TileIx) (f : FI) (op : Word → Nat → Word),
    Claims.shiftValue i = some (t, f, op) → f.imm.toNat < 256 →
    Claims.Dispatches (s.tile t) [f.a.toNat, f.b.toNat] → fetchable ((s.tile t).pc + 4) →
    ∃ u T', exec i s = .next u ∧ OnlyTile s t u T' ∧
      Tile.Retired ((s.tile t).setS f.a.toNat (op ((s.tile t).sreg f.b.toNat) (f.imm.toNat % 64))) T' 1 ((s.tile t).pc + 4)

namespace Sys2Proof.Claims

/-- R117: the loads: bytes read, and how they are extended. -/
def loadForm : Instr → Option (TileIx × FI × Nat × Bool)
  | .ld8 t f => some (t, f, 1, true)
  | .ld8u t f => some (t, f, 1, false)
  | .ld16 t f => some (t, f, 2, true)
  | .ld16u t f => some (t, f, 2, false)
  | .ld32 t f => some (t, f, 4, true)
  | .ld32u t f => some (t, f, 4, false)
  | .ld64 t f => some (t, f, 8, false)
  | _ => none

/-- R117: the stores: bytes written. -/
def storeForm : Instr → Option (TileIx × FI × Nat)
  | .st8 t f => some (t, f, 1)
  | .st16 t f => some (t, f, 2)
  | .st32 t f => some (t, f, 4)
  | .st64 t f => some (t, f, 8)
  | _ => none

/-- The address of a load or store: sB + IMM16, sign-extended (R116, R117). -/
def accessAddr (T : Tile) (f : FI) : Word := T.sreg f.b.toNat + f.imm.signExtend 64

/-- `n` bytes of a memory from `a`, the lowest address least significant (R113). -/
def littleEndian (m : NMap Byte) (a n : Nat) : Nat := ((List.range n).map (fun i => (memByte m (a + i)).toNat * 256 ^ i)).sum

end Sys2Proof.Claims

/-- A load at an aligned address in the tile store completes with the bytes there, extended, in sA. -/
def Sys2Proof.Claims.LoadResults : Prop :=
  ∀ (s : State) (i : Instr) (t : TileIx) (f : FI) (n : Nat) (sign : Bool),
    Claims.loadForm i = some (t, f, n, sign) →
    let T := s.tile t
    let a := (Claims.accessAddr T f).toNat
    Claims.Dispatches T [f.a.toNat, f.b.toNat] → fetchable (T.pc + 4) →
    a % n = 0 → a + n ≤ 0x300000 → T.waits a n false = false → T.hasUE a n = false →
    ∃ u T', exec i s = .next u ∧ OnlyTile s t u T' ∧
      Tile.Retired (T.setS f.a.toNat
        (let x := Claims.littleEndian T.store a n
         if sign ∧ 2 ^ (8 * n - 1) ≤ x then BitVec.ofInt 64 (x - 2 ^ (8 * n)) else BitVec.ofNat 64 x)) T' 1 (T.pc + 4)

/-- A store at an aligned address in the tile store completes: the `n` bytes at sB + IMM16 become the low bytes of sA, the
lowest at the lowest address, and every other byte of the store keeps its value; no register changes but PC and the
counters of a retired slot, and SOLV_READY, whose ready bits a store into a descriptor clears (R322). Nothing outside the tile changes. -/
def Sys2Proof.Claims.StoreResults : Prop :=
  ∀ (s : State) (i : Instr) (t : TileIx) (f : FI) (n : Nat),
    Claims.storeForm i = some (t, f, n) →
    let T := s.tile t
    let a := (Claims.accessAddr T f).toNat
    Claims.Dispatches T [f.a.toNat, f.b.toNat] → fetchable (T.pc + 4) →
    a % n = 0 → a + n ≤ 0x300000 → T.waits a n true = false →
    ∃ u T', exec i s = .next u ∧ OnlyTile s t u T' ∧
      (∀ k, k < n → memByte T'.store (a + k) = BitVec.ofNat 8 ((T.sreg f.a.toNat).toNat / 256 ^ k)) ∧
      (∀ x, x < a ∨ a + n ≤ x → memByte T'.store x = memByte T.store x) ∧
      T'.pc = T.pc + 4 ∧
      (∀ r, T'.sreg r = T.sreg r) ∧ (∀ r, T'.vreg r = T.vreg r) ∧ (∀ r, T'.kreg r = T.kreg r) ∧ (∀ r, T'.dreg r = T.dreg r) ∧
      (∀ x, x ∉ F.SOLV_READY_READY.reg :: retireRegs 1 → T'.ctlWord x = T.ctlWord x) ∧
      T'.lacc = T.lacc ∧ T'.root0 = T.root0 ∧ T'.root1 = T.root1 ∧ T'.mq = T.mq ∧ T'.cq = T.cq ∧ T'.xq = T.xq ∧
      T'.reqs = T.reqs ∧ T'.resv = T.resv

namespace Sys2Proof.Claims

/-- R117: the branches, and when each is taken. -/
def branchTaken : Instr → Option (TileIx × FI × (Word → Word → Prop))
  | .beq t f => some (t, f, fun a b => a = b)
  | .bne t f => some (t, f, fun a b => a ≠ b)
  | .blt t f => some (t, f, fun a b => a.toInt < b.toInt)
  | .bge t f => some (t, f, fun a b => b.toInt ≤ a.toInt)
  | .bltu t f => some (t, f, fun a b => a.toNat < b.toNat)
  | .bgeu t f => some (t, f, fun a b => b.toNat ≤ a.toNat)
  | _ => none

/-- PC + IMM × 4, modulo 2^64. -/
def target (T : Tile) (imm : Int) : Word := BitVec.ofInt 64 (T.pc.toInt + 4 * imm)

end Sys2Proof.Claims

/-- A conditional branch goes to PC + IMM16 × 4 where its comparison of sA with sB holds, else to PC + 4, and changes
nothing else. -/
def Sys2Proof.Claims.BranchResults : Prop :=
  ∀ (s : State) (i : Instr) (t : TileIx) (f : FI) (taken : Word → Word → Prop),
    Claims.branchTaken i = some (t, f, taken) →
    let T := s.tile t
    Claims.Dispatches T [f.a.toNat, f.b.toNat] →
    (taken (T.sreg f.a.toNat) (T.sreg f.b.toNat) → fetchable (Claims.target T f.imm.toInt) →
      ∃ u T', exec i s = .next u ∧ OnlyTile s t u T' ∧ Tile.Retired T T' 1 (Claims.target T f.imm.toInt)) ∧
    (¬ taken (T.sreg f.a.toNat) (T.sreg f.b.toNat) → fetchable (T.pc + 4) →
      ∃ u T', exec i s = .next u ∧ OnlyTile s t u T' ∧ Tile.Retired T T' 1 (T.pc + 4))

/-- `jal` and `jalr` write PC + 4 to sA and go to PC + IMM21 × 4 or to sB + IMM16, sB read before sA is written. -/
def Sys2Proof.Claims.JumpResults : Prop :=
  (∀ (s : State) (t : TileIx) (f : FL),
    let T := s.tile t
    Claims.Dispatches T [f.a.toNat] → fetchable (Claims.target T f.imm.toInt) →
    ∃ u T', exec (.jal t f) s = .next u ∧ OnlyTile s t u T' ∧
      Tile.Retired (T.setS f.a.toNat (T.pc + 4)) T' 1 (Claims.target T f.imm.toInt)) ∧
  (∀ (s : State) (t : TileIx) (f : FI),
    let T := s.tile t
    Claims.Dispatches T [f.a.toNat, f.b.toNat] → fetchable (Claims.accessAddr T f) →
    ∃ u T', exec (.jalr t f) s = .next u ∧ OnlyTile s t u T' ∧
      Tile.Retired (T.setS f.a.toNat (T.pc + 4)) T' 1 (Claims.accessAddr T f))

/-- `dld` and `kld` fill dA and kA with the 64 bytes at sB, and `dst` and `kst` store them there; a load of k0 changes no
register and a store of k0 stores all ones. -/
def Sys2Proof.Claims.TransferResults : Prop :=
  ∀ (s : State) (t : TileIx) (f : F3),
    let T := s.tile t
    let a := (T.sreg f.b.toNat).toNat
    f.c = 0 → f.k = 0 → Claims.Dispatches T [f.b.toNat] → fetchable (T.pc + 4) → a % 64 = 0 → a + 64 ≤ 0x300000 →
    (f.a.toNat < 16 → T.waits a 64 false = false → T.hasUE a 64 = false →
      ∃ u T', exec (.dld t f) s = .next u ∧ OnlyTile s t u T' ∧
        Tile.Retired (T.setD f.a.toNat (BitVec.ofNat 512 (Claims.littleEndian T.store a 64))) T' 1 (T.pc + 4)) ∧
    (f.a.toNat < 8 → T.waits a 64 false = false → T.hasUE a 64 = false →
      ∃ u T', exec (.kld t f) s = .next u ∧ OnlyTile s t u T' ∧
        Tile.Retired (T.setK f.a.toNat (BitVec.ofNat 512 (Claims.littleEndian T.store a 64))) T' 1 (T.pc + 4)) ∧
    (f.a.toNat < 16 → T.waits a 64 true = false →
      ∃ u T', exec (.dst t f) s = .next u ∧ OnlyTile s t u T' ∧ T'.pc = T.pc + 4 ∧
        (∀ x, memByte T'.store x = if a ≤ x ∧ x < a + 64 then BitVec.ofNat 8 ((T.dreg f.a.toNat).toNat / 256 ^ (x - a))
          else memByte T.store x) ∧
        (∀ r, T'.sreg r = T.sreg r) ∧ (∀ r, T'.vreg r = T.vreg r) ∧ (∀ r, T'.kreg r = T.kreg r) ∧ (∀ r, T'.dreg r = T.dreg r)) ∧
    (f.a.toNat < 8 → T.waits a 64 true = false →
      ∃ u T', exec (.kst t f) s = .next u ∧ OnlyTile s t u T' ∧ T'.pc = T.pc + 4 ∧
        (∀ x, memByte T'.store x = if a ≤ x ∧ x < a + 64 then
            (if f.a = 0 then 0xFF else BitVec.ofNat 8 ((T.kreg f.a.toNat).toNat / 256 ^ (x - a)))
          else memByte T.store x) ∧
        (∀ r, T'.sreg r = T.sreg r) ∧ (∀ r, T'.vreg r = T.vreg r) ∧ (∀ r, T'.kreg r = T.kreg r) ∧ (∀ r, T'.dreg r = T.dreg r))

/-- A squash wastes the slots of the squashed instructions where TILE_CFG.SPEC_EN is 1, and changes no other register, no memory
and no queue; with SPEC_EN 0 nothing has been dispatched ahead and it changes nothing. -/
def Sys2Proof.Claims.SquashCountsWastedSlots : Prop :=
  ∀ (s : State) (t : TileIx) (nS nM nC nX : BitVec 6),
    let T := s.tile t
    ∃ u T', exec (.squash t nS nM nC nX) s = .next u ∧ OnlyTile s t u T' ∧
      (T.fld F.TILE_CFG_SPEC_EN = 0 → T' = T) ∧
      T' = { T with ctl := T'.ctl, skid := T'.skid } ∧
      (∀ (q : Nat) (n : BitVec 6), (q, n) ∈ [(1, nS), (2, nM), (3, nC), (4, nX)] → T.fld F.TILE_CFG_SPEC_EN ≠ 0 →
        T'.fld (wasteFld q) = (T.fld (wasteFld q) + n.toNat) % 2 ^ 56) ∧
      (∀ a, a ∉ [1, 2, 3, 4].map (fun q => (wasteFld q).reg) → a ≠ F.SLOT_HANDLER_COUNT.reg → T'.ctlWord a = T.ctlWord a)


/-! ## Exceptions -/

namespace Sys2Proof.Claims

/-- The control registers that taking an exception writes (R140). -/
def exceptionRegs : List Nat :=
  [F.TILE_STATUS_MODE.reg, F.EXC_CAUSE_CODE.reg, F.EXC_PC_PC.reg, F.EXC_QPC_QPC.reg, F.EXC_INFO_INFO.reg]

/-- `T'` is `T` after taking an exception with these contents of the EXC registers (R140): the M, C and X queues are frozen
in place, a live reservation is broken with status 3, the tile is in handler mode at EXC_VEC, and no other register and no byte
of the store has changed. `counted` are the counters that the slot of the instruction writes. -/
structure Entered (T T' : Tile) (code queue sub : Nat) (async : Bool) (pc qpc info : Word) (counted : List Nat) : Prop where
  mode : T'.fld F.TILE_STATUS_MODE = 1
  frozen : T'.fld F.TILE_STATUS_FROZEN = 7
  code : T'.fld F.EXC_CAUSE_CODE = code
  queue : T'.fld F.EXC_CAUSE_QUEUE = queue
  sub : T'.fld F.EXC_CAUSE_SUB = sub
  async : T'.fld F.EXC_CAUSE_ASYNC = if async then 1 else 0
  savedPc : T'.fld F.EXC_PC_PC = pc.toNat / 4
  savedQpc : T'.ctlWord F.EXC_QPC_QPC.reg = qpc
  info : T'.ctlWord F.EXC_INFO_INFO.reg = info
  vector : T'.pc = T.ctlWord F.EXC_VEC_VEC.reg
  reservation : T'.resv = T.resv.map (fun r => if r.dead then r else { r with broken := insertNat 3 r.broken })
  scalars : ∀ r, T'.sreg r = T.sreg r
  vectors : ∀ r, T'.vreg r = T.vreg r
  masks : ∀ r, T'.kreg r = T.kreg r
  descriptors : ∀ r, T'.dreg r = T.dreg r
  store : T'.store = T.store
  queues : T'.mq = T.mq ∧ T'.cq = T.cq ∧ T'.xq = T.xq ∧ T'.reqs = T.reqs
  accumulators : T'.lacc = T.lacc ∧ T'.root0 = T.root0 ∧ T'.root1 = T.root1
  others : ∀ a, a ∉ exceptionRegs ++ F.DBG_STATUS_HALTED.reg :: counted → T'.ctlWord a = T.ctlWord a

/-- `T'` is `T` stopped by a double fault (R144): only TILE_STATUS.DOUBLE, the counters of the slot and a mark for retirement differ, and
dispatch stands. -/
structure Doubled (T T' : Tile) (counted : List Nat) : Prop where
  double : T'.fld F.TILE_STATUS_DOUBLE = 1
  pc : T'.pc = T.pc
  stopped : ∀ regs, T'.ready regs = false
  others : ∀ a, a ∉ F.TILE_STATUS_MODE.reg :: F.DBG_STATUS_HALTED.reg :: counted → T'.ctlWord a = T.ctlWord a
  rest : T' = { T with ctl := T'.ctl, marked := T'.marked, stepping := T'.stepping, fresh := T'.fresh, skid := T'.skid }

/-- EXC_INFO of ILLEGAL for a base word (R142). -/
def wordInfo (w : Nat) : Word := BitVec.ofNat 64 w

/-- The synchronous causes that an S-queue instruction finds on its operands (R117, R118, R120, R142, R156): the scalar registers it
names, and cause, sub-code and EXC_INFO, where it raises one in a tile as it stands. -/
def cause (T : Tile) : Instr → Option (List Nat × Nat × Nat × Word)
  | .add _ f => if f.k ≠ 0 then some ([f.a.toNat, f.b.toNat, f.c.toNat], 1, 2, wordInfo (F3w f 1 0)) else none
  | .popc _ f => if f.k ≠ 0 ∨ f.c ≠ 0 then some ([f.a.toNat, f.b.toNat, f.c.toNat], 1, 2, wordInfo (F3w f 1 0x1A)) else none
  | .shli _ f => if 256 ≤ f.imm.toNat then some ([f.a.toNat, f.b.toNat], 1, 2, wordInfo (FIw f 6)) else none
  | .ld16 _ f =>
    let a := accessAddr T f
    if a.toNat % 2 ≠ 0 ∨ 0x300000 < a.toNat + 2 then some ([f.a.toNat, f.b.toNat], 3, 0, a) else none
  | .ld32 _ f =>
    let a := accessAddr T f
    if a.toNat % 4 ≠ 0 ∨ 0x300000 < a.toNat + 4 then some ([f.a.toNat, f.b.toNat], 3, 0, a) else none
  | .ld64 _ f =>
    let a := accessAddr T f
    if a.toNat % 8 ≠ 0 ∨ 0x300000 < a.toNat + 8 then some ([f.a.toNat, f.b.toNat], 3, 0, a) else none
  | .st64 _ f =>
    let a := accessAddr T f
    if (a.toNat % 8 ≠ 0 ∨ 0x300000 < a.toNat + 8) ∧ T.waits a.toNat 8 true = false then some ([f.a.toNat, f.b.toNat], 4, 0, a)
    else none
  | .ifence ⟨_, f⟩ => if f ≠ noF then some ([], 1, 2, wordInfo (F3w f 0x28 3)) else none
  | .wait ⟨_, f⟩ => if f ≠ noF then some ([], 1, 2, wordInfo (F3w f 0x28 5)) else none
  | .eret ⟨_, f⟩ =>
    if f ≠ noF then some ([], 1, 2, wordInfo (F3w f 0x28 6))
    else if T.fld F.TILE_STATUS_MODE = 0 then some ([], 1, 4, wordInfo (F3w f 0x28 6)) else none
  | _ => none

/-- The tile of a scalar instruction of the table above. -/
def tileOf : Instr → Nat
  | .add t _ | .popc t _ | .shli t _ | .ld16 t _ | .ld32 t _ | .ld64 t _ | .st64 t _ | .ifence ⟨t, _⟩ | .wait ⟨t, _⟩ | .eret ⟨t, _⟩ => t
  | _ => 0

/-- R118: the MINOR of each scalar ALU instruction. -/
def aluMinor : Instr → Option (TileIx × F3 × Nat)
  | .add t f => some (t, f, 0x00)
  | .sub t f => some (t, f, 0x01)
  | .and t f => some (t, f, 0x02)
  | .or t f => some (t, f, 0x03)
  | .xor t f => some (t, f, 0x04)
  | .shl t f => some (t, f, 0x05)
  | .shr t f => some (t, f, 0x06)
  | .sar t f => some (t, f, 0x07)
  | .slt t f => some (t, f, 0x08)
  | .sltu t f => some (t, f, 0x09)
  | .min t f => some (t, f, 0x0A)
  | .max t f => some (t, f, 0x0B)
  | .minu t f => some (t, f, 0x0C)
  | .maxu t f => some (t, f, 0x0D)
  | .mul t f => some (t, f, 0x10)
  | .mulh t f => some (t, f, 0x11)
  | .mulhu t f => some (t, f, 0x12)
  | .div t f => some (t, f, 0x14)
  | .divu t f => some (t, f, 0x15)
  | .rem t f => some (t, f, 0x16)
  | .remu t f => some (t, f, 0x17)
  | .clz t f => some (t, f, 0x18)
  | .ctz t f => some (t, f, 0x19)
  | .popc t f => some (t, f, 0x1A)
  | _ => none

/-- The MINORs that the tables of R118 and R120 list: those of the scalar ALU, MAJOR 0x01, and of the transfers, MAJOR 0x35. -/
def listedMinors : List (Nat × List Nat) :=
  [(0x01, List.range 14 ++ [0x10, 0x11, 0x12, 0x14, 0x15, 0x16, 0x17, 0x18, 0x19, 0x1A]), (0x35, [0, 1, 2, 3])]

/-- R120: the MINOR of each transfer, the number of registers of its file, and the cause of an address that it cannot use. -/
def transferForm : Instr → Option (TileIx × F3 × Nat × Nat × Nat)
  | .dld t f => some (t, f, 0, 16, 3)
  | .dst t f => some (t, f, 1, 16, 4)
  | .kld t f => some (t, f, 2, 8, 3)
  | .kst t f => some (t, f, 3, 8, 4)
  | _ => none

/-- Instruction `i` on tile `t` takes the exception of a synchronous cause: EXC_PC and EXC_QPC are its own address, its slot is wasted,
and it has no other effect; in handler mode it is a double fault. FENCED, due at the same boundary, is taken in its place (R143). -/
def TakesItsCause (s : State) (i : Instr) (t code sub : Nat) (info : Word) : Prop :=
  let T := s.tile t
  let counted := [(wasteFld 1).reg, F.SLOT_HANDLER_COUNT.reg]
  (T.fld F.TILE_STATUS_MODE = 0 → T.events.fenced = none →
    ∃ u T', exec i s = .next u ∧ OnlyTile s t u T' ∧ Entered T T' code 0 sub false T.pc T.pc info counted) ∧
  (∀ gen, T.fld F.TILE_STATUS_MODE = 0 → T.events.fenced = some gen →
    ∃ u T', exec i s = .next u ∧ OnlyTile s t u T' ∧ T'.events = { T.events with fenced := none } ∧
      Entered T T' 0x20 0 0 true T.pc T.pc (BitVec.ofNat 64 gen) []) ∧
  (T.fld F.TILE_STATUS_MODE = 1 → ∃ u T', exec i s = .next u ∧ OnlyTile s t u T' ∧ Doubled T T' counted)

end Sys2Proof.Claims

/-- An instruction that finds a synchronous cause takes the exception in user mode: EXC_PC and EXC_QPC are its own address,
EXC_INFO is the word or the address, and it has no other effect; its slot is wasted. FENCED, due at the same boundary, is taken in its
place. In handler mode it is a double fault. -/
def Sys2Proof.Claims.SynchronousCauses : Prop :=
  ∀ (s : State) (i : Instr) (regs : List Nat) (code sub : Nat) (info : Word),
    let T := s.tile (Claims.tileOf i)
    Claims.cause T i = some (regs, code, sub, info) → Claims.Dispatches T regs →
    Claims.TakesItsCause s i (Claims.tileOf i) code sub info

/-- The scalar ALU reserves K, and C of `clz`, `ctz` and `popc`: an instruction in which one is not 0 raises ILLEGAL, sub-code 2, with its
word in EXC_INFO. -/
def Sys2Proof.Claims.AluReservedFields : Prop :=
  ∀ (s : State) (i : Instr) (t : TileIx) (f : F3) (minor : Nat),
    Claims.aluMinor i = some (t, f, minor) → f.k ≠ 0 ∨ (0x18 ≤ minor ∧ f.c ≠ 0) →
    Claims.Dispatches (s.tile t) [f.a.toNat, f.b.toNat, f.c.toNat] →
    Claims.TakesItsCause s i t 1 2 (Claims.wordInfo (F3w f 1 minor))

/-- A word of MAJOR `major` whose MINOR the table of its class does not list is undefined: where it stands at the boundary it raises
ILLEGAL, sub-code 1, with the word in EXC_INFO. -/
def Sys2Proof.Claims.UndefinedMinors (major : Nat) : Prop :=
  ∀ (s : State) (t : TileIx) (a b c : BitVec 5) (k : BitVec 3) (minor : BitVec 8) (listed : List Nat),
    let T := s.tile t
    let w := packWord major a.toNat b.toNat c.toNat k.toNat minor.toNat
    (major, listed) ∈ Claims.listedMinors → minor.toNat ∉ listed → T.ready [] = true → T.fld F.TILE_STATUS_MODE = 0 →
    T.events.fenced = none → T.hasUE T.pc.toNat 4 = false →
    ∃ u T', exec (.asyncEventEntry ⟨t, some (BitVec.ofNat 64 w)⟩) s = .next u ∧ OnlyTile s t u T' ∧
      Claims.Entered T T' 1 0 1 false T.pc T.pc (Claims.wordInfo w) [(wasteFld 1).reg, F.SLOT_HANDLER_COUNT.reg]

/-- A transfer raises ILLEGAL, sub-code 2, for a C or K that is not 0, sub-code 3 for a register beyond its file, and LOAD_ADDR or STORE_ADDR
for an address that is not a multiple of 64 or reaches beyond the store. -/
def Sys2Proof.Claims.TransferCauses : Prop :=
  ∀ (s : State) (i : Instr) (t : TileIx) (f : F3) (minor n fault : Nat),
    let a := (s.tile t).sreg f.b.toNat
    Claims.transferForm i = some (t, f, minor, n, fault) → Claims.Dispatches (s.tile t) [f.b.toNat] →
    (f.c ≠ 0 ∨ f.k ≠ 0 → Claims.TakesItsCause s i t 1 2 (Claims.wordInfo (F3w f 0x35 minor))) ∧
    (f.c = 0 → f.k = 0 → n ≤ f.a.toNat → Claims.TakesItsCause s i t 1 3 (Claims.wordInfo (F3w f 0x35 minor))) ∧
    (f.c = 0 → f.k = 0 → f.a.toNat < n → a.toNat % 64 ≠ 0 ∨ 0x300000 < a.toNat + 64 →
      Claims.TakesItsCause s i t fault 0 a)

/-- A fetch finds FETCH where an extended form would cross the end of the store, and TSTORE_ECC where a word holds an
uncorrectable error; a tile that finds the latter is marked for retirement. Here for `mv.recv`, of 8 bytes, and `add`, whose word is
4 bytes. -/
def Sys2Proof.Claims.FetchCauses : Prop :=
  ∀ (s : State) (t : TileIx) (f : F3),
    let T := s.tile t
    let counted := [(wasteFld 1).reg, F.SLOT_HANDLER_COUNT.reg]
    T.ready [f.a.toNat, f.b.toNat, f.c.toNat] = true → T.fld F.TILE_STATUS_MODE = 0 → T.events.fenced = none →
    (0x300000 < T.pc.toNat + 8 → T.frozen 4 = false → (∀ x ∈ T.ue, x < T.pc.toNat ∨ T.pc.toNat + 8 ≤ x) →
      ∃ u T', exec (.mvRecv t ⟨f.a, f.b, f.c, 0, 0⟩) s = .next u ∧ OnlyTile s t u T' ∧
        Claims.Entered T T' 2 0 0 false T.pc T.pc T.pc [(wasteFld 4).reg, F.SLOT_HANDLER_COUNT.reg] ∧ T'.marked = T.marked) ∧
    (∀ x ∈ T.ue, T.pc.toNat ≤ x → x < T.pc.toNat + 4 →
      ∃ u T' a, exec (.add t f) s = .next u ∧ OnlyTile s t u T' ∧ T'.marked = true ∧ a ∈ T.ue ∧ T.pc.toNat ≤ a ∧ a < T.pc.toNat + 4 ∧
        Claims.Entered T T' 6 0 0 false T.pc T.pc (BitVec.ofNat 64 a) counted)

/-- `trap` raises TRAP with CODE in EXC_INFO. For work that a RUN has placed, the firmware acts further on it: CODE 0 lets the
frozen queues run and ends the tile's part once its work is done, and another CODE enters a nonzero TRAP_VEC in user mode with s2 set to CODE
and s3 to EXC_PC + 4. -/
def Sys2Proof.Claims.TrapTakesItsException : Prop :=
  ∀ (s : State) (t : TileIx) (f : F3),
    let T := s.tile t
    let counted := [(wasteFld 1).reg, F.SLOT_HANDLER_COUNT.reg]
    let vec := fun (w : Nat × Nat) => ((s.queue w.1 w.2).word 7) % 2 ^ 22
    f.b = 0 → f.c = 0 → f.k = 0 → Claims.Dispatches T [] →
    (T.fld F.TILE_STATUS_MODE = 0 → T.events.fenced = none → T.work = none ∨ (f.a ≠ 0 ∧ ∃ w, T.work = some w ∧ vec w = 0) →
      ∃ u T', exec (.trap t f) s = .next u ∧ OnlyTile s t u T' ∧
        Claims.Entered T T' 8 0 0 false T.pc T.pc (BitVec.ofNat 64 f.a.toNat) counted) ∧
    (∀ w, T.fld F.TILE_STATUS_MODE = 0 → T.events.fenced = none → T.work = some w → f.a = 0 →
      ∃ v R, exec (.trap t f) s = .next ((v.advance t).endPart t) ∧ OnlyTile s t v R ∧ R.ending = true ∧
        R.fld F.TILE_STATUS_FROZEN = 0 ∧ R.fld F.TILE_STATUS_MODE = 1 ∧ R.fld F.EXC_CAUSE_CODE = 8) ∧
    (∀ w, T.fld F.TILE_STATUS_MODE = 0 → T.work = some w → f.a ≠ 0 → vec w ≠ 0 → vec w % 4 = 0 → vec w + 4 ≤ 0x300000 →
      T.events.fenced = none → T.pc.toNat % 4 = 0 →
      (T.ctlWord F.EXC_PC_PC.reg).toNat % 4 = 0 →
      ∃ v R, exec (.trap t f) s = .next (v.advance t) ∧ OnlyTile s t v R ∧ R.pc = BitVec.ofNat 64 (vec w) ∧
        R.fld F.TILE_STATUS_MODE = 0 ∧ R.fld F.TILE_STATUS_FROZEN = 0 ∧ R.sreg 2 = BitVec.ofNat 64 f.a.toNat ∧
        R.sreg 3 = T.pc + 4 ∧ ∀ r, r ≠ 2 → r ≠ 3 → R.sreg r = T.sreg r) ∧
    (T.fld F.TILE_STATUS_MODE = 1 →
      ∃ u T', exec (.trap t f) s = .next u ∧ OnlyTile s t u T' ∧ Claims.Doubled T T' counted)

/-- `eret` in handler mode. With FENCED pending the tile does not return: it takes FENCED, with EXC_PC where it would have
resumed. Else the queues unfreeze, DISCARD clears, user mode returns and dispatch goes on at EXC_PC; the queue of X
instructions then goes on. -/
def Sys2Proof.Claims.EretReturns : Prop :=
  ∀ (s : State) (t : TileIx),
    let T := s.tile t
    Claims.Dispatches T [] → T.fld F.TILE_STATUS_MODE = 1 →
    (T.events.fenced = none → fetchable (T.ctlWord F.EXC_PC_PC.reg) →
      ∃ v R, exec (.eret ⟨t, Claims.noF⟩) s = .next ((v.advance t).onTile t Tile.afterStep) ∧ OnlyTile s t v R ∧
        R.pc = T.ctlWord F.EXC_PC_PC.reg ∧ R.fld F.TILE_STATUS_MODE = 0 ∧ R.fld F.TILE_STATUS_FROZEN = 0 ∧
        R.fld F.EXC_CAUSE_DISCARD = 0 ∧ R.fld F.EXC_CAUSE_CODE = T.fld F.EXC_CAUSE_CODE ∧
        (∀ a, a ∉ [F.TILE_STATUS_MODE.reg, F.EXC_CAUSE_CODE.reg, (retFld 1).reg, F.SLOT_HANDLER_COUNT.reg] →
          R.ctlWord a = T.ctlWord a) ∧
        R = { T with ctl := R.ctl, pc := R.pc, skid := R.skid }) ∧
    (∀ gen, T.events.fenced = some gen →
      ∃ u T', exec (.eret ⟨t, Claims.noF⟩) s = .next u ∧ OnlyTile s t u T' ∧ T'.events.fenced = none ∧ T'.fld F.EXC_CAUSE_DISCARD = 0 ∧
        Claims.Entered T T' 0x20 0 0 true (T.ctlWord F.EXC_PC_PC.reg) (T.ctlWord F.EXC_PC_PC.reg) (BitVec.ofNat 64 gen)
          [(retFld 1).reg, F.SLOT_HANDLER_COUNT.reg])

/-- At a boundary of dispatch in user mode the first of FENCED, TILE_MSG and SAMPLE that is pending is taken, SAMPLE with its skid
recorded; the others stay pending. Where the boundary lies before a word that the opcode tables leave undefined and no FENCED is
pending, ILLEGAL is taken with sub-code 0 for its MAJOR and 1 for its MINOR, and its slot is wasted. -/
def Obligations.AsynchronousEventsInOrder : Prop :=
  (∀ (s : State) (t : TileIx) (w : BitVec 64) (sub : Nat),
    let T := s.tile t
    let w0 := w.toNat % 2 ^ 32
    let w1 := w.toNat / 2 ^ 32
    let len := if w0 / 2 ^ 26 ∈ [0x30, 0x32, 0x34] then 8 else 4
    undefinedSub w0 w1 = some sub → T.ready [] = true → T.fld F.TILE_STATUS_MODE = 0 → T.events.fenced = none →
    T.hasUE T.pc.toNat len = false →
    ∃ u T', exec (.asyncEventEntry ⟨t, some w⟩) s = .next u ∧ OnlyTile s t u T' ∧
      Claims.Entered T T' 1 0 sub false T.pc T.pc (BitVec.ofNat 64 (if len = 8 then w.toNat else w0))
        [(wasteFld 1).reg, F.SLOT_HANDLER_COUNT.reg]) ∧
  ∀ (s : State) (t : TileIx) (w : Option (BitVec 64)),
    let T := s.tile t
    (∀ x, w = some x → undefinedSub (x.toNat % 2 ^ 32) (x.toNat / 2 ^ 32) = none) →
    T.takesEvents = true → T.stepping = false →
    (∀ gen, T.events.fenced = some gen →
      ∃ u T', exec (.asyncEventEntry ⟨t, w⟩) s = .next u ∧ OnlyTile s t u T' ∧ T'.events = { T.events with fenced := none } ∧
        Claims.Entered T T' 0x20 0 0 true T.pc T.pc (BitVec.ofNat 64 gen) []) ∧
    (∀ src, T.events.fenced = none → T.events.msg = some src →
      ∃ u T', exec (.asyncEventEntry ⟨t, w⟩) s = .next u ∧ OnlyTile s t u T' ∧ T'.events = { T.events with msg := none } ∧
        Claims.Entered T T' 0x22 0 0 true T.pc T.pc (BitVec.ofNat 64 src) []) ∧
    (T.events.fenced = none → T.events.msg = none → T.events.sample = true → T.skid ≤ 8 →
      ∃ u T', exec (.asyncEventEntry ⟨t, w⟩) s = .next u ∧ OnlyTile s t u T' ∧ T'.events = { T.events with sample := false } ∧
        T'.fld F.SAMPLE_STATUS_SKID = (if T.skid = 8 then 0 else T.skid) ∧
        Claims.Entered T T' 0x21 0 0 true T.pc T.pc T.pc [F.SAMPLE_STATUS_SKID.reg])

/-! ## Barriers, sleep and the control space -/

/-- `ifence` completes; `tsync` in user mode completes at once where every queue that it names is done, and else waits for
them and changes nothing else, until it is confirmed again once they are done; `twait` completes at once where its target has been reached, and else holds dispatch until
TWAIT_RELEASE finds it reached. -/
def Sys2Proof.Claims.BarrierResults : Prop :=
  ∀ (s : State) (t : TileIx),
    let T := s.tile t
    (Claims.Dispatches T [] → fetchable (T.pc + 4) →
      ∃ u T', exec (.ifence ⟨t, Claims.noF⟩) s = .next u ∧ OnlyTile s t u T' ∧ Tile.Retired T T' 1 (T.pc + 4)) ∧
    (∀ f : F3, f.b = 0 → f.c = 0 → f.k = 0 → 0 < f.a.toNat → f.a.toNat < 8 → T.fld F.TILE_STATUS_MODE = 0 → Claims.Dispatches T [] →
      ((∀ q ∈ [2, 3, 4], f.a.getLsbD (q - 2) = true → T.queueDone q = true) → fetchable (T.pc + 4) →
        ∃ u T', exec (.tsync t f) s = .next u ∧ OnlyTile s t u T' ∧ Tile.Retired T T' 1 (T.pc + 4)) ∧
      (¬ (∀ q ∈ [2, 3, 4], f.a.getLsbD (q - 2) = true → T.queueDone q = true) →
        exec (.tsync t f) s = .next (s.setTile t { T with barrier := .tsync f.a.toNat }))) ∧
    (∀ (f : F3) (m : Nat), T.barrier = .tsync m → (∀ q ∈ [2, 3, 4], m.testBit (q - 2) = true → T.queueDone q = true) →
      Tile.ready { T with barrier := .none } [] = true → fetchable (T.pc + 4) →
      ∃ u T', exec (.tsync t f) s = .next u ∧ OnlyTile s t u T' ∧
        Tile.Retired { T with barrier := .none, dozing := false } T' 1 (T.pc + 4)) ∧
    (∀ f : FI, f.a = 0 → f.imm.toNat < 3 → Claims.Dispatches T [f.b.toNat] →
      let target := (T.sreg f.b.toNat).toNat * [1, 256, 1048576].getD f.imm.toNat 1
      target / 1048576 ≤ s.owl.ns / 1048576 + T.fld F.TILE_CFG_TWAIT_MAX →
      (T.reached s.owl.ns target = true → fetchable (T.pc + 4) →
        ∃ u T', exec (.twait t f) s = .next u ∧ OnlyTile s t u T' ∧ Tile.Retired T T' 1 (T.pc + 4)) ∧
      (T.reached s.owl.ns target = false →
        exec (.twait t f) s = .next (s.setTile t { T with barrier := .twait target }))) ∧
    (∀ target, T.barrier = .twait target → T.reached s.owl.ns target = true →
      Tile.ready { T with barrier := .none, fresh := true } [] = true → fetchable (T.pc + 4) →
      ∃ u T', exec (.twaitRelease t) s = .next u ∧ OnlyTile s t u T' ∧
        Tile.Retired { T with barrier := .none, dozing := false } T' 1 (T.pc + 4))

/-- The first tile cycle that starts at or after a target tick: tile cycle c starts at hall tick 4 c / m, m being MULT
of CLK_EPOCH, so the target has been reached from the tick in which that cycle starts, before the next tick begins. -/
def Sys2Proof.Claims.TwaitReleasesAtACycleStart : Prop :=
  ∀ (T : Tile) (ns target : Nat),
    (T.reached ns target = true ↔
      ∃ c, target * T.fld F.CLK_EPOCH_MULT ≤ 4 * c ∧ 4 * c < (ns + 1) * T.fld F.CLK_EPOCH_MULT)

/-- `wait` outside handler mode, with no event pending, breaks a live reservation with status 3 and puts the tile in Doze's
waiting; in handler mode with SLEEPCFG.STATE 1 it starts Den prepare, or completes with SOURCE 6 where the alarm is less than
4,096 ticks away. The commit phase of Den holds the pads, stops the clock and switches the tile off. -/
def Sys2Proof.Claims.SleepEntry : Prop :=
  ∀ (s : State) (t : TileIx),
    let T := s.tile t
    (Claims.Dispatches T [] → T.stepping = false →
      (T.fld F.TILE_STATUS_MODE = 0 → T.events.fenced = none → T.events.msg = none → T.events.sample = false →
        exec (.wait ⟨t, Claims.noF⟩) s = .next (s.setTile t { T.breakResv 3 with barrier := .wait, dozing := true })) ∧
      (T.fld F.TILE_STATUS_MODE = 1 → T.fld F.SLEEPCFG_STATE = 1 → T.fld F.SLEEPCFG_ALARM_EN = 1 →
        T.fld F.DEN_WAKE_AT_BEAT * 256 < s.owl.ns + 4096 → fetchable (T.pc + 4) →
        ∃ u T', exec (.wait ⟨t, Claims.noF⟩) s = .next u ∧ OnlyTile s t u T' ∧ T'.fld F.WAKE_SOURCE_SOURCE = 6 ∧ T'.pc = T.pc + 4 ∧ T'.power = T.power) ∧
      (T.fld F.TILE_STATUS_MODE = 1 → T.fld F.SLEEPCFG_STATE = 1 → T.fld F.SLEEPCFG_ALARM_EN = 0 →
        (T.xq ≠ [] ∨ T.reqs ≠ []) →
        exec (.wait ⟨t, Claims.noF⟩) s = .next (s.setTile t { T.breakResv 3 with barrier := .wait, den := some ⟨0, s.owl.ns⟩ }))) ∧
    (∀ since, T.den = some ⟨4, since⟩ →
      ∃ u T', exec (.denCommit t) s = .next u ∧ OnlyTile s t u T' ∧ T'.power = .den ∧ T'.padsHeld = true ∧ T'.den = none ∧
        T'.fld F.PAD_RELEASE_HELD = 1 ∧ T'.sleepFrom = some (s.owl.ns, T'.nominal s.owl.ns) ∧
        (∀ r, T'.sreg r = T.sreg r) ∧ T'.store = T.store ∧ T'.pc = T.pc) ∧
    (∀ d, T.den = some d → d.unit = 0 → (T.xq ≠ [] ∨ T.reqs ≠ []) → d.since + 4096 ≤ s.owl.ns → T.barrier = .wait → fetchable (T.pc + 4) →
      ∃ u T', exec (.denPrepareTimeout t) s = .next u ∧ OnlyTile s t u T' ∧ T'.den = none ∧ T'.barrier = .none ∧ T'.pc = T.pc + 4 ∧
        T'.fld F.WAKE_SOURCE_SOURCE = 9 ∧ T'.fld F.WAKE_SOURCE_STATE = 2 ∧ T'.fld F.WAKE_SOURCE_CAUSE = 1 ∧ T'.fld F.WAKE_SOURCE_UNIT = 0)

namespace Sys2Proof.Claims

/-- R148: may this mode read or write a control address? -/
def allowed (handler write : Bool) (a : Nat) : Bool :=
  match a / 1024 with
  | 0 => true
  | 1 => !write || handler
  | 2 => handler
  | _ => false

/-- The registers that count tile time: TIME_NOW_NS, TIME_NOW_FRAC and CYCLE_COUNT (R63). -/
def clockRegs : List Nat := [0x400, 0x401, 0x408]

/-- The instructions that write the control space, and the value that each writes from the old value and sB (R147). -/
def csrWrites : Instr → Option (TileIx × FI × (Word → Word → Word))
  | .csrw t f => some (t, f, fun _ b => b)
  | .csrs t f => some (t, f, fun o b => o ||| b)
  | .csrc t f => some (t, f, fun o b => o &&& ~~~b)
  | _ => none

end Sys2Proof.Claims

/-- `csrr` writes the register to sA; of a register that counts tile time, what it reads in one of the tile cycles of the tick.
`csrw`, `csrs` and `csrc` write the old value to sA, and the register takes the new
value as one write; a register whose 64 bits are one RW field, as EXC_SAVE0 and EXC_SAVE1 are, then holds it. -/
def Obligations.ControlSpaceResults : Prop :=
  (∀ (s : State) (t : TileIx) (f : FI),
    let T := s.tile t
    let a := f.imm.toNat % 4096
    Claims.allowed (T.fld F.TILE_STATUS_MODE == 1) false a = true → (findReg tileRegs a).isSome = true → f.b = 0 →
    f.imm.toNat < 0x4000 → Claims.Dispatches T [f.a.toNat, f.b.toNat] → fetchable (T.pc + 4) →
    (a ∉ Claims.clockRegs →
      ∃ u T', exec (.csrr t f) s = .next u ∧ OnlyTile s t u T' ∧ Tile.Retired (T.setS f.a.toNat (s.readCtl t a)) T' 1 (T.pc + 4)) ∧
    (a ∈ Claims.clockRegs →
      ∃ u T' late, exec (.csrr t f) s = .next u ∧ OnlyTile { s with free := u.free } t u T' ∧
        Tile.Retired ({ T with lateAt := T'.lateAt }.setS f.a.toNat (s.readCtlAt late t a)) T' 1 (T.pc + 4))) ∧
  (∀ (s : State) (i : Instr) (t : TileIx) (f : FI) (new : Word → Word → Word),
    Claims.csrWrites i = some (t, f, new) →
    let T := s.tile t
    let a := f.imm.toNat % 4096
    Claims.allowed (T.fld F.TILE_STATUS_MODE == 1) true a = true → (findReg tileRegs a).isSome = true → T.ctlHeld a = false →
    f.imm.toNat < 0x4000 → a ∉ Claims.clockRegs →
    Claims.Dispatches T [f.a.toNat, f.b.toNat] → fetchable (T.pc + 4) →
    let u := s.writeCtl t a (new (s.readCtl t a) (T.sreg f.b.toNat)).toNat 0
    (∃ v T', exec i s = .next v ∧ OnlyTile u t v T' ∧
      Tile.Retired ((u.tile t).setS f.a.toNat (s.readCtl t a)) T' 1 (T.pc + 4)) ∧
    (a = F.EXC_SAVE0_SAVE.reg ∨ a = F.EXC_SAVE1_SAVE.reg →
      ∃ u T', exec i s = .next u ∧ OnlyTile s t u T' ∧ T'.ctlWord a = new (T.ctlWord a) (T.sreg f.b.toNat) ∧
        (∀ r, T'.sreg r = if r = f.a.toNat ∧ r ≠ 0 then T.ctlWord a else T.sreg r) ∧
        (∀ x, x ∉ a :: retireRegs 1 → T'.ctlWord x = T.ctlWord x) ∧ T'.store = T.store ∧ T'.pc = T.pc + 4))

/-- A control access outside the permissions of R148 raises ILLEGAL with sub-code 4, one to an address that no chapter
assigns raises it with sub-code 5, one whose operation is undefined raises it with sub-code 1, and none reads or writes anything. -/
def Sys2Proof.Claims.ControlSpacePermissions : Prop :=
  ∀ (s : State) (t : TileIx) (f : FI) (i : Instr) (write : Bool),
    (i = .csrr t f ∧ write = false ∧ f.b = 0) ∨ (write = true ∧ (i = .csrw t f ∨ i = .csrs t f ∨ i = .csrc t f)) →
    let T := s.tile t
    let a := f.imm.toNat % 4096
    T.fld F.TILE_STATUS_MODE = 0 → T.events.fenced = none → Claims.Dispatches T [f.a.toNat, f.b.toNat] →
    (0x4000 ≤ f.imm.toNat ∨ Claims.allowed false write a = false ∨ (findReg tileRegs a).isSome = false) →
    ∃ u T', exec i s = .next u ∧ OnlyTile s t u T' ∧
      Claims.Entered T T' 1 0 (if 0x4000 ≤ f.imm.toNat then 1 else if Claims.allowed false write a then 5 else 4) false T.pc T.pc
        (Claims.wordInfo (FIw f 0x2A)) [(wasteFld 1).reg, F.SLOT_HANDLER_COUNT.reg]


/-! ## The X queue -/

namespace Sys2Proof.Claims

/-- An X instruction as it is dispatched: its tile, its bytes, the scalar registers that it reads and the one that it
will write, whether every reserved field and value is as R119, R126, R132, R269, R389, R454 and R458 ask, and its entry of the queue. -/
structure XForm where
  t : Nat
  len : Nat
  reads : List Nat
  dest : Nat
  good : Bool
  entry : Tile → QEntry

/-- The entry of an atomic: the address in sB and the operand in sC, as they stand at dispatch. -/
def atomicForm (t : TileIx) (f : F3) (good : Bool) (i : Instr) : XForm :=
  ⟨t, 4, [f.b.toNat, f.c.toNat], f.a.toNat, f.k == 0 && good,
    fun T => { instr := i, pc := T.pc, sa := 0, sb := T.sreg f.b.toNat, sc := T.sreg f.c.toNat, desc := 0, age := T.ages }⟩

/-- The entry of a movement instruction: sB, sC and, for a stream, the register that names the descriptor. -/
def moveForm (t : TileIx) (f : FX) (desc : List Nat) (good : Bool) (i : Instr) : XForm :=
  ⟨t, 8, [f.b.toNat, f.c.toNat] ++ desc, f.a.toNat,
    f.k.toNat < 3 && good && (f.w1.getLsbD 12 || f.w1.toNat % 4096 == 0),
    fun T => { instr := i, pc := T.pc, sa := 0, sb := T.sreg f.b.toNat, sc := (desc.map T.sreg).headD 0,
               desc := BitVec.ofNat 512 ((T.sreg f.c.toNat).toNat * 2 ^ 64), age := T.ages }⟩

/-- The X instructions. -/
def xForm : Instr → Option XForm
  | .fence ⟨t, f⟩ => some ⟨t, 4, [], 0, f == noF,
      fun T => { instr := .fence ⟨t, f⟩, pc := T.pc, sa := 0, sb := 0, sc := 0, desc := 0, age := T.ages }⟩
  | .hold t f => some (atomicForm t f (f.c == 0) (.hold t f))
  | .commit t f => some (atomicForm t f true (.commit t f))
  | .amoadd t f => some (atomicForm t f true (.amoadd t f))
  | .amoand t f => some (atomicForm t f true (.amoand t f))
  | .amoor t f => some (atomicForm t f true (.amoor t f))
  | .amoxor t f => some (atomicForm t f true (.amoxor t f))
  | .amomin t f => some (atomicForm t f true (.amomin t f))
  | .amomax t f => some (atomicForm t f true (.amomax t f))
  | .amominu t f => some (atomicForm t f true (.amominu t f))
  | .amomaxu t f => some (atomicForm t f true (.amomaxu t f))
  | .amoswap t f => some (atomicForm t f true (.amoswap t f))
  | .amofadd64 t f => some (atomicForm t f true (.amofadd64 t f))
  | .amofadd32 t f => some (atomicForm t f true (.amofadd32 t f))
  | .mvDma t f => some (moveForm t f [] (f.k == 0 && !f.w1.getLsbD 14 && f.w1.toNat / 2 ^ 15 != 0) (.mvDma t f))
  | .mvStream t f => some (moveForm t f [f.w1.toNat / 2 ^ 13 % 32] (f.k != 0 && f.w1.toNat / 2 ^ 18 == 0) (.mvStream t f))
  | .mvSend t f => some (moveForm t f [] (f.k == 0 && !f.w1.getLsbD 19 && f.w1.toNat / 2 ^ 20 != 0) (.mvSend t f))
  | .mvRecv t f => some (moveForm t f [] (f.k == 0 && f.w1 == 0) (.mvRecv t f))
  | _ => none

/-- What the form of an atomic's address raises at dispatch (R133), for an address that a scalar register holds. -/
def addressCause (s : State) (t : Nat) (g : Word) (size : Nat) (float : Bool) : Option (Nat × Word) :=
  let n := g.toNat
  let space := n / 2 ^ 60
  let formBad :=
    match space with
    | 0 => n / 2 ^ 22 % 2 ^ 38 != 0 || decide (0x300000 ≤ n % 2 ^ 22)
    | 1 => decide (10800 ≤ n / 2 ^ 46 % 2 ^ 14) || n / 2 ^ 22 % 2 ^ 24 != 0 || decide (0x300000 ≤ n % 2 ^ 22)
    | 2 => formBad n
    | _ => true
  if formBad then some (5, g)
  else if n % size ≠ 0 then some (0x0C, g)
  else if float ∧ (s.ownerOfTile t).any (fun p => s.pf p F.PART_CFG_STRICT == 1) = true then some (0x0B, g)
  else none

/-- The atomics whose address is checked at dispatch: tile, fields, MINOR, size and whether they add floats. -/
def addressed : Instr → Option (TileIx × F3 × Nat × Bool)
  | .hold t f => if f.c = 0 then some (t, f, 8, false) else none
  | .commit t f => some (t, f, 8, false)
  | .amoadd t f | .amoand t f | .amoor t f | .amoxor t f | .amomin t f | .amomax t f | .amominu t f | .amomaxu t f
  | .amoswap t f => some (t, f, 8, false)
  | .amofadd64 t f => some (t, f, 8, true)
  | .amofadd32 t f => some (t, f, 4, true)
  | _ => none

end Sys2Proof.Claims

/-- An X instruction whose fields are in order and whose address raises nothing enters the X queue, where that and the range table
have room, with its operands captured; its destination register is awaited, its slot is retired and dispatch goes on behind it. The queue then launches what it can. -/
def Sys2Proof.Claims.XInstructionsEnterTheQueue : Prop :=
  ∀ (s : State) (i : Instr) (x : Claims.XForm),
    Claims.xForm i = some x → x.good = true →
    let T := s.tile x.t
    (∀ a, Claims.addressed i = some a → Claims.addressCause s a.1 (T.sreg a.2.1.b.toNat) a.2.2.1 a.2.2.2 = none) →
    T.ready (x.dest :: x.reads) = true → T.xq.length < 32 → T.tableRoom (xRanges T (x.entry T)) false = true →
    T.fetchFault x.len = none → T.frozen 4 = false →
    fetchable (T.pc + BitVec.ofNat 64 x.len) →
    ∃ v T', exec i s = .next (v.advance x.t) ∧ OnlyTile s x.t v T' ∧
      Tile.Retired { T with
        xq := T.xq ++ [x.entry T], ages := T.ages + 1, sWait := if x.dest = 0 then T.sWait else insertNat x.dest T.sWait } T' 4
        (T.pc + BitVec.ofNat 64 x.len)

/-- An atomic whose address has a reserved form raises GADDR; one that passes and is misaligned raises ATOMIC_ALIGN; a float
add under PART_CFG.STRICT raises FLOAT_ATOMIC_STRICT. Nothing is sent. -/
def Sys2Proof.Claims.AtomicAddressCauses : Prop :=
  ∀ (s : State) (i : Instr) (t : TileIx) (f : F3) (size : Nat) (float : Bool) (code : Nat) (info : Word),
    Claims.addressed i = some (t, f, size, float) → f.k = 0 →
    let T := s.tile t
    Claims.addressCause s t (T.sreg f.b.toNat) size float = some (code, info) →
    T.ready [f.a.toNat, f.b.toNat, f.c.toNat] = true → T.fetchFault 4 = none → T.frozen 4 = false →
    T.fld F.TILE_STATUS_MODE = 0 → T.events.fenced = none →
    ∃ u T', exec i s = .next u ∧ OnlyTile s t u T' ∧
      Claims.Entered T T' code 0 0 false T.pc T.pc info [(wasteFld 4).reg, F.SLOT_HANDLER_COUNT.reg]

/-! ## Atomics at their home -/

namespace Sys2Proof.Claims

/-- What an atomic leaves at its address, from the old value and sC (R132). -/
def atomicValue : Instr → Option (Nat → Nat → Nat)
  | .amoadd .. => some (fun old c => (old + c) % 2 ^ 64)
  | .amoand .. => some (fun old c => (BitVec.ofNat 64 old &&& BitVec.ofNat 64 c).toNat)
  | .amoor .. => some (fun old c => (BitVec.ofNat 64 old ||| BitVec.ofNat 64 c).toNat)
  | .amoxor .. => some (fun old c => (BitVec.ofNat 64 old ^^^ BitVec.ofNat 64 c).toNat)
  | .amomin .. => some (fun old c => if (BitVec.ofNat 64 c).toInt < (BitVec.ofNat 64 old).toInt then c else old)
  | .amomax .. => some (fun old c => if (BitVec.ofNat 64 old).toInt < (BitVec.ofNat 64 c).toInt then c else old)
  | .amominu .. => some (fun old c => if c < old then c else old)
  | .amomaxu .. => some (fun old c => if old < c then c else old)
  | .amoswap .. => some (fun _ c => c)
  | _ => none

/-- The request that a tile holds by a tag waits at a home in the store of tile `d`, which does not refuse it, whose turn it is
under STRICT (R588), and whose operand at local address `a` is sound. -/
structure AtHome (s : State) (t tag d a size : Nat) (r : XReq) : Prop where
  held : (s.tile t).req tag = some r
  piece : ∃ n, r.pieces = [n] ∧ n.dst = 2 ^ 60 + d * 2 ^ 46 + a ∧ n.size = size ∧ s.inOrder t tag r n.dst n.idx = true
  place : d < 2 ^ 14 ∧ a < 2 ^ 22
  unanswered : r.answer = none
  notWaiting : ((s.tile d).homes.get homeDflt (a / 64)).waiting.contains (t, tag) = false
  served : s.refusedAt t d = false
  sound : (s.tile d).hasUE a size = false

end Sys2Proof.Claims

/-- The home performs an integer atomic: the operand becomes the old value combined with sC, the request's answer is the old
value, and every byte of the home's store outside the operand keeps its value. -/
def Sys2Proof.Claims.AtomicsPerformedAtHome : Prop :=
  ∀ (s : State) (t : TileIx) (tag : BitVec 7) (err : LineErr) (d a : Nat) (r : XReq) (new : Nat → Nat → Nat),
    Claims.AtHome s t tag.toNat d a 8 r → r.kind = .atomic → Claims.atomicValue r.entry.instr = some new →
    let old := Claims.littleEndian (s.tile d).store a 8
    ∃ u, exec (.atomicAtHome t tag err) s = .next u ∧
      (u.tile t).req tag.toNat = some { r with answer := some (BitVec.ofNat 64 old) } ∧
      (∀ k, k < 8 → memByte (u.tile d).store (a + k) = BitVec.ofNat 8 (new old r.entry.sc.toNat / 256 ^ k)) ∧
      (∀ x, x < a ∨ a + 8 ≤ x → memByte (u.tile d).store x = memByte (s.tile d).store x) ∧
      (∀ t', t' ≠ t.val → t' ≠ d → u.tile t' = s.tile t') ∧ u.mem = s.mem ∧ u.host = s.host

/-- A `hold` on a line that carries no live reservation, and at whose home none waits, reads the operand and places its reservation; a
`commit` of a tile whose live reservation is on the line, with nothing against it, writes sC and answers 0, and one of a tile that holds no
reservation writes nothing and answers 4. Every `commit` ends the tile's reservation. -/
def Sys2Proof.Claims.HoldAndCommitAtHome : Prop :=
  ∀ (s : State) (t : TileIx) (tag : BitVec 7) (err : LineErr) (d a : Nat) (r : XReq),
    Claims.AtHome s t tag.toNat d a 8 r →
    let g := 2 ^ 60 + d * 2 ^ 46 + a
    let old := Claims.littleEndian (s.tile d).store a 8
    (r.kind = .hold → s.homeBusy g = false → (s.home g).waiting = [] →
      ∃ u, exec (.atomicAtHome t tag err) s = .next u ∧
        (u.tile t).req tag.toNat = some { r with answer := some (BitVec.ofNat 64 old), limit := 1 } ∧
        (u.home g).holder = some t.val ∧ (u.home g).status = 0 ∧ (u.tile d).store = (s.tile d).store) ∧
    (∀ v, r.kind = .commit → (s.tile t).resv = some v → v.key = g / 64 → v.dead = false → v.broken = [] →
      s.tileCycle t < v.start + 256 → (s.home g).holder = some t.val → (s.home g).status = 0 → s.fenced (s.ctxOfTile t) = false →
      ∃ u, exec (.atomicAtHome t tag err) s = .next u ∧
        (u.tile t).req tag.toNat = some { r with answer := some 0 } ∧ (u.tile t).resv = none ∧
        ((s.home g).waiting = [] → (u.home g).holder = none) ∧
        (∀ k, k < 8 → memByte (u.tile d).store (a + k) = BitVec.ofNat 8 (r.entry.sc.toNat / 256 ^ k)) ∧
        (∀ x, x < a ∨ a + 8 ≤ x → memByte (u.tile d).store x = memByte (s.tile d).store x)) ∧
    (r.kind = .commit → (s.tile t).resv = none → s.fenced (s.ctxOfTile t) = false →
      ∃ u, exec (.atomicAtHome t tag err) s = .next u ∧
        (u.tile t).req tag.toNat = some { r with answer := some 4 } ∧ (u.tile t).resv = none ∧
        (u.tile d).store = (s.tile d).store)

/-- `commit` reports the first status that applies in the order 7, 2, 3, 1, 5, 6, 4, and 0 where none does. -/
def Sys2Proof.Claims.CommitStatusOrder : Prop :=
  ∀ l : List Nat, (∀ c ∈ l, c ∈ [1, 2, 3, 4, 5, 6, 7]) →
    (firstStatus l = 0 ↔ l = []) ∧
    (l ≠ [] → firstStatus l ∈ l ∧ ∀ c ∈ l, [7, 2, 3, 1, 5, 6, 4].idxOf (firstStatus l) ≤ [7, 2, 3, 1, 5, 6, 4].idxOf c)

/-- The end of a reservation: it lapses 256 tile cycles after it started, a debug halt that waits for it breaks it 64 tile
cycles after the request and stops dispatch, and a `hold` that waits at the home of a line without a live reservation is then served. -/
def Sys2Proof.Claims.ReservationsEnd : Prop :=
  ∀ (s : State) (t : TileIx),
    let T := s.tile t
    (∀ r, T.resv = some r → r.broken = [] → r.dead = false → r.start + 256 ≤ s.tileCycle t →
      ∃ u T', exec (.reservationLapse t) s = .next u ∧ OnlyTile s t u T' ∧
        T' = { T with resv := some { r with broken := [5], dead := true } }) ∧
    (∀ c why, T.haltReq = some (c, why) → T.power = .on → s.resvLive t = true → c + 64 ≤ s.tileCycle t → why < 8 →
      ∃ u T', exec (.haltDeferExpiry t) s = .next u ∧ OnlyTile s t u T' ∧ T'.haltReq = none ∧
        T'.fld F.DBG_STATUS_STOPPING = 1 ∧ T'.fld F.DBG_STATUS_HALT_WHY = why ∧
        T'.resv = T.resv.map (fun r => if r.dead then r else { r with broken := insertNat 2 r.broken }) ∧ (∀ r, T'.sreg r = T.sreg r) ∧ T'.store = T.store) ∧
    (∀ (d : TileIx) (a : BitVec 45) (tag : Nat) (rest : List (Nat × Nat)) (r : XReq) (x : Piece),
      let g := 2 ^ 60 + d.val * 2 ^ 46 + a.toNat % 2 ^ 22
      s.homeBusy g = false → (s.home g).waiting = (t.val, tag) :: rest → T.req tag = some r → r.pieces = [x] → x.dst = g → T.work = none →
      ∃ u, exec (.holdServed (some d) a) s = .next u ∧ (u.home g).waiting = rest ∧ (u.home g).holder = some t.val ∧
        (u.home g).status = 0 ∧
        (u.tile t).req tag = some { r with answer := some (BitVec.ofNat 64 (Claims.littleEndian (s.tile d).store (a.toNat % 2 ^ 22) 8)), limit := 1 })

/-- A completion for a tag. One whose generation does not match the outstanding request, or that finds none, changes nothing
but the partition's count of late completions. That of an atomic writes its answer to sA and frees the tag; that of a `hold` that was placed
also starts the tile's reservation. The X queue then goes on. -/
def Sys2Proof.Claims.CompletionsByTag : Prop :=
  ∀ (s : State) (t : TileIx) (tag : BitVec 7) (gen : BitVec 16) (ans : Fin 3),
    let T := s.tile t
    ((T.req tag.toNat = none ∨ ∃ r, T.req tag.toNat = some r ∧ (r.gen ≠ gen.toNat ∨ r.done = true)) →
      (s.ownerOfTile t = none → exec (.tagCompletion t tag gen ans) s = .next s) ∧
      (∀ p, s.ownerOfTile t = some p →
        exec (.tagCompletion t tag gen ans) s = .next (s.setPf p F.RECOV_STATUS_LATE_DISCARDS
          (min (s.pf p F.RECOV_STATUS_LATE_DISCARDS + 1) (2 ^ F.RECOV_STATUS_LATE_DISCARDS.width - 1))))) ∧
    (∀ r v, T.req tag.toNat = some r → r.gen = gen.toNat → r.done = false → r.answer = some v → r.bad = [] → r.code = 0 →
      (r.kind = .atomic ∨ r.kind = .commit →
        ∃ w : State, exec (.tagCompletion t tag gen ans) s = .next (w.after t) ∧ (w.tile t).req tag.toNat = none ∧
          (∀ x, (w.tile t).sreg x = if x = destReg r.entry.instr ∧ x ≠ 0 then v else T.sreg x) ∧
          (w.tile t).resv = T.resv ∧ destReg r.entry.instr ∉ (w.tile t).sWait) ∧
      (∀ x, r.kind = .hold → r.pieces = [x] → r.limit = 1 →
        ∃ w : State, exec (.tagCompletion t tag gen ans) s = .next (w.after t) ∧ (w.tile t).req tag.toNat = none ∧
          (∀ y, (w.tile t).sreg y = if y = destReg r.entry.instr ∧ y ≠ 0 then v else T.sreg y) ∧
          (w.tile t).resv = some { key := x.dst / 64, start := s.tileCycle t, broken := [], old := earlierResv T.resv (x.dst / 64) }))

/-! ## Movement -/

/-- One piece of a request is served at its two ends. A stacked line without error that it reads gives the request its bytes,
and a whole line that it writes becomes them; a piece of another tile's store that the tile allows is read or written there. Under
STRICT each waits for its turn in the order of the tile's launches (R588), and a write for the earlier elements that write its bytes. -/
def Obligations.RequestsAreServedPieceByPiece : Prop :=
  ∀ (s : State) (t : TileIx) (tag : BitVec 7) (n : BitVec 21) (r : XReq) (x : Piece),
    (s.tile t).req tag.toNat = some r → r.kind = .part → r.pieces.find? (fun y => y.idx == n.toNat) = some x →
    r.failed x = false →
    (spaceOf x.src = 2 → r.data x = none → s.serves (blockOf x.src) = true → x.size = 64 → x.src % 64 = 0 →
      x.src % 2 ^ 48 ∉ s.memPoison → x.src % 2 ^ 48 ∉ s.memUE → s.inOrder t tag.toNat r x.src x.idx = true →
      ∃ u, exec (.memoryRequest t tag n []) s = .next u ∧
        (u.tile t).req tag.toNat = some { r with got := (x.idx, Claims.littleEndian s.mem (x.src % 2 ^ 48) 64) :: r.got } ∧
        u.mem = s.mem ∧ u.host = s.host) ∧
    (∀ v, spaceOf x.dst = 2 → r.data x = some v → x.idx ∉ r.wrote → s.serves (blockOf x.dst) = true → x.size = 64 → x.dst % 64 = 0 →
      r.deadline = 0 → r.behind x = false → s.inOrder t tag.toNat r x.dst x.idx = true →
      ∃ u, exec (.memoryRequest t tag n []) s = .next u ∧
        (u.tile t).req tag.toNat = some { r with wrote := x.idx :: r.wrote } ∧
        (∀ b, memByte u.mem b = if x.dst % 2 ^ 48 ≤ b ∧ b < x.dst % 2 ^ 48 + 64 then BitVec.ofNat 8 (v / 256 ^ (b - x.dst % 2 ^ 48))
          else memByte s.mem b) ∧
        x.dst % 2 ^ 48 ∉ u.memUE ∧ x.dst % 2 ^ 48 ∉ u.memPoison ∧ u.host = s.host) ∧
    (let d := x.src / 2 ^ 46 % 2 ^ 14
     let a := x.src % 2 ^ 22
     spaceOf x.src = 1 → r.data x = none → s.refusedAt t d = false → (s.tile d).hasUE a x.size = false →
      s.inOrder t tag.toNat r x.src x.idx = true →
      ∃ u T', exec (.inboundRequest t tag n) s = .next u ∧ OnlyTile s t u T' ∧
        T' = { s.tile t with reqs := T'.reqs } ∧
        T'.req tag.toNat = some { r with got := (x.idx, Claims.littleEndian (s.tile d).store a x.size) :: r.got }) ∧
    (∀ v, let d := x.dst / 2 ^ 46 % 2 ^ 14
     let a := x.dst % 2 ^ 22
     spaceOf x.dst = 1 → r.data x = some v → x.idx ∉ r.wrote → s.refusedAt t d = false → r.deadline = 0 →
      r.behind x = false → s.inOrder t tag.toNat r x.dst x.idx = true →
      ∃ u, exec (.inboundRequest t tag n) s = .next u ∧
        (u.tile t).req tag.toNat = some { r with wrote := x.idx :: r.wrote } ∧
        (∀ b, memByte (u.tile d).store b = if a ≤ b ∧ b < a + x.size then BitVec.ofNat 8 (v / 256 ^ (b - a))
          else memByte (s.tile d).store b) ∧ u.mem = s.mem)

/-- The next chunk of a DMA launches: up to 64 lines in order, under a tag of its own, where a tag is free, the chunk limit
leaves room, the tile may send, and nothing outstanding touches the same bytes, nor what earlier instructions have still to send. -/
def Sys2Proof.Claims.ChunksLaunch : Prop :=
  ∀ (s : State) (t : TileIx) (tag : BitVec 7) (r : XReq),
    let T := s.tile t
    T.req tag.toNat = some r → r.kind = .dma → r.launched < r.total → (T.parts tag.toNat).length < r.limit → T.freeTags ≠ [] →
    s.mayLeave t = true → s.heldBack t r.order (s.chunkPieces (s.ownerOfTile t) t r) = false →
    ∃ u g q, exec (.chunkLaunch t tag) s = .next u ∧ g ∈ T.freeTags ∧ (u.tile t).req g = some q ∧ q.kind = .part ∧
      q.parent = tag.toNat ∧ q.gen = (T.gens.get (fun _ => 0) g + 1) % 2 ^ 16 ∧
      q.pieces.map (·.idx) = (List.range (min 64 (r.total - r.launched))).map (r.launched + ·) ∧
      (u.tile t).req tag.toNat = some { r with launched := r.launched + min 64 (r.total - r.launched) } ∧
      (u.tile t).fld F.X_LAUNCH_COUNT = (T.fld F.X_LAUNCH_COUNT + 1) % 2 ^ F.X_LAUNCH_COUNT.width ∧
      (∀ x, (u.tile t).sreg x = T.sreg x) ∧ (u.tile t).store = T.store ∧ u.mem = s.mem

/-- The instruction at the head of the X queue launches as soon as its stamp, if it has one, is due. A `mv.dma` whose ranges
raise nothing takes a tag with the next generation, which goes to sA, and its first chunk launches under another tag; an atomic whose address
raises nothing takes a tag for its one request and, unless it is `commit`, breaks the tile's live reservation. Here with nothing else
of the tile in its queues. -/
def Sys2Proof.Claims.TheHeadOfTheXQueueLaunches : Prop :=
  ∀ (s : State) (t : TileIx) (e : QEntry),
    let T := s.tile t
    let p := s.ownerOfTile t
    T.xq = [e] → T.reqs = [] → T.mq = [] → T.cq = [] → T.run = none → T.frozen 4 = false → s.mayLeave t = true →
    T.fld F.DBG_STATUS_STOPPING = 0 → T.fld F.TILE_STATUS_DOUBLE = 0 → (∀ k, T.stampAt = some k → k ≤ s.owl.ns) →
    (∀ f, e.instr = .mvDma t f → (stampOf e.instr ≠ none → T.stampAt ≠ none) →
      let n := f.w1.toNat / 2 ^ 15
      let user := T.fld F.TILE_STATUS_MODE == 0
      s.rangesFault p [(0, e.sb.toNat, 64 * n), (1, e.dst, 64 * n)] 64 = none → s.shared p t e.sb.toNat e.dst n = none →
      s.hostCause user (s.ctxOfTile t) e.sb.toNat (64 * n) false = none → s.hostCause user (s.ctxOfTile t) e.dst (64 * n) true = none →
      0 < n → 0 < T.fld F.DMA_CFG_CHUNKS →
      ∃ u g h q r, exec (.stampLaunch t) s = .next u ∧ (u.tile t).xq = [] ∧ g ≠ h ∧
        (u.tile t).req g = some q ∧ q.kind = .dma ∧ q.total = n ∧ q.launched = min 64 n ∧
        q.gen = (T.gens.get (fun _ => 0) g + 1) % 2 ^ 16 ∧
        (∀ x, (u.tile t).sreg x = if x = f.a.toNat ∧ x ≠ 0 then BitVec.ofNat 64 (g + q.gen * 128) else T.sreg x) ∧
        (u.tile t).req h = some r ∧ r.kind = .part ∧ r.parent = g ∧ r.pieces.map (·.idx) = List.range (min 64 n)) ∧
    (∀ f kind, atomicFields e.instr = some (f, kind) →
      stackedOut (s.blockCount p) e.sb.toNat (atomicSize e.instr) = false → s.foreign p e.sb.toNat = false →
      ∃ u g q, exec (.stampLaunch t) s = .next u ∧ (u.tile t).xq = [] ∧ (u.tile t).req g = some q ∧ q.kind = kind ∧ q.entry = e ∧
        q.pieces = [⟨0, s.canon p t e.sb.toNat, atomicSize e.instr, 0⟩] ∧ q.answer = none ∧
        (u.tile t).resv = (if kind = .commit then T.resv
          else T.resv.map (fun r => if r.dead then r else { r with broken := insertNat 3 r.broken })) ∧
        (∀ x, (u.tile t).sreg x = T.sreg x))

/-- A stamped instruction that reaches the head of the queue before the first tick of its beat holds it until then, and one that
reaches it later in the round until its beat of the next round with STAMP_LATE_SEEN set; under TILE_CFG.STAMP_LATE the late one raises STAMP_MISS instead. -/
def Sys2Proof.Claims.StampHoldsTheHead : Prop :=
  ∀ (s : State) (t : TileIx) (e : QEntry) (rest : List QEntry) (beat : Nat),
    let T := s.tile t
    T.xq = e :: rest → stampOf e.instr = some beat → T.stampAt = none → T.frozen 4 = false → s.mayLeave t = true →
    T.fld F.DBG_STATUS_STOPPING = 0 → T.fld F.TILE_STATUS_DOUBLE = 0 → T.reqs = [] → T.mq = [] → T.cq = [] →
    let cur := s.owl.ns / 256 % 4096
    let late := beat < cur ∨ (beat = cur ∧ s.owl.ns % 256 ≠ 0)
    (cur < beat → exec (.stampLaunch t) s =
      .next (s.setTile t { T with stampAt := some (s.owl.ns / 1048576 * 1048576 + beat * 256) })) ∧
    (late → T.fld F.TILE_CFG_STAMP_LATE = 0 → exec (.stampLaunch t) s =
      .next (s.setTile t { T.setFld F.TILE_STATUS_STAMP_LATE_SEEN 1 with
        stampAt := some ((s.owl.ns / 1048576 + 1) * 1048576 + beat * 256) })) ∧
    (late → T.fld F.TILE_CFG_STAMP_LATE = 1 → T.fld F.TILE_STATUS_MODE = 0 → T.events.fenced = none →
      ∃ u T', exec (.stampLaunch t) s = .next u ∧ OnlyTile s t u T' ∧
        Claims.Entered T T' 0x0A 4 0 false T.pc e.pc (BitVec.ofNat 64 (beat + s.owl.ns / 256 * 4096)) [])

/-- The record of the first completed request in launch order is posted to the error ring where it has room, as 16 bytes at
BASE + 16 × (TAIL mod 2^SIZE), and frees its tag; with no ring it is counted as lost. -/
def Sys2Proof.Claims.ErrorRecordsArePosted : Prop :=
  ∀ (s : State) (t : TileIx) (tag : Nat) (r : XReq),
    let T := s.tile t
    T.nextRecord = some (tag, r) →
    let size := T.fld F.MV_ERRQ_CFG_SIZE
    let tail := T.fld F.MV_ERRQ_PTR_TAIL
    let a := T.fld F.MV_ERRQ_CFG_BASE + 16 * (tail % 2 ^ size)
    (size = 0 → ∃ w : State, exec (.errorRecordPost t) s = .next (w.after t) ∧ (w.tile t).req tag = none ∧
      (w.tile t).fld F.MV_ERRQ_PTR_LOST = min (T.fld F.MV_ERRQ_PTR_LOST + 1) (2 ^ F.MV_ERRQ_PTR_LOST.width - 1) ∧
      (w.tile t).store = T.store) ∧
    (size ≠ 0 → (tail + 8192 - T.fld F.MV_ERRQ_PTR_HEAD) % 8192 ≠ 2 ^ size →
      ∃ w : State, exec (.errorRecordPost t) s = .next (w.after t) ∧ (w.tile t).req tag = none ∧
        (w.tile t).fld F.MV_ERRQ_PTR_TAIL = (tail + 1) % 8192 ∧
        (∀ b, memByte (w.tile t).store b =
          if a ≤ b ∧ b < a + 8 then BitVec.ofNat 8 ((recordWords tag r).1 / 256 ^ (b - a))
          else if a + 8 ≤ b ∧ b < a + 16 then BitVec.ofNat 8 ((recordWords tag r).2 / 256 ^ (b - (a + 8)))
          else memByte T.store b))

/-- A stream all of whose elements are done writes its status word, with bit 0 for completion, its first failure and the
count of failures, frees its engine, and its tag where nothing failed. The status word's address is STATUS_ADDR of the
descriptor as the engine read it at launch. -/
def Sys2Proof.Claims.StreamsComplete : Prop :=
  ∀ (s : State) (t : TileIx) (tag : BitVec 7) (r : XReq),
    let T := s.tile t
    T.req tag.toNat = some r → r.kind = .stream → r.launched = r.total → r.done = false → r.answer = none →
    T.parts tag.toNat = [] → r.code = 0 →
    let at_ := r.entry.desc.toNat / 2 ^ 416 % 2 ^ 22
    ∃ w : State, exec (.streamCompletion t tag) s = .next (w.after t) ∧
      (∀ b, memByte (w.tile t).store b = if at_ ≤ b ∧ b < at_ + 8 then BitVec.ofNat 8 (streamStatus r.bad / 256 ^ (b - at_))
        else memByte T.store b) ∧
      (w.tile t).fld (if recordEngine r = 1 then F.GATH_STATUS_BUSY_G0 else F.GATH_STATUS_BUSY_G1) = 0 ∧
      (r.bad = [] → (w.tile t).req tag.toNat = none) ∧
      (r.bad ≠ [] → (w.tile t).req tag.toNat = some { r with done := true })

/-- A request to the host whose completion never arrives ends: its reads are refused, with ECODE 3, and when nothing else of
the part is left its tag is freed and the failure stands with the instruction. -/
def Sys2Proof.Claims.HostTimeoutsEndReads : Prop :=
  ∀ (s : State) (t : TileIx) (tag : BitVec 7) (r q : XReq) (x : Piece),
    let T := s.tile t
    T.req tag.toNat = some r → r.kind = .part → r.done = false → r.pieces = [x] → spaceOf x.src = 3 → r.got = [] → r.bad = [] →
    r.parent ≠ tag.toNat → T.req r.parent = some q → q.kind = .dma → (∃ f, moveFields r.entry.instr = some (f, .dma)) → q.launched < q.total →
    ∃ w : State, exec (.pcieCompletionTimeout t tag) s = .next (w.after t) ∧ (w.tile t).req tag.toNat = none ∧
      (w.tile t).req r.parent = some { q with bad := (x.idx, 3, x.src) :: q.bad } ∧ w.mem = s.mem ∧ w.host = s.host


/-! ## Matrix instructions -/

namespace Sys2Proof.Claims

/-- The tile can take a new instruction of the M or C queue `q` at its PC and execute it at once: `len` bytes, the scalar registers
`regs` that it reads or writes; nothing holds it back, its words can be fetched, its queue is empty, no tile program run is pending and
no unfinished instruction holds a range of the tile store. -/
structure Takes (T : Tile) (q len : Nat) (regs : List Nat) : Prop where
  ready : T.ready (0 :: regs) = true
  idle : T.run = none
  clear : T.openRanges = []
  empty : T.queue q = []
  flows : T.frozen q = false
  fetch : T.fetchFault len = none
  next : fetchable (T.pc + BitVec.ofNat 64 len)

/-- An instruction of the M or C queue has completed: PC is past it, its slot is counted as retired, and of the control
registers only the counters and `touched` may differ; the queues, the requests and the reservation are as before. -/
structure Completed (T T' : Tile) (q len : Nat) (touched : List Nat) : Prop where
  pc : T'.pc = T.pc + BitVec.ofNat 64 len
  counted : T'.fld (retFld q) = (T.fld (retFld q) + 1) % 2 ^ 56
  others : ∀ a, a ∉ touched ++ retireRegs q → T'.ctlWord a = T.ctlWord a
  queues : T'.mq = T.mq ∧ T'.cq = T.cq ∧ T'.xq = T.xq ∧ T'.reqs = T.reqs ∧ T'.resv = T.resv

/-- The registers of the S and C queues are as before: scalars but `ss`, vectors, masks, descriptors and roots. -/
structure SameRegs (T T' : Tile) (ss : List Nat) : Prop where
  scalars : ∀ r, r ∉ ss → T'.sreg r = T.sreg r
  vectors : ∀ r, T'.vreg r = T.vreg r
  masks : ∀ r, T'.kreg r = T.kreg r
  descriptors : ∀ r, T'.dreg r = T.dreg r
  roots : T'.root0 = T.root0 ∧ T'.root1 = T.root1

/-- The control registers that a matrix instruction may write (R210, R229, R643), and, where it stores, SOLV_READY (R322). -/
def matrixRegs : List Nat :=
  [mflagsAddr, F.MSTATUS_SHAPE.reg, F.MOP_CYCLES_CYCLES.reg, F.MOP_SPREAD_STALLS.reg, F.MMOM_N_N.reg, F.SOLV_READY_READY.reg,
   F.M_ACTIVE_COUNT.reg, F.M_SPREAD_COUNT.reg, F.M_SETTLE_COUNT.reg, F.M_HELD_COUNT.reg]

/-- The rational number that a finite value stands for. -/
def real : Exact → ℚ
  | .fin s n d e => (sgn s n : ℚ) / d * (2 : ℚ) ^ e
  | _ => 0

/-- An operand that was read without an error and is neither infinite nor NaN. -/
def Finite (x : Exact × Bool) : Prop := ∃ s n d e, x = (.fin s n d e, false)

/-- The fields of a matrix descriptor that name the active outputs: SHAPE, M_ACT, N_ACT and K. -/
def mShape (d : Line) : Nat := mf d 3 32 3
def mRows (d : Line) : Nat := mf d 3 36 7
def mCols (d : Line) : Nat := mf d 3 43 8
def mK (d : Line) : Nat := mf d 3 0 24

end Sys2Proof.Claims

/-- An M or C instruction whose queue holds an earlier one waits behind it, with its operands captured, and its slot is retired;
one whose queue is full, with 8 entries of the M queue or 16 of the C queue, is not dispatched. Here `mclear` and `vbcast`. -/
def Sys2Proof.Claims.InstructionsWaitInTheirQueue : Prop :=
  ∀ (s : State) (t : TileIx),
    let T := s.tile t
    (∀ f : FX, f.b = 0 → f.c = 0 → f.k = 0 → f.w1 = 0 → f.a.toNat < 16 → T.ready [0] = true → T.fetchFault 8 = none →
      T.frozen 2 = false → T.mq ≠ [] →
      (T.mq.length < 8 → fetchable (T.pc + 8) →
        ∃ u T' e, exec (.mclear t f) s = .next u ∧ OnlyTile s t u T' ∧ e.instr = .mclear t f ∧ e.pc = T.pc ∧ e.desc = T.dreg f.a.toNat ∧
          Tile.Retired { T with mq := T.mq ++ [e], ages := T.ages + 1 } T' 2 (T.pc + 8)) ∧
      (8 ≤ T.mq.length → ∃ u, exec (.mclear t f) s = .next u ∧ OnlyTile s t u T)) ∧
    (∀ f : F3, f.c = 0 → T.ready [0, f.b.toNat] = true → T.fetchFault 4 = none → T.frozen 3 = false → T.cq ≠ [] →
      (T.cq.length < 16 → fetchable (T.pc + 4) →
        ∃ u T' e, exec (.vbcast t f) s = .next u ∧ OnlyTile s t u T' ∧ e.instr = .vbcast t f ∧ e.pc = T.pc ∧ e.sb = T.sreg f.b.toNat ∧
          Tile.Retired { T with cq := T.cq ++ [e], ages := T.ages + 1 } T' 3 (T.pc + 4)) ∧
      (16 ≤ T.cq.length → ∃ u, exec (.vbcast t f) s = .next u ∧ OnlyTile s t u T))

/-- `mmac` without a drain or snapshots accumulates exactly: for operands of any two formats that are finite, the LACC of
output (r, c) gains the sum over k of A(r, k) × B(k, c), as a multiple of 2^−2148, with no rounding and whatever the spread
of the products. With ACC = 0 every LACC is cleared first. No register and no byte of the store changes. -/
def Obligations.MmacAccumulatesExactly : Prop :=
  ∀ (s : State) (t : TileIx) (f : FX),
    let T := s.tile t
    let d := T.dreg f.a.toNat
    let acc := f.w1 = 1
    let old := fun (cell : Nat) => if acc then T.laccAt cell else ⟨0, .none⟩
    Claims.Takes T 2 8 [] →
    f.b = 0 → f.c = 0 → f.k = 0 → f.w1 = 0 ∨ f.w1 = 1 → f.a.toNat < 16 → mmacOk d false = true → mf d 5 32 24 = 0 →
    mmacExtents d false = none →
    (∀ r < Claims.mRows d, ∀ k < Claims.mK d, Claims.Finite ((opndA d).read T r k)) →
    (∀ c < Claims.mCols d, ∀ k < Claims.mK d, Claims.Finite ((opndB d).read T c k)) →
    (∀ cell, (old cell).sp = .none ∧ -(2 ^ 4286 : Int) ≤ (old cell).z ∧ (old cell).z ≤ 2 ^ 4286) →
    ∃ u T', exec (.mmac t f) s = .next u ∧ OnlyTile s t u T' ∧ Claims.Completed T T' 2 8 Claims.matrixRegs ∧ Claims.SameRegs T T' [] ∧
      T'.store = T.store ∧
      (∀ r < Claims.mRows d, ∀ c < Claims.mCols d,
        (T'.laccAt (cellOf (Claims.mShape d) r c)).sp = .none ∧
        ((T'.laccAt (cellOf (Claims.mShape d) r c)).z : ℚ) = (old (cellOf (Claims.mShape d) r c)).z +
          2 ^ 2148 * ((List.range (Claims.mK d)).map (fun k =>
            Claims.real ((opndA d).read T r k).1 * Claims.real ((opndB d).read T c k).1)).sum) ∧
      (∀ cell, (∀ r < Claims.mRows d, ∀ c < Claims.mCols d, cell ≠ cellOf (Claims.mShape d) r c) → T'.laccAt cell = old cell) ∧
      (f.w1 = 0 → T'.fld F.MSTATUS_SHAPE = Claims.mShape d ∧ T'.fld F.MSTATUS_MOMENTS = 0)

/-- `mclear` clears every LACC and the moments. `mdrain` to the tile store without MX rounds each active output once and
writes it at its place, and no byte outside the output rows changes; with KEEP = 1 the LACCs keep their values, else all
are cleared. -/
def Sys2Proof.Claims.ClearAndDrainResults : Prop :=
  ∀ (s : State) (t : TileIx) (f : FX),
    let T := s.tile t
    let d := T.dreg f.a.toNat
    f.b = 0 → f.c = 0 → f.k = 0 → f.a.toNat < 16 →
    (f.w1 = 0 → Claims.Takes T 2 8 [] →
      ∃ u T', exec (.mclear t f) s = .next u ∧ OnlyTile s t u T' ∧ Claims.Completed T T' 2 8 Claims.matrixRegs ∧
        Claims.SameRegs T T' [] ∧ T'.store = T.store ∧ (∀ cell, T'.laccAt cell = ⟨0, .none⟩) ∧
        T'.fld F.MSTATUS_MOMENTS = 0 ∧ T'.fld F.MMOM_N_N = 0) ∧
    (f.w1 = 0 ∨ f.w1 = 4 → Claims.Takes T 2 8 [] → mdrainOk d = true → mf d 5 24 2 = 0 → mf d 5 22 1 = 0 →
      mf d 4 52 3 < 4 → fmtBits (mf d 4 48 4) % 8 = 0 → drainFits d = (true, true) →
      let q := drainRnd d
      let w := fmtBits q.fmt / 8
      Claims.mCols d * w ≤ mf d 4 24 24 →
      ∃ u T', exec (.mdrain t f) s = .next u ∧ OnlyTile s t u T' ∧ Claims.Completed T T' 2 8 Claims.matrixRegs ∧ Claims.SameRegs T T' [] ∧
        (∀ r < Claims.mRows d, ∀ c < Claims.mCols d,
          Claims.littleEndian T'.store (mf d 4 0 22 + r * mf d 4 24 24 + c * w) w =
            (roundNum q.fmt q.fxp q.mode q.sat 0 (T.laccAt (cellOf (Claims.mShape d) r c)).value).1 % 2 ^ (8 * w)) ∧
        (∀ x, (∀ r < Claims.mRows d, x < mf d 4 0 22 + r * mf d 4 24 24 ∨ mf d 4 0 22 + r * mf d 4 24 24 + Claims.mCols d * w ≤ x) →
          memByte T'.store x = memByte T.store x) ∧
        (∀ cell, T'.laccAt cell = if f.w1 = 4 then T.laccAt cell else ⟨0, .none⟩))

/-- `mexport` with KEEP = 1 writes one record for each active output from C_BASE, back to back, and their bytes to sC; what
`mimport` reads there is each output's value, exact. `mimport` sets each active LACC to the value of its record, or adds
it with ACC = 1, exactly. -/
def Sys2Proof.Claims.RecordsCarryExactValues : Prop :=
  ∀ (s : State) (t : TileIx) (f : FX),
    let T := s.tile t
    let d := T.dreg f.a.toNat
    let base := mf d 4 0 22
    let cells := activeCells d
    f.b = 0 → f.k = 0 → f.a.toNat < 16 → mexportOk d = true →
    (f.w1 = 4 → Claims.Takes T 2 8 [f.c.toNat] → base + 544 * cells.length ≤ 0x300000 →
      (∀ cell, laccInRange (T.laccAt cell).z = true ∧ ((T.laccAt cell).sp ≠ .none → (T.laccAt cell).z = 0)) →
      ∃ u T' n, exec (.mexport t f) s = .next u ∧ OnlyTile s t u T' ∧ Claims.Completed T T' 2 8 Claims.matrixRegs ∧
        Claims.SameRegs T T' [f.c.toNat] ∧ T'.sreg f.c.toNat = (if f.c = 0 then 0 else BitVec.ofNat 64 n) ∧
        T'.scanRecords base cells.length base 0 = .inl (cells.map (fun cell => (T.laccAt cell).value), n) ∧
        (∀ x, x < base ∨ base + n ≤ x → memByte T'.store x = memByte T.store x) ∧ (∀ cell, T'.laccAt cell = T.laccAt cell)) ∧
    (f.w1 = 0 ∨ f.w1 = 1 → f.c = 0 → Claims.Takes T 2 8 [] →
      ∀ (vs : List Exact) (n : Nat), T.scanRecords base cells.length base 0 = .inl (vs, n) →
      ∃ u T', exec (.mimport t f) s = .next u ∧ OnlyTile s t u T' ∧ Claims.Completed T T' 2 8 Claims.matrixRegs ∧
        Claims.SameRegs T T' [] ∧ T'.store = T.store ∧
        (∀ (i cell : Nat) (z : Int), cells[i]? = some cell → vs[i]? = some (Exact.ofInt z (-2148)) →
          (f.w1 = 0 → laccInRange z = true → T'.laccAt cell = ⟨z, .none⟩) ∧
          (f.w1 = 1 → (T.laccAt cell).sp = .none → laccInRange ((T.laccAt cell).z + z) = true →
            T'.laccAt cell = ⟨(T.laccAt cell).z + z, .none⟩)) ∧
        (∀ cell, cell ∉ cells → T'.laccAt cell = if f.w1 = 1 then T.laccAt cell else ⟨0, .none⟩))

/-- `mmom` adds the finite samples of each feature exactly to S1 and their squares to S2, and K to MMOM_N. `mdrmom` rounds
the mean S1 / n once; the variance is D / (n (n − DDOF)) rounded up or rounded down, so that it is exact where the format
holds it. It leaves every LACC, MOMENTS and MMOM_N cleared. -/
def Sys2Proof.Claims.MomentResults : Prop :=
  ∀ (s : State) (t : TileIx) (f : FX),
    let T := s.tile t
    let d := T.dreg f.a.toNat
    f.b = 0 → f.c = 0 → f.k = 0 → f.a.toNat < 16 →
    (let acc := f.w1 = 1 ∧ T.fld F.MSTATUS_MOMENTS = 1
     let old := fun (cell : Nat) => if acc then T.laccAt cell else ⟨0, .none⟩
     f.w1 = 0 ∨ f.w1 = 1 → Claims.Takes T 2 8 [] → mmomOk d = true → (opndA d).fits (16 * Claims.mRows d) = true →
      (∀ i < 16 * Claims.mRows d, ∀ k < Claims.mK d, Claims.Finite ((opndA d).read T i k)) →
      (∀ cell, (old cell).sp = .none ∧ -(2 ^ 4286 : Int) ≤ (old cell).z ∧ (old cell).z ≤ 2 ^ 4286) →
      ∃ u T', exec (.mmom t f) s = .next u ∧ OnlyTile s t u T' ∧ Claims.Completed T T' 2 8 Claims.matrixRegs ∧ Claims.SameRegs T T' [] ∧
        T'.store = T.store ∧ T'.fld F.MSTATUS_MOMENTS = 1 ∧
        T'.fld F.MMOM_N_N = min ((if acc then T.fld F.MMOM_N_N else 0) + Claims.mK d) (2 ^ 48 - 1) ∧
        (∀ i < 16 * Claims.mRows d,
          let xs := (List.range (Claims.mK d)).map (fun k => Claims.real ((opndA d).read T i k).1)
          ((T'.laccAt (momCell i)).z : ℚ) = (old (momCell i)).z + 2 ^ 2148 * xs.sum ∧ (T'.laccAt (momCell i)).sp = .none ∧
          ((T'.laccAt (momCell i + 1)).z : ℚ) = (old (momCell i + 1)).z + 2 ^ 2148 * (xs.map (fun x => x * x)).sum ∧
          (T'.laccAt (momCell i + 1)).sp = .none)) ∧
    (let q := drainRnd d
     let w := fmtBits q.fmt / 8
     let n := T.fld F.MMOM_N_N
     let ddof := if f.w1 = 8 then 1 else 0
     f.w1 = 0 ∨ f.w1 = 8 → Claims.Takes T 2 8 [] → mdrmomOk d = true → T.fld F.MSTATUS_MOMENTS = 1 →
      ddof < n → n < 2 ^ 48 - 1 →
      mf d 4 0 22 + mf d 4 24 24 + 16 * Claims.mRows d * w ≤ 0x300000 → 16 * Claims.mRows d * w ≤ mf d 4 24 24 →
      ∃ u T', exec (.mdrmom t f) s = .next u ∧ OnlyTile s t u T' ∧ Claims.Completed T T' 2 8 Claims.matrixRegs ∧ Claims.SameRegs T T' [] ∧
        (∀ cell, T'.laccAt cell = ⟨0, .none⟩) ∧ T'.fld F.MSTATUS_MOMENTS = 0 ∧ T'.fld F.MMOM_N_N = 0 ∧
        (∀ i < 16 * Claims.mRows d, (T.laccAt (momCell i)).sp = .none → (T.laccAt (momCell i + 1)).sp = .none →
          let z1 := (T.laccAt (momCell i)).z
          let D := (n : Int) * (T.laccAt (momCell i + 1)).z * (2 ^ 2148 : Nat) - z1 * z1
          let var := Claims.littleEndian T'.store (mf d 4 0 22 + mf d 4 24 24 + i * w) w
          Claims.littleEndian T'.store (mf d 4 0 22 + i * w) w =
            (roundNum q.fmt 0 q.mode q.sat 0 (.fin (z1 < 0) z1.natAbs n (-2148))).1 % 2 ^ (8 * w) ∧
          (var = (roundNum q.fmt 0 2 q.sat 0 (.fin (D < 0) D.natAbs (n * (n - ddof)) (-4296))).1 % 2 ^ (8 * w) ∨
           var = (roundNum q.fmt 0 3 q.sat 0 (.fin (D < 0) D.natAbs (n * (n - ddof)) (-4296))).1 % 2 ^ (8 * w))))

/-- `mgrp` without a drain: a row whose index names an adapter accumulates its products with that adapter's B exactly; a
skipped row gains nothing; every active output of a row whose index names none enters the NaN state, and INVALID is set. -/
def Sys2Proof.Claims.GroupedAdaptersAccumulate : Prop :=
  ∀ (s : State) (t : TileIx) (f : FX),
    let T := s.tile t
    let d := T.dreg f.a.toNat
    let old := fun (cell : Nat) => if f.w1 = 1 then T.laccAt cell else ⟨0, .none⟩
    Claims.Takes T 2 8 [] →
    f.b = 0 → f.c = 0 → f.k = 0 → f.w1 = 0 ∨ f.w1 = 1 → f.a.toNat < 16 → mgrpOk d false = true → mgrpFail T d false = none →
    (∀ r < Claims.mRows d, ∀ a, rowKind T d r = .matched a → ∀ k < Claims.mK d, Claims.Finite ((opndA d).read T r k) ∧
      ∀ c < Claims.mCols d, Claims.Finite ((opndB (withAdapter T d a)).read T c k)) →
    (∀ cell, (old cell).sp = .none ∧ -(2 ^ 4286 : Int) ≤ (old cell).z ∧ (old cell).z ≤ 2 ^ 4286) →
    ∃ u T', exec (.mgrp t f) s = .next u ∧ OnlyTile s t u T' ∧ Claims.Completed T T' 2 8 Claims.matrixRegs ∧ Claims.SameRegs T T' [] ∧
      T'.store = T.store ∧
      (∀ r < Claims.mRows d, ∀ c < Claims.mCols d,
        let cell := cellOf (Claims.mShape d) r c
        (∀ a, rowKind T d r = .matched a → (T'.laccAt cell).sp = .none ∧ ((T'.laccAt cell).z : ℚ) = (old cell).z +
          2 ^ 2148 * ((List.range (Claims.mK d)).map (fun k =>
            Claims.real ((opndA d).read T r k).1 * Claims.real ((opndB (withAdapter T d a)).read T c k).1)).sum) ∧
        (rowKind T d r = .skipped → T'.laccAt cell = old cell) ∧
        (rowKind T d r = .unmatched → T'.laccAt cell = ⟨0, .nan⟩ ∧ (T'.ctlWord mflagsAddr).toNat % 2 = 1))


/-! ## The vector chain -/

namespace Sys2Proof.Claims

/-- The control registers that a chain instruction may write when it completes: VFLAGS, VOP_CYCLES, VOP_STALLS, VRES, the
position of the chain stream and the counters of its cycles. -/
def chainRegs : List Nat :=
  [vflagsAddr, F.VOP_CYCLES_CYCLES.reg, F.VOP_STALLS_SPREAD.reg, F.VRES_VALID.reg, F.VGEN_POS_C_POS.reg,
   F.C_ACTIVE_COUNT.reg, F.C_SPREAD_COUNT.reg, F.C_BANK_COUNT.reg]

/-- All registers of the S and C queues but those listed, the LACCs and the store are as before. -/
structure KeepsBut (T T' : Tile) (ss vs ks roots : List Nat) : Prop where
  scalars : ∀ r, r ∉ ss → T'.sreg r = T.sreg r
  vectors : ∀ r, r ∉ vs → T'.vreg r = T.vreg r
  masks : ∀ r, r ∉ ks → T'.kreg r = T.kreg r
  descriptors : ∀ r, T'.dreg r = T.dreg r
  roots : ∀ r < 2, r ∉ roots → T'.root r = T.root r
  lacc : T'.lacc = T.lacc

/-- Lanes of `w` bits of vA after an instruction of element width `ew` and N elements under mask kK (R237): an active element
holds its value, an inactive one keeps what it held or is zero under MZ, a tail element keeps what it held. -/
structure LanesWritten (T T' : Tile) (a k ew w N : Nat) (val : Nat → Nat) : Prop where
  active : ∀ n < N, activeIn (T.kreg k) ew n = true → lane (T'.vreg a) w n = val n % 2 ^ w
  inactive : ∀ n < N, activeIn (T.kreg k) ew n = false → lane (T'.vreg a) w n = if T.fld F.VTYPE_MZ = 1 then 0 else lane (T.vreg a) w n
  tail : ∀ n, N ≤ n → (n + 1) * w ≤ 4096 → lane (T'.vreg a) w n = lane (T.vreg a) w n

/-- The elements of kA after a compare (R237): all ew / 8 bits of an active element say whether the condition holds. -/
structure MaskWritten (T T' : Tile) (a k ew N : Nat) (holds : Nat → Prop) : Prop where
  active : ∀ n < N, activeIn (T.kreg k) ew n = true → ∀ j < ew / 8, ((T'.kreg a).getLsbD (n * ew / 8 + j) = true ↔ holds n)
  inactive : ∀ n < N, activeIn (T.kreg k) ew n = false → ∀ j < ew / 8,
    (T'.kreg a).getLsbD (n * ew / 8 + j) = if T.fld F.VTYPE_MZ = 1 then false else (T.kreg a).getLsbD (n * ew / 8 + j)

/-- A base operation that moves or combines whole elements: its tile and fields, the operations it counts with, the scalar
registers it reads, the fields that must be 0, the mask register, and the value of element n (R238). -/
structure LaneOp where
  t : TileIx
  f : F3
  cls : OpClass
  regs : List Nat
  zero : Bool
  mask : Nat
  val : Tile → Nat → Nat

/-- Element n of a register at the element width of VTYPE. -/
def element (T : Tile) (r : BitVec 5) (n : Nat) : Nat := lane (T.vreg r.toNat) T.vt.ew n

/-- Element n of vB as bits, shifted by bits [5:0] of vC's element modulo ew. -/
def shifted (T : Tile) (f : F3) (sh : {w : Nat} → BitVec w → Nat → BitVec w) (n : Nat) : Nat :=
  (sh (BitVec.ofNat T.vt.ew (element T f.b n)) (element T f.c n % 64 % T.vt.ew)).toNat

/-- The operations on whole elements. -/
def laneOp : Instr → Option LaneOp
  | .vmv t f => some ⟨t, f, .move, [], f.c = 0, f.k.toNat, fun T n => element T f.b n⟩
  | .vbcast t f => some ⟨t, f, .move, [f.b.toNat], f.c = 0, f.k.toNat, fun T _ => (T.sreg f.b.toNat).toNat % 2 ^ laneW (T.fld F.VTYPE_FMT)⟩
  | .vidx t f => some ⟨t, f, .index, [], f.b = 0 ∧ f.c = 0, f.k.toNat, fun _ n => n⟩
  | .vsel t f => some ⟨t, f, .select, [], true, 0, fun T n => element T (if activeIn (T.kreg f.k.toNat) T.vt.ew n then f.b else f.c) n⟩
  | .vand t f => some ⟨t, f, .bitwise, [], true, f.k.toNat, fun T n => element T f.b n &&& element T f.c n⟩
  | .vor t f => some ⟨t, f, .bitwise, [], true, f.k.toNat, fun T n => element T f.b n ||| element T f.c n⟩
  | .vxor t f => some ⟨t, f, .bitwise, [], true, f.k.toNat, fun T n => element T f.b n ^^^ element T f.c n⟩
  | .vshl t f => some ⟨t, f, .shift, [], true, f.k.toNat, fun T n => shifted T f (fun b s => b <<< s) n⟩
  | .vshr t f => some ⟨t, f, .shift, [], true, f.k.toNat, fun T n => shifted T f (fun b s => b >>> s) n⟩
  | .vsar t f => some ⟨t, f, .shift, [], true, f.k.toNat, fun T n => shifted T f (fun b s => b.sshiftRight s) n⟩
  | _ => none

end Sys2Proof.Claims

/-- The moves, `vidx`, `vsel`, the bitwise operations and the shifts write vA element by element and set no flag. -/
def Sys2Proof.Claims.ChainMovesAndBits : Prop :=
  ∀ (s : State) (i : Instr) (o : Claims.LaneOp),
    let T := s.tile o.t
    Claims.laneOp i = some o → o.zero = true → T.vt.accepts o.cls = true → Claims.Takes T 3 4 o.regs →
    ∃ u T', exec i s = .next u ∧ OnlyTile s o.t u T' ∧ Claims.Completed T T' 3 4 Claims.chainRegs ∧
      Claims.KeepsBut T T' [] [o.f.a.toNat] [] [] ∧ T'.store = T.store ∧ T'.ctlWord vflagsAddr = T.ctlWord vflagsAddr ∧
      T'.ctlWord F.VGEN_POS_C_POS.reg = T.ctlWord F.VGEN_POS_C_POS.reg ∧
      Claims.LanesWritten T T' o.f.a.toNat o.mask T.vt.ew T.vt.ew T.vt.n (o.val T)

namespace Sys2Proof.Claims

/-- What an arithmetic operation computes in a lane, exactly, from the elements of vA, vB and vC (R184, R238); and whether it
draws a word of the chain stream under STOCH. -/
structure ArithOp where
  t : TileIx
  f : F3
  cls : OpClass
  zero : Bool
  draws : Bool
  val : Exact → Exact → Exact → Bool → Exact × Nat

/-- The arithmetic operations. -/
def arithOp : Instr → Option ArithOp
  | .vadd t f => some ⟨t, f, .arith, true, true, fun _ b c rdn => b.add rdn c⟩
  | .vsub t f => some ⟨t, f, .arith, true, true, fun _ b c rdn => b.add rdn c.negate⟩
  | .vmul t f => some ⟨t, f, .arith, true, true, fun _ b c _ => b.mul c⟩
  | .vfma t f => some ⟨t, f, .fma, true, true, fun a b c rdn => b.fma rdn c a⟩
  | .vfnma t f => some ⟨t, f, .fma, true, true, fun a b c rdn => b.negate.fma rdn c a⟩
  | .vmin t f => some ⟨t, f, .arith, true, false, fun _ b c _ => minMax false b c⟩
  | .vmax t f => some ⟨t, f, .arith, true, false, fun _ b c _ => minMax true b c⟩
  | .vabs t f => some ⟨t, f, .arith, f.c = 0, false, fun _ b _ _ => (b.withSign false, 0)⟩
  | .vneg t f => some ⟨t, f, .arith, f.c = 0, false, fun _ b _ _ => (b.negate, 0)⟩
  | _ => none

/-- Element n of a register as a value of VTYPE.FMT, with TAN = 0. -/
def valueOf (T : Tile) (r : BitVec 5) (n : Nat) : Exact := laneVal (T.fld F.VTYPE_FMT) T.vt.fxp (T.vreg r.toNat) n

/-- Word `i` of the chain stream from its position now, where STOCH draws. -/
def chainWord (T : Tile) (t : Nat) (draws : Bool) (i : Nat) : Nat :=
  if draws ∧ T.fld F.VTYPE_RMODE = 4 then genWord T t 0 ((T.fld F.VGEN_POS_C_POS + i) % 2 ^ 64) else 0

/-- The functions: their code in R242. -/
def funcOp : Instr → Option (TileIx × F3 × Nat)
  | .vexp t f => some (t, f, 1)
  | .vlog t f => some (t, f, 2)
  | .vrsqrt t f => some (t, f, 3)
  | .vrecip t f => some (t, f, 4)
  | .vsin t f => some (t, f, 5)
  | .vcos t f => some (t, f, 6)
  | .vtanh t f => some (t, f, 7)
  | _ => none

end Sys2Proof.Claims

/-- Arithmetic with TAN = 0 rounds the exact result of each active element once, under VTYPE.RMODE and SAT, with one word of the
chain stream per element under STOCH, and ORs the flags of the active elements into VFLAGS. -/
def Sys2Proof.Claims.ChainArithmeticRoundsOnce : Prop :=
  ∀ (s : State) (i : Instr) (o : Claims.ArithOp),
    let T := s.tile o.t
    let v := T.vt
    let x := fun n => o.val (Claims.valueOf T o.f.a n) (Claims.valueOf T o.f.b n) (Claims.valueOf T o.f.c n) (v.mode == 3)
    let r := fun n => roundNum v.fmt v.fxp v.mode v.sat (Claims.chainWord T o.t o.draws n) (x n).1
    Claims.arithOp i = some o → o.zero = true → v.accepts o.cls = true → v.tan = false → Claims.Takes T 3 4 [] →
    ∃ u T', exec i s = .next u ∧ OnlyTile s o.t u T' ∧ Claims.Completed T T' 3 4 Claims.chainRegs ∧
      Claims.KeepsBut T T' [] [o.f.a.toNat] [] [] ∧ T'.store = T.store ∧
      Claims.LanesWritten T T' o.f.a.toNat o.f.k.toNat v.ew v.ew v.n (fun n => (r n).1) ∧
      T'.fld F.VGEN_POS_C_POS = (T.fld F.VGEN_POS_C_POS + if o.draws ∧ v.mode = 4 then v.n else 0) % 2 ^ 64 ∧
      T'.ctlWord vflagsAddr = (((List.range v.n).filter (activeIn (T.kreg o.f.k.toNat) v.ew)).map
        (fun n => BitVec.ofNat 64 ((x n).2 ||| (r n).2))).foldl (· ||| ·) (T.ctlWord vflagsAddr)

/-- In tangent mode the value of each element is computed as without it, and its derivative by the rule of the operation, with
one rounding: sums and differences of derivatives, and b′ c + b c′ for a product. -/
def Sys2Proof.Claims.TangentsFollowTheirRules : Prop :=
  ∀ (s : State) (i : Instr) (o : Claims.ArithOp),
    let T := s.tile o.t
    let v := T.vt
    let value := fun (r : BitVec 5) n => laneVal v.fmt v.fxp (T.vreg r.toNat) (2 * n)
    let deriv := fun (r : BitVec 5) n => laneVal v.fmt v.fxp (T.vreg r.toNat) (2 * n + 1)
    Claims.arithOp i = some o → v.accepts o.cls = true → v.tan = true → v.mode < 4 → Claims.Takes T 3 4 [] →
    o.draws = true →
    ∃ u T', exec i s = .next u ∧ OnlyTile s o.t u T' ∧ Claims.Completed T T' 3 4 Claims.chainRegs ∧
      Claims.KeepsBut T T' [] [o.f.a.toNat] [] [] ∧ T'.store = T.store ∧
      (∀ n < v.n, activeIn (T.kreg o.f.k.toNat) v.ew n = true →
        lane (T'.vreg o.f.a.toNat) (laneW v.fmt) (2 * n) =
          (roundNum v.fmt v.fxp v.mode v.sat 0 (o.val (value o.f.a n) (value o.f.b n) (value o.f.c n) (v.mode == 3)).1).1 ∧
        lane (T'.vreg o.f.a.toNat) (laneW v.fmt) (2 * n + 1) = (roundNum v.fmt v.fxp v.mode v.sat 0
          (match i with
           | .vadd .. => ((deriv o.f.b n).add (v.mode == 3) (deriv o.f.c n)).1
           | .vsub .. => ((deriv o.f.b n).add (v.mode == 3) (deriv o.f.c n).negate).1
           | .vmul .. => (((deriv o.f.b n).mul (value o.f.c n)).1.add (v.mode == 3) ((value o.f.b n).mul (deriv o.f.c n)).1).1
           | .vfma .. => ((((deriv o.f.b n).mul (value o.f.c n)).1.add (v.mode == 3)
               ((value o.f.b n).mul (deriv o.f.c n)).1).1.add (v.mode == 3) (deriv o.f.a n)).1
           | _ => ((((deriv o.f.b n).negate.mul (value o.f.c n)).1.add (v.mode == 3)
               ((value o.f.b n).negate.mul (deriv o.f.c n)).1).1.add (v.mode == 3) (deriv o.f.a n)).1)).1)

/-- A function of the chain delivers the exact result of R184 and R249 in the lane format: rounded under VTYPE.RMODE, STOCH
acting as RNE, or, for exp, log, sin, cos and tanh in FP64 and EXT80, rounded to one of its neighbours. No word is drawn. -/
def Sys2Proof.Claims.ChainFunctionsAreFaithful : Prop :=
  ∀ (s : State) (i : Instr) (t : TileIx) (f : F3) (fn : Nat),
    let T := s.tile t
    let v := T.vt
    Claims.funcOp i = some (t, f, fn) → f.c = 0 → v.accepts .func = true → v.tan = false → v.mode ≤ 4 → Claims.Takes T 3 4 [] →
    ∃ u T' val, exec i s = .next u ∧ OnlyTile s t u T' ∧ Claims.Completed T T' 3 4 Claims.chainRegs ∧
      Claims.KeepsBut T T' [] [f.a.toNat] [] [] ∧ T'.store = T.store ∧
      Claims.LanesWritten T T' f.a.toNat f.k.toNat v.ew v.ew v.n val ∧
      T'.ctlWord F.VGEN_POS_C_POS.reg = T.ctlWord F.VGEN_POS_C_POS.reg ∧
      (∀ n, ∃ mode < 4, val n = (roundNum v.fmt 0 mode v.sat 0 (funcExact fn (decodeNum v.fmt 0
          (lane (T.vreg f.b.toNat) (laneW v.fmt) n % 2 ^ fmtBits v.fmt))).1).1 ∧
        (fn = 3 ∨ fn = 4 ∨ v.fmt = 1 ∨ v.fmt = 2 ∨ v.fmt = 3 → mode = if v.mode = 4 then 0 else v.mode))

namespace Sys2Proof.Claims

/-- Where a value lies among −∞, the finite values and +∞. -/
def rank : Exact → Int
  | .inf neg => if neg then -1 else 1
  | _ => 0

/-- x < y and x = y of values that are not NaN. -/
def Less (x y : Exact) : Prop := rank x < rank y ∨ rank x = rank y ∧ real x < real y
def Same (x y : Exact) : Prop := rank x = rank y ∧ real x = real y

/-- The compares: when each holds of values that are not NaN. With a NaN only `vcne` holds. -/
def compareOp : Instr → Option (TileIx × F3 × (Exact → Exact → Prop))
  | .vceq t f => some (t, f, fun x y => (¬ x.isNan ∧ ¬ y.isNan) ∧ Same x y)
  | .vcne t f => some (t, f, fun x y => ¬ ((¬ x.isNan ∧ ¬ y.isNan) ∧ Same x y))
  | .vclt t f => some (t, f, fun x y => (¬ x.isNan ∧ ¬ y.isNan) ∧ Less x y)
  | .vcle t f => some (t, f, fun x y => (¬ x.isNan ∧ ¬ y.isNan) ∧ ¬ Less y x)
  | .vcgt t f => some (t, f, fun x y => (¬ x.isNan ∧ ¬ y.isNan) ∧ Less y x)
  | .vcge t f => some (t, f, fun x y => (¬ x.isNan ∧ ¬ y.isNan) ∧ ¬ Less x y)
  | _ => none

/-- The mask operations on all 512 bits. -/
def maskOp : Instr → Option (TileIx × F3 × Bool × (Line → Line → Line))
  | .kand t f => some (t, f, true, fun b c => b &&& c)
  | .kor t f => some (t, f, true, fun b c => b ||| c)
  | .kxor t f => some (t, f, true, fun b c => b ^^^ c)
  | .knot t f => some (t, f, f.c = 0, fun b _ => ~~~b)
  | _ => none

end Sys2Proof.Claims

/-- Compares, mask operations, counts and single elements: what each writes, and that it writes nothing else. A write to k0
is discarded, and k0 reads all ones. -/
def Sys2Proof.Claims.MasksAndElements : Prop :=
  (∀ (s : State) (i : Instr) (t : TileIx) (f : F3) (holds : Exact → Exact → Prop),
    let T := s.tile t
    Claims.compareOp i = some (t, f, holds) → f.a.toNat < 8 → T.vt.accepts .compare = true → Claims.Takes T 3 4 [] →
    ∃ u T', exec i s = .next u ∧ OnlyTile s t u T' ∧ Claims.Completed T T' 3 4 Claims.chainRegs ∧ Claims.KeepsBut T T' [] [] [f.a.toNat] [] ∧
      T'.store = T.store ∧ (f.a = 0 → T'.kreg 0 = T.kreg 0) ∧
      (f.a ≠ 0 → Claims.MaskWritten T T' f.a.toNat f.k.toNat T.vt.ew T.vt.n (fun n =>
        holds (laneVal T.vt.fmt T.vt.fxp (T.vreg f.b.toNat) (T.vt.parts * n)) (laneVal T.vt.fmt T.vt.fxp (T.vreg f.c.toNat) (T.vt.parts * n))))) ∧
  (∀ (s : State) (i : Instr) (t : TileIx) (f : F3) (ok : Bool) (op : Line → Line → Line),
    let T := s.tile t
    Claims.maskOp i = some (t, f, ok, op) → ok = true → f.k = 0 → f.a.toNat < 8 → f.b.toNat < 8 → f.c.toNat < 8 → Claims.Takes T 3 4 [] →
    ∃ u T', exec i s = .next u ∧ OnlyTile s t u T' ∧ Claims.Completed T T' 3 4 Claims.chainRegs ∧ Claims.KeepsBut T T' [] [] [f.a.toNat] [] ∧
      T'.store = T.store ∧ T'.ctlWord vflagsAddr = T.ctlWord vflagsAddr ∧
      T'.kreg f.a.toNat = if f.a = 0 then BitVec.allOnes 512 else op (T.kreg f.b.toNat) (T.kreg f.c.toNat)) ∧
  (∀ (s : State) (t : TileIx) (f : F3),
    let T := s.tile t
    let l := (List.range T.vt.n).filter (activeIn (T.kreg f.b.toNat) T.vt.ew)
    f.c = 0 → f.k = 0 → f.b.toNat < 8 →
    (Claims.Takes T 3 4 [f.a.toNat] →
      ∃ u T', exec (.kpop t f) s = .next u ∧ OnlyTile s t u T' ∧ Claims.Completed T T' 3 4 Claims.chainRegs ∧
        Claims.KeepsBut T T' [f.a.toNat] [] [] [] ∧ T'.sreg f.a.toNat = if f.a = 0 then 0 else BitVec.ofNat 64 l.length) ∧
    (Claims.Takes T 3 4 [f.a.toNat] →
      ∃ u T', exec (.kfirst t f) s = .next u ∧ OnlyTile s t u T' ∧ Claims.Completed T T' 3 4 Claims.chainRegs ∧
        Claims.KeepsBut T T' [f.a.toNat] [] [] [] ∧ T'.sreg f.a.toNat = if f.a = 0 then 0 else BitVec.ofNat 64 (l.headD T.vt.n))) ∧
  (∀ (s : State) (t : TileIx) (f : F3),
    let T := s.tile t
    let n := (T.sreg f.c.toNat).toNat
    f.k = 0 → T.vt.accepts .move = true →
    (Claims.Takes T 3 4 [f.a.toNat, f.c.toNat] →
      ∃ u T', exec (.vextr t f) s = .next u ∧ OnlyTile s t u T' ∧ Claims.Completed T T' 3 4 Claims.chainRegs ∧
        Claims.KeepsBut T T' [f.a.toNat] [] [] [] ∧
        T'.sreg f.a.toNat = if f.a = 0 ∨ T.vt.n ≤ n then 0 else BitVec.ofNat 64 (Claims.element T f.b n)) ∧
    (Claims.Takes T 3 4 [f.b.toNat, f.c.toNat] →
      ∃ u T', exec (.vins t f) s = .next u ∧ OnlyTile s t u T' ∧ Claims.Completed T T' 3 4 Claims.chainRegs ∧
        Claims.KeepsBut T T' [] [f.a.toNat] [] [] ∧ ∀ m, (m + 1) * T.vt.ew ≤ 4096 → lane (T'.vreg f.a.toNat) T.vt.ew m =
          if m = n ∧ n < T.vt.n then (T.sreg f.b.toNat).toNat % 2 ^ T.vt.ew else lane (T.vreg f.a.toNat) T.vt.ew m))

/-- `vsetvl` with an image whose fields are all accepted makes it VTYPE, with VL the smaller of sB and the most elements of
that type, which also goes to sA. -/
def Sys2Proof.Claims.VsetvlResults : Prop :=
  ∀ (s : State) (t : TileIx) (f : F3),
    let T := s.tile t
    let img := (T.sreg f.c.toNat).toNat
    let fmt := bitsOf img 10 4
    let tan := bitsOf img 19 1
    let vl := min (T.sreg f.b.toNat).toNat (4096 / (laneW fmt * (tan + 1)))
    f.k = 0 → fmt ∈ [0, 1, 2, 3, 4, 5, 7, 8, 10, 11] → bitsOf img 14 3 ≤ 4 → (tan = 1 → fmt ≤ 1) → img < 2 ^ 28 →
    Claims.Takes T 3 4 [f.a.toNat, f.b.toNat, f.c.toNat] →
    ∃ u T', exec (.vsetvl t f) s = .next u ∧ OnlyTile s t u T' ∧ Claims.Completed T T' 3 4 (F.VTYPE_VL.reg :: Claims.chainRegs) ∧
      Claims.KeepsBut T T' [f.a.toNat] [] [] [] ∧ T'.store = T.store ∧
      T'.ctlWord F.VTYPE_VL.reg = BitVec.ofNat 64 (img / 1024 * 1024 + vl) ∧
      T'.sreg f.a.toNat = if f.a = 0 then 0 else BitVec.ofNat 64 vl

namespace Sys2Proof.Claims

/-- The destination format of the widening and dot operations (R245), and elements of the source per destination element. -/
def wideTo (src : Nat) : Nat × Nat := if src = 1 then (0, 2) else if src = 8 then (10, 4) else if src ≤ 3 then (1, 2) else (1, 4)

/-- The widening multiplies: whether from source elements N + n, and whether the destination element is added. -/
def widenOp : Instr → Option (TileIx × F3 × Bool × Bool)
  | .vwmul t f => some (t, f, false, false)
  | .vwmulh t f => some (t, f, true, false)
  | .vwfma t f => some (t, f, false, true)
  | .vwfmah t f => some (t, f, true, true)
  | _ => none

end Sys2Proof.Claims

/-- Conversions, widening multiplies and dot products round each exact result once into the destination format. -/
def Sys2Proof.Claims.ConversionsAndProducts : Prop :=
  (∀ (s : State) (i : Instr) (t : TileIx) (f : F3) (high add : Bool),
    let T := s.tile t
    let v := T.vt
    let df := (Claims.wideTo v.fmt).1
    let N := min v.vl (4096 / laneW df)
    Claims.widenOp i = some (t, f, high, add) → v.fmt ∈ [1, 2, 3] → v.tan = false → v.mode < 4 → Claims.Takes T 3 4 [] →
    ∃ u T', exec i s = .next u ∧ OnlyTile s t u T' ∧ Claims.Completed T T' 3 4 Claims.chainRegs ∧ Claims.KeepsBut T T' [] [f.a.toNat] [] [] ∧
      T'.store = T.store ∧ Claims.LanesWritten T T' f.a.toNat f.k.toNat (laneW df) (laneW df) N (fun n =>
        let p := ((laneVal v.fmt 0 (T.vreg f.b.toNat) (if high then N + n else n)).mul
          (laneVal v.fmt 0 (T.vreg f.c.toNat) (if high then N + n else n))).1
        (roundNum df 0 v.mode v.sat 0 (if add then (p.add (v.mode == 3) (laneVal df 0 (T.vreg f.a.toNat) n)).1 else p)).1)) ∧
  (∀ (s : State) (t : TileIx) (f : F3),
    let T := s.tile t
    let v := T.vt
    let df := (Claims.wideTo v.fmt).1
    let g := (Claims.wideTo v.fmt).2
    let N := min v.vl (4096 / laneW df)
    v.fmt ∈ [1, 2, 3, 4, 5, 8] → v.tan = false → v.mode < 4 → Claims.Takes T 3 4 [] →
    ∃ u T', exec (.vdot t f) s = .next u ∧ OnlyTile s t u T' ∧ Claims.Completed T T' 3 4 Claims.chainRegs ∧
      Claims.KeepsBut T T' [] [f.a.toNat] [] [] ∧ T'.store = T.store ∧
      Claims.LanesWritten T T' f.a.toNat f.k.toNat (laneW df) (laneW df) N (fun n =>
        (roundNum df 0 v.mode v.sat 0 ((List.range g).foldl (fun x j => (x.add (v.mode == 3)
          ((laneVal v.fmt 0 (T.vreg f.b.toNat) (g * n + j)).mul (laneVal v.fmt 0 (T.vreg f.c.toNat) (g * n + j))).1).1)
          (laneVal df 0 (T.vreg f.a.toNat) n))).1)) ∧
  (∀ (s : State) (t : TileIx) (f : F3) (p : BitVec 3),
    let T := s.tile t
    let v := T.vt
    let src := f.c.toNat % 16
    let part := p.toNat + 8 * (f.c.toNat / 16)
    let ws := laneW src
    let wd := laneW v.fmt
    let N := min v.vl (4096 / max ws wd)
    src ∈ [0, 1, 2, 3, 4, 5, 7, 8, 10, 11] → v.accepts .cvt = true → v.tan = false → v.mode < 4 → part < max ws wd / min ws wd →
    Claims.Takes T 3 4 [] →
    ∃ u T', exec (.cvt t f p) s = .next u ∧ OnlyTile s t u T' ∧ Claims.Completed T T' 3 4 Claims.chainRegs ∧
      Claims.KeepsBut T T' [] [f.a.toNat] [] [] ∧ T'.store = T.store ∧
      (∀ n < N, activeIn (T.kreg f.k.toNat) (max ws wd) n = true →
        lane (T'.vreg f.a.toNat) wd (if wd < ws then part * N + n else n) =
          (roundNum v.fmt v.fxp v.mode v.sat 0 (laneVal src v.fxp (T.vreg f.b.toNat) (if ws < wd then part * N + n else n))).1 % 2 ^ wd) ∧
      (∀ m, (m + 1) * wd ≤ 4096 → (∀ n < N, m ≠ if wd < ws then part * N + n else n) →
        lane (T'.vreg f.a.toNat) wd m = lane (T.vreg f.a.toNat) wd m))


/-! ## Reductions, memory, random words, configured chains, tile programs -/

namespace Sys2Proof.Claims

/-- The value of a finite element on the grid of a root, as a multiple of 2^−2148: what lies below is rounded off (R250). -/
def gridValue (x : Exact) : ℚ := real (toRootGrid x).1

/-- A finite value small enough that the sum of 512 of them stays in the range of a root. -/
def Summable (x : Exact) : Prop := (∃ s n d e, x = .fin s n d e) ∧ -(2 : ℚ) ^ 2100 ≤ real x ∧ real x ≤ (2 : ℚ) ^ 2100

/-- The active elements below N under mask kK. -/
def actives (T : Tile) (k ew N : Nat) : List Nat := (List.range N).filter (activeIn (T.kreg k) ew)

/-- The element-wise order reductions: the code of their kind, and when the first value beats the second. -/
def winOp : Instr → Option (TileIx × F3 × Nat × (ℚ → ℚ) × Bool)
  | .vredmax t f => some (t, f, 1, id, true)
  | .vredmin t f => some (t, f, 2, id, false)
  | .vredamax t f => some (t, f, 3, abs, true)
  | _ => none

end Sys2Proof.Claims

/-- `vredsum` and `vreddot` add the values, or the products, of the active elements to the root exactly. -/
def Sys2Proof.Claims.SumsAreExact : Prop :=
  (∀ (s : State) (t : TileIx) (f : F3),
    let T := s.tile t
    let v := T.vt
    let r := f.a.toNat
    let old := if (T.root r).kind = 0 then (T.root r).acc else ⟨0, .none⟩
    let x := fun n => laneVal v.fmt v.fxp (T.vreg f.b.toNat) n
    r < 2 → f.c = 0 → v.fmt ∈ [0, 1, 2, 3, 8, 10, 11] → v.tan = false → Claims.Takes T 3 4 [] →
    old.sp = .none → -(2 ^ 4280 : Int) ≤ old.z → old.z ≤ 2 ^ 4280 →
    (∀ n ∈ Claims.actives T f.k.toNat v.ew v.n, Claims.Summable (x n)) →
    ∃ u T', exec (.vredsum t f) s = .next u ∧ OnlyTile s t u T' ∧ Claims.Completed T T' 3 4 Claims.chainRegs ∧
      Claims.KeepsBut T T' [] [] [] [r] ∧ T'.store = T.store ∧ (T'.root r).kind = 0 ∧ (T'.root r).acc.sp = .none ∧
      ((T'.root r).acc.z : ℚ) = old.z + 2 ^ 2148 * ((Claims.actives T f.k.toNat v.ew v.n).map (fun n => Claims.gridValue (x n))).sum) ∧
  (∀ (s : State) (t : TileIx) (f : F3),
    let T := s.tile t
    let v := T.vt
    let r := f.a.toNat
    let old := if (T.root r).kind = 0 then (T.root r).acc else ⟨0, .none⟩
    let x := fun n => laneVal v.fmt v.fxp (T.vreg f.b.toNat) n
    let y := fun n => laneVal v.fmt v.fxp (T.vreg f.c.toNat) n
    r < 2 → v.fmt ∈ [0, 1, 2, 3, 4, 5, 8, 10] → v.tan = false → Claims.Takes T 3 4 [] →
    old.sp = .none → -(2 ^ 4280 : Int) ≤ old.z → old.z ≤ 2 ^ 4280 →
    (∀ n ∈ Claims.actives T f.k.toNat v.ew v.n, Claims.Summable (x n) ∧ Claims.Summable (y n)) →
    ∃ u T', exec (.vreddot t f) s = .next u ∧ OnlyTile s t u T' ∧ Claims.Completed T T' 3 4 Claims.chainRegs ∧
      Claims.KeepsBut T T' [] [] [] [r] ∧ T'.store = T.store ∧ (T'.root r).kind = 0 ∧ (T'.root r).acc.sp = .none ∧
      ((T'.root r).acc.z : ℚ) = old.z + 2 ^ 2148 * ((Claims.actives T f.k.toNat v.ew v.n).map
        (fun n => Claims.real (x n) * Claims.real (y n))).sum)

/-- `vredmax`, `vredmin` and `vredamax` over finite values leave the winner in the root: a value of an active element, or of
the root before where it had that kind, that none of them beats. -/
def Sys2Proof.Claims.ReductionsKeepTheWinner : Prop :=
  ∀ (s : State) (i : Instr) (t : TileIx) (f : F3) (kind : Nat) (of : ℚ → ℚ) (most : Bool),
    let T := s.tile t
    let v := T.vt
    let r := f.a.toNat
    let l := (Claims.actives T f.k.toNat v.ew v.n).map (fun n => of (Claims.gridValue (laneVal v.fmt v.fxp (T.vreg f.b.toNat) n)))
    Claims.winOp i = some (t, f, kind, of, most) → r < 2 → f.c = 0 → v.fmt ∈ [0, 1, 2, 3, 8, 10, 11] → v.tan = false →
    Claims.Takes T 3 4 [] → (T.root r).kind ≠ kind → l ≠ [] →
    (∀ n ∈ Claims.actives T f.k.toNat v.ew v.n, Claims.Summable (laneVal v.fmt v.fxp (T.vreg f.b.toNat) n)) →
    ∃ u T' x, exec i s = .next u ∧ OnlyTile s t u T' ∧ Claims.Completed T T' 3 4 Claims.chainRegs ∧
      Claims.KeepsBut T T' [] [] [] [r] ∧ T'.store = T.store ∧ (T'.root r).kind = kind ∧ (T'.root r).acc.sp = .none ∧
      ((T'.root r).acc.z : ℚ) = 2 ^ 2148 * x ∧ (x ∈ l ∨ kind = 3 ∧ x = 0 ∧ ∀ y ∈ l, y = 0) ∧
      ∀ y ∈ l, if most then y ≤ x else x ≤ y

/-- `vrclr` sets a root to the initial value of a kind. `vrdrain` and `vrdrainv` round a root once, without STOCH, to VTYPE.FMT,
and keep it or set it to the initial value of its kind; a winner that is −0 drains as −0. -/
def Sys2Proof.Claims.RootsClearAndDrain : Prop :=
  ∀ (s : State) (t : TileIx) (f : F3),
    let T := s.tile t
    let v := T.vt
    let init := fun kind => if kind = 1 then (⟨0, .negInf⟩ : Lacc) else if kind = 2 then ⟨0, .posInf⟩ else ⟨0, .none⟩
    f.k = 0 →
    (f.a.toNat < 2 → f.b = 0 → f.c.toNat < 4 → Claims.Takes T 3 4 [] →
      ∃ u T', exec (.vrclr t f) s = .next u ∧ OnlyTile s t u T' ∧ Claims.Completed T T' 3 4 Claims.chainRegs ∧
        Claims.KeepsBut T T' [] [] [] [f.a.toNat] ∧ T'.store = T.store ∧
        (T'.root f.a.toNat).kind = f.c.toNat ∧ (T'.root f.a.toNat).acc = init f.c.toNat ∧ (T'.root f.a.toNat).nz = false) ∧
    (let R := T.root f.b.toNat
     let x := (roundNum v.fmt v.fxp v.mode v.sat 0 (if R.nz then .fin true 0 1 0 else R.acc.value)).1
     f.b.toNat < 2 → f.c.toNat < 2 → v.tan = false → v.mode < 4 →
      (v.fmt ∈ [0, 1, 2, 3, 4, 5, 8, 10] → Claims.Takes T 3 4 [f.a.toNat] →
        ∃ u T', exec (.vrdrain t f) s = .next u ∧ OnlyTile s t u T' ∧ Claims.Completed T T' 3 4 Claims.chainRegs ∧
          Claims.KeepsBut T T' [f.a.toNat] [] [] [f.b.toNat] ∧ T'.store = T.store ∧
          T'.sreg f.a.toNat = (if f.a = 0 then 0 else BitVec.ofNat 64 x) ∧ (T'.root f.b.toNat).kind = R.kind ∧
          (T'.root f.b.toNat).acc = (if f.c = 1 then R.acc else init R.kind) ∧
          (T'.root f.b.toNat).nz = (f.c == 1 && R.nz)) ∧
      (v.fmt ∈ [0, 1, 2, 3, 11] → Claims.Takes T 3 4 [] →
        ∃ u T', exec (.vrdrainv t f) s = .next u ∧ OnlyTile s t u T' ∧ Claims.Completed T T' 3 4 Claims.chainRegs ∧
          Claims.KeepsBut T T' [] [f.a.toNat] [] [f.b.toNat] ∧ T'.store = T.store ∧
          lane (T'.vreg f.a.toNat) (laneW v.fmt) 0 = x % 2 ^ laneW v.fmt ∧
          (∀ m, 0 < m → (m + 1) * laneW v.fmt ≤ 4096 →
            lane (T'.vreg f.a.toNat) (laneW v.fmt) m = lane (T.vreg f.a.toNat) (laneW v.fmt) m) ∧
          (T'.root f.b.toNat).kind = R.kind ∧ (T'.root f.b.toNat).acc = (if f.c = 1 then R.acc else init R.kind) ∧
          (T'.root f.b.toNat).nz = (f.c == 1 && R.nz)))

/-- `vrexport` writes the record of a root of kind sum at sC, and its bytes to sA; `vrimport` of such a record makes the root
that value, or adds it. Exporting a root and importing the record restores it exactly. -/
def Sys2Proof.Claims.RootRecordsRestore : Prop :=
  ∀ (s : State) (t : TileIx) (f : F3),
    let T := s.tile t
    f.k = 0 →
    (let R := T.root f.b.toNat
     let a := (T.sreg f.c.toNat).toNat
     f.b.toNat < 2 → R.kind = 0 → a % 8 = 0 → a + 544 ≤ 0x300000 → laccInRange R.acc.z = true → (R.acc.sp ≠ .none → R.acc.z = 0) →
     Claims.Takes T 3 4 [f.a.toNat, f.c.toNat] →
      ∃ u T' n, exec (.vrexport t f) s = .next u ∧ OnlyTile s t u T' ∧ Claims.Completed T T' 3 4 (F.SOLV_READY_READY.reg :: Claims.chainRegs) ∧
        Claims.KeepsBut T T' [f.a.toNat] [] [] [f.b.toNat] ∧ T'.sreg f.a.toNat = (if f.a = 0 then 0 else BitVec.ofNat 64 n) ∧
        n = 8 * (1 + Claims.littleEndian T'.store a 8 / 2 ^ 8 % 2 ^ 7) ∧ n ≤ 544 ∧
        recCanonical (Claims.littleEndian T'.store a 8) (Claims.littleEndian T'.store (a + 8) (n - 8)) = true ∧
        recValue (Claims.littleEndian T'.store a 8) (Claims.littleEndian T'.store (a + 8) (n - 8)) = R.acc.value ∧
        (∀ x, x < a ∨ a + n ≤ x → memByte T'.store x = memByte T.store x) ∧ (T'.root f.b.toNat).acc = R.acc) ∧
    (let R := T.root f.a.toNat
     let a := (T.sreg f.b.toNat).toNat
     let hdr := Claims.littleEndian T.store a 8
     let n := 8 * (1 + hdr / 2 ^ 8 % 2 ^ 7)
     ∀ z : Int, f.a.toNat < 2 → f.c.toNat < 2 → (f.c = 1 → R.kind = 0 ∧ R.acc.sp = .none ∧ laccInRange (R.acc.z + z) = true) →
      laccInRange z = true → a % 8 = 0 → a + n ≤ 0x300000 → T.hasUE a n = false →
      recCanonical hdr (Claims.littleEndian T.store (a + 8) (n - 8)) = true →
      recValue hdr (Claims.littleEndian T.store (a + 8) (n - 8)) = Exact.ofInt z (-2148) → Claims.Takes T 3 4 [f.b.toNat] →
      ∃ u T', exec (.vrimport t f) s = .next u ∧ OnlyTile s t u T' ∧ Claims.Completed T T' 3 4 Claims.chainRegs ∧
        Claims.KeepsBut T T' [] [] [] [f.a.toNat] ∧ T'.store = T.store ∧ (T'.root f.a.toNat).kind = 0 ∧
        (T'.root f.a.toNat).acc = ⟨if f.c = 1 then R.acc.z + z else z, .none⟩)

namespace Sys2Proof.Claims

/-- The chain's loads and stores: the scalar registers they read, the reserved C, the element width, and the address of
element n, modulo 2^64 (R238). -/
structure VMem where
  t : TileIx
  f : F3
  load : Bool
  regs : List Nat
  zero : Bool
  ew : Nat
  addr : Nat → Nat

/-- A value modulo 2^64. -/
def mod64 (x : Int) : Nat := (x % 2 ^ 64).toNat

/-- The accesses. -/
def vmem (T : Tile) : Instr → Option VMem
  | .vld t f => some ⟨t, f, true, [f.b.toNat], f.c = 0, T.vt.ew,
      fun n => mod64 ((T.sreg f.b.toNat).toNat + n * (T.vt.ew / 8) : Nat)⟩
  | .vst t f => some ⟨t, f, false, [f.b.toNat], f.c = 0, T.vt.ew,
      fun n => mod64 ((T.sreg f.b.toNat).toNat + n * (T.vt.ew / 8) : Nat)⟩
  | .vlds t f => some ⟨t, f, true, [f.b.toNat, f.c.toNat], true, T.vt.ew,
      fun n => mod64 ((T.sreg f.b.toNat).toNat + n * (T.sreg f.c.toNat).toInt)⟩
  | .vsts t f => some ⟨t, f, false, [f.b.toNat, f.c.toNat], true, T.vt.ew,
      fun n => mod64 ((T.sreg f.b.toNat).toNat + n * (T.sreg f.c.toNat).toInt)⟩
  | .vgather t f => some ⟨t, f, true, [f.b.toNat], true, max T.vt.ew 32,
      fun n => mod64 ((T.sreg f.b.toNat).toNat + (BitVec.ofNat 32 (lane (T.vreg f.c.toNat) 32 n)).toInt * (T.vt.ew / 8 : Nat))⟩
  | .vscatter t f => some ⟨t, f, false, [f.b.toNat], true, max T.vt.ew 32,
      fun n => mod64 ((T.sreg f.b.toNat).toNat + (BitVec.ofNat 32 (lane (T.vreg f.c.toNat) 32 n)).toInt * (T.vt.ew / 8 : Nat))⟩
  | _ => none

end Sys2Proof.Claims

/-- The chain's loads and stores, where every active element's address is aligned and in the tile store: each active lane is
loaded from its address, or stored there, the highest element prevailing, and no other byte changes. -/
def Sys2Proof.Claims.ChainMemoryResults : Prop :=
  ∀ (s : State) (i : Instr) (t : TileIx) (o : Claims.VMem),
    let T := s.tile t
    let w := T.vt.ew / 8
    let N := min T.vt.vl (4096 / o.ew)
    let l := Claims.actives T o.f.k.toNat o.ew N
    Claims.vmem T i = some o → o.t = t → o.zero = true → T.vt.accepts .move = true → Claims.Takes T 3 4 o.regs →
    (∀ n ∈ l, o.addr n % (laneW T.vt.fmt / 8) = 0 ∧ o.addr n + w ≤ 0x300000 ∧ (o.load = true → T.hasUE (o.addr n) w = false)) →
    ∃ u T', exec i s = .next u ∧ OnlyTile s t u T' ∧ Claims.Completed T T' 3 4 (F.SOLV_READY_READY.reg :: Claims.chainRegs) ∧
      (o.load = true → Claims.KeepsBut T T' [] [o.f.a.toNat] [] [] ∧ T'.store = T.store ∧
        Claims.LanesWritten T T' o.f.a.toNat o.f.k.toNat o.ew T.vt.ew N (fun n => Claims.littleEndian T.store (o.addr n) w)) ∧
      (o.load = false → Claims.KeepsBut T T' [] [] [] [] ∧
        (∀ n ∈ l, (∀ m ∈ l, n < m → o.addr n + w ≤ o.addr m ∨ o.addr m + w ≤ o.addr n) →
          Claims.littleEndian T'.store (o.addr n) w = lane (T.vreg o.f.a.toNat) T.vt.ew n) ∧
        (∀ x, (∀ n ∈ l, x < o.addr n ∨ o.addr n + w ≤ x) → memByte T'.store x = memByte T.store x))

/-- `vrand` writes one word of the chain stream to each active 32-bit element, every element below N taking one word; `vphilox`
applies Philox-4×32-10, keyed by sC, to each of the 32 groups of 128 bits of vB, whatever VL and the mask. -/
def Sys2Proof.Claims.RandomWords : Prop :=
  ∀ (s : State) (t : TileIx) (f : F3),
    let T := s.tile t
    T.vt.fmt ∈ [0, 1, 2, 3, 10] → T.vt.tan = false →
    (let N := min T.vt.vl 128
     f.b = 0 → f.c = 0 → Claims.Takes T 3 4 [] →
      ∃ u T', exec (.vrand t f) s = .next u ∧ OnlyTile s t u T' ∧ Claims.Completed T T' 3 4 Claims.chainRegs ∧
        Claims.KeepsBut T T' [] [f.a.toNat] [] [] ∧ T'.store = T.store ∧ T'.ctlWord vflagsAddr = T.ctlWord vflagsAddr ∧
        T'.fld F.VGEN_POS_C_POS = (T.fld F.VGEN_POS_C_POS + N) % 2 ^ 64 ∧
        Claims.LanesWritten T T' f.a.toNat f.k.toNat 32 32 N (fun n =>
          let q := (T.fld F.VGEN_POS_C_POS + n) % 2 ^ 64
          pick4 (philox (T.ctlWord F.VGEN_KEY_KEY.reg).toNat
            (q / 4 % 2 ^ 32, q / 4 / 2 ^ 32 % 2 ^ 32, T.fld F.VGEN_STREAM_STREAM, t.val)) (q % 4))) ∧
    (f.k = 0 → Claims.Takes T 3 4 [f.c.toNat] →
      ∃ u T', exec (.vphilox t f) s = .next u ∧ OnlyTile s t u T' ∧ Claims.Completed T T' 3 4 Claims.chainRegs ∧
        Claims.KeepsBut T T' [] [f.a.toNat] [] [] ∧ T'.store = T.store ∧
        T'.ctlWord F.VGEN_POS_C_POS.reg = T.ctlWord F.VGEN_POS_C_POS.reg ∧
        (∀ g < 32, ∀ j < 4, lane (T'.vreg f.a.toNat) 32 (4 * g + j) =
          pick4 (philox (T.sreg f.c.toNat).toNat (lane (T.vreg f.b.toNat) 32 (4 * g), lane (T.vreg f.b.toNat) 32 (4 * g + 1),
            lane (T.vreg f.b.toNat) 32 (4 * g + 2), lane (T.vreg f.b.toNat) 32 (4 * g + 3))) j % 2 ^ 32))

/-- A configured chain from register to register, without STOCH, that uses the load, FMA and quantise stages: each active
element is converted to AFMT, multiplied by MOP and added to AOP with one rounding where FMA is on, and quantised to QFMT. -/
def Sys2Proof.Claims.ConfiguredChainPasses : Prop :=
  ∀ (s : State) (t : TileIx) (f : FX) (minor : BitVec 5),
    let T := s.tile t
    let c := ccOf T ⟨f.a.toNat, f.b.toNat, f.c.toNat, f.k.toNat, minor.toNat, f.w1.toNat⟩
    let ew := max (max (laneW c.lfmt) (laneW c.afmt)) (laneW c.qfmt)
    let N := min T.vt.vl (4096 / ew)
    let inA := fun (x : Exact) => decodeNum c.afmt c.afxp (roundNum c.afmt c.afxp c.armode c.asat 0 x).1
    let reg := fun (r n : Nat) => laneVal c.afmt c.afxp (T.vreg r) n
    minor.toNat % 16 = 0 → f.c = 0 → c.refused f.k.toNat = false → c.tan = false → c.fma < 2 → c.scl = 0 → c.func = 0 → c.cmp = 0 →
    c.red = 0 → c.armode < 4 → c.qrmode < 4 → c.qmx = false → Claims.Takes T 3 8 [] →
    ∃ u T', exec (.vchain t f minor) s = .next u ∧ OnlyTile s t u T' ∧ Claims.Completed T T' 3 8 Claims.chainRegs ∧
      Claims.KeepsBut T T' [] [f.a.toNat] [] [] ∧ T'.store = T.store ∧
      Claims.LanesWritten T T' f.a.toNat f.k.toNat ew (laneW c.qfmt) N (fun n =>
        let x := inA (laneVal c.lfmt c.lfxp (T.vreg f.b.toNat) n)
        let y := if c.fma = 1 then inA (((x.mul (reg c.mop n)).1.add (c.armode == 3) (reg c.aop n)).1) else x
        (roundNum c.qfmt c.qfxp c.qrmode c.qsat 0 y).1)

/-- `tprog` whose checks pass becomes pending and remembers its operands; the run of a program without a preamble whose one
body instruction is `vbcast` from a slot of its frame fills the vector register, writes f16 to f27 back with the cursors
advanced, counts the run, and ends. -/
def Sys2Proof.Claims.TilePrograms : Prop :=
  ∀ (s : State) (t : TileIx),
    let T := s.tile t
    (∀ f : FX, f.k = 0 → f.w1 = 0 → Claims.Takes T 3 8 [f.a.toNat, f.b.toNat, f.c.toNat] →
      (T.tprogCheck (T.sreg f.a.toNat) (T.sreg f.b.toNat) (T.sreg f.c.toNat) (FXw f 0x32 0x40) 0).2 = none →
      ∃ u T' r, exec (.tprog t f) s = .next u ∧ OnlyTile s t u T' ∧ Claims.Completed T T' 3 8 Claims.chainRegs ∧
        Claims.KeepsBut T T' [] [] [] [] ∧ T'.store = T.store ∧ T'.run = some r ∧ r.epilogue = false ∧
        r.prog = (T.sreg f.b.toNat).toNat ∧ r.frame = (T.sreg f.c.toNat).toNat ∧
        r.win = (T.sreg f.a.toNat).toNat % 2 ^ 22 ∧ r.winSize = (T.sreg f.a.toNat).toNat / 2 ^ 24 % 2 ^ 22) ∧
    (∀ (r : ProgRun) (a b : Nat), T.run = some r → r.epilogue = false → a < 32 → b < 32 → b ≠ 0 →
      T.mq = [] → T.cq = [] → T.xq = [] → T.reqs = [] →
      T.header r.prog = ⟨1, 0, 1, false, 1, 0⟩ → T.peek (r.prog + 8) 4 = packWord 0x31 a b 0 0 0x02 → T.vt.accepts .move = true → T.vt.tan = false →
      r.frame + 256 ≤ 0x300000 →
      let fr := T.readFrame r.frame
      ∃ u T', exec (.tileProgramRun t) s = .next u ∧ OnlyTile s t u T' ∧ T'.run = none ∧ T'.pc = T.pc ∧
        Claims.KeepsBut T T' [] [a] [] [] ∧
        Claims.LanesWritten T T' a 0 T.vt.ew T.vt.ew T.vt.n (fun _ => (slotOf fr b).toNat) ∧
        T'.fld F.TPROG_RUNS_RUNS = min (T.fld F.TPROG_RUNS_RUNS + 1) (2 ^ 32 - 1) ∧
        (∀ j, 16 ≤ j → j < 24 → Claims.littleEndian T'.store (r.frame + 8 * j) 8 = (slotOf fr j).toNat) ∧
        (∀ j, 24 ≤ j → j < 28 → Claims.littleEndian T'.store (r.frame + 8 * j) 8 = (slotOf fr j + slotOf fr (j + 4)).toNat) ∧
        (∀ x, x < r.frame + 128 ∨ r.frame + 224 ≤ x → memByte T'.store x = memByte T.store x))

/-- The accumulator instructions in a pending run that accepts them. `vacc` rounds the outputs of a row once into the lanes of
vA; `vaccred` with scope 1 reduces every active output into a root; `vrscale` in mode 0 makes the scale of a root's value and
the power of two that undoes it; `vaccrel` in the last group releases the array. Where no run is pending each raises ILLEGAL, sub-code 1,
with both its words in EXC_INFO. -/
def Sys2Proof.Claims.AccumulatorInstructions : Prop :=
  ∀ (s : State) (t : TileIx) (f : FX) (g : BitVec 7),
    let T := s.tile t
    (∀ (p : BitVec 13) (i : Instr) (minor : Nat),
      (i, minor) ∈ [(.vacc t f g, 0x41), (.vaccred t f g, 0x42), (.vrscale t ⟨f, p⟩, 0x43), (.vaccrel t f g, 0x44)] →
      T.run = none → T.fld F.TILE_STATUS_MODE = 0 → T.events.fenced = none → T.ready [0] = true →
      (∀ x ∈ T.ue, x < T.pc.toNat ∨ T.pc.toNat + 8 ≤ x) → (i = .vaccrel t f g → T.mq = [] ∧ T.cq = [] ∧ T.xq = [] ∧ T.reqs = []) →
      ∃ u T', exec i s = .next u ∧ OnlyTile s t u T' ∧ Claims.Entered T T' 1 0 1 false T.pc T.pc
        (Claims.wordInfo (FXw f 0x32 minor + 2 ^ 32 * f.w1.toNat)) [(wasteFld 3).reg, F.SLOT_HANDLER_COUNT.reg]) ∧
    (∀ r : ProgRun, T.run = some r → r.epilogue = true →
      let h := T.header r.prog
      let d := r.desc
      let q := drainRnd d
      let na := Claims.mCols d
      h.epilogue = true → r.released = false → g.toNat < ceilDiv (Claims.mRows d) h.g →
      (f.b = 0 → f.c = 0 → f.w1.toNat < h.g → h.g ≤ 64 → f.w1.toNat < 64 → q.mode < 4 →
        let w := laneW q.fmt
        let first := (g.toNat * h.g + f.w1.toNat) * na
        let N := min T.vt.vl (4096 / w)
        first + N ≤ Claims.mRows d * na →
        ∃ u T', exec (.vacc t f g) s = .next u ∧ OnlyTile s t u T' ∧ Claims.KeepsBut T T' [] [f.a.toNat] [] [] ∧ T'.pc = T.pc ∧ T'.ctl = T.ctl ∧
          T'.store = T.store ∧ Claims.LanesWritten T T' f.a.toNat f.k.toNat w w N (fun n =>
            (roundNum q.fmt q.fxp q.mode q.sat 0
              (T.laccAt (cellOf (Claims.mShape d) ((first + n) / na) ((first + n) % na))).value).1)) ∧
      (f.a.toNat < 2 → f.b = 0 → f.k = 0 → f.c = 0 → f.w1 = 1 →
        (∀ cell, (T.laccAt cell).sp = .none ∧ -(2 ^ 4270 : Int) ≤ (T.laccAt cell).z ∧ (T.laccAt cell).z ≤ 2 ^ 4270) →
        ∃ u T', exec (.vaccred t f g) s = .next u ∧ OnlyTile s t u T' ∧ Claims.KeepsBut T T' [] [] [] [f.a.toNat] ∧ T'.pc = T.pc ∧
          T'.store = T.store ∧ (T'.root f.a.toNat).kind = 0 ∧ (T'.root f.a.toNat).acc =
            ⟨((outputsOf (Claims.mRows d) na).map (fun rc => (T.laccAt (cellOf (Claims.mShape d) rc.1 rc.2)).z)).sum, .none⟩) ∧
      (f.a = 0 → f.b = 0 → f.c = 0 → f.k = 0 → f.w1 = 0 → g.toNat + 1 = ceilDiv (Claims.mRows d) h.g →
        T.mq = [] → T.cq = [] → T.xq = [] → T.reqs = [] →
        ∃ u T', exec (.vaccrel t f g) s = .next u ∧ OnlyTile s t u T' ∧ T'.run = some { r with released := true } ∧
          (∀ cell, T'.laccAt cell = if r.keep then T.laccAt cell else ⟨0, .none⟩) ∧ T'.ctl = T.ctl ∧ T'.store = T.store)) ∧
    (∀ (r : ProgRun) (p : BitVec 13) (x : Nat) (k : Int), T.run = some r →
      p.toNat < (if r.epilogue then ceilDiv (Claims.mRows r.desc) (T.header r.prog).g else (T.header r.prog).iter) →
      f.b.toNat < 2 → f.c = 0 → 16 ≤ x → x < 24 → f.w1.toNat = 4 + 32 * x →
      (T.root f.b.toNat).acc.sp = .none → (2 : ℚ) ^ (k + 2148) ≤ |((T.root f.b.toNat).acc.z : ℚ)| →
      |((T.root f.b.toNat).acc.z : ℚ)| < (2 : ℚ) ^ (k + 2149) → -119 ≤ k → k ≤ 135 → T.vt.fmt = 1 → T.vt.tan = false → f.k = 0 →
      ∃ u T', exec (.vrscale t ⟨f, p⟩) s = .next u ∧ OnlyTile s t u T' ∧ Claims.KeepsBut T T' [] [f.a.toNat] [] [] ∧
        Claims.littleEndian T'.store (r.frame + 8 * x) 8 = (k - 8 + 127).toNat ∧
        Claims.LanesWritten T T' f.a.toNat 0 32 32 T.vt.n (fun _ => ((8 - k) % 2 ^ 32).toNat))


/-! ## Solvers -/

namespace Sys2Proof.Claims

/-- The control registers that a solver instruction may write: SFLAGS, the MSTATUS and MMOM_N that it clears, the solver's own
registers and counters. -/
def solverRegs : List Nat :=
  [sflagsAddr, F.MSTATUS_MOMENTS.reg, F.MMOM_N_N.reg, F.SOLV_READY_READY.reg, F.SOLV_RES_SLOT.reg, F.SOLV_CYCLES_CYCLES.reg,
   F.SOLV_RUNS_SOLVES.reg, F.M_SOLVE_COUNT.reg, F.SOLV_ITERS_COUNT.reg]

/-- The matrix that a direction solves with: A, or its transpose for the adjoint system. -/
def systemRows (T : Tile) (slot : Nat) (adj : Bool) : List (List (Nat × Exact)) :=
  let d := T.sdesc slot
  if adj then transposeRows d.n (T.rowsOf d) else T.rowsOf d

/-- Where the unknowns of a direction lie, and its right side. -/
def unknownsAt (d : SDesc) (adj : Bool) : Nat := if adj then d.lvec else d.xvec
def rightAt (d : SDesc) (adj : Bool) : Nat := if adj then d.gvec else d.bvec

/-- b_i − Σ a_ij x_j of one row, with A and b of `T` and x of `X`. -/
def residualOf (T X : Tile) (slot : Nat) (adj : Bool) (i : Nat) : ℚ :=
  let d := T.sdesc slot
  real (T.f64 (rightAt d adj + 8 * i)) -
    (((systemRows T slot adj).getD i []).map (fun e => real e.2 * real (X.f64 (unknownsAt d adj + 8 * e.1)))).sum

/-- A resident system as `sinit` accepts it: a well-formed descriptor, finite values and a sound structure (R314, R317). -/
def Sound (T : Tile) (slot : Nat) (adj : Bool) : Prop :=
  let d := T.sdesc slot
  d.ok = true ∧ T.badValue d = none ∧ (adj = true → d.adj = true) ∧ T.badExtent d = none ∧ overlapBad d [] = none

end Sys2Proof.Claims

/-- A solve reports convergence only where it is true: with OUTCOME 2 the residual of the vector that it leaves is exactly zero,
and with OUTCOME 1 every element of that residual is at most ATOL, or RTOL times the largest element of the right side, in
magnitude, both formed exactly, in every slot, method, direction and range policy. -/
def Obligations.ConvergenceIsTrue : Prop :=
  ∀ (T : Tile) (slot : Nat) (adj : Bool),
    let d := T.sdesc slot
    let T' := (T.solveSlot slot adj false none).1
    let outcome := (T'.sdesc slot).status % 16
    slot < 64 → Claims.Sound T slot adj →
    (outcome = 2 → ∀ i < d.n, Claims.residualOf T T' slot adj i = 0) ∧
    (outcome = 1 → ∃ k < d.n, ∀ i < d.n,
      |Claims.residualOf T T' slot adj i| ≤ Claims.real (decodeNum 0 0 d.atol) ∨
      |Claims.residualOf T T' slot adj i| ≤ Claims.real (decodeNum 0 0 d.rtol) * |Claims.real (T.f64 (Claims.rightAt d adj + 8 * k))|)

/-- `ssolve` and `ssolvet` of one ready slot whose derived data stand and whose stored vector already meets ATOL complete at
once: the vector keeps its bits, STATUS says CONVERGED_TOL or CONVERGED_EXACT with no update, sA is 0, every LACC is cleared,
and the registers of the chain, k, d and the roots are as before. -/
def Sys2Proof.Claims.WarmSolvesComplete : Prop :=
  ∀ (s : State) (t : TileIx) (f : F3) (adj : Bool) (slot : Nat),
    let T := s.tile t
    let i : Instr := if adj then .ssolvet t f else .ssolve t f
    let d := T.sdesc slot
    Claims.Takes T 2 4 [f.a.toNat, f.b.toNat] → f.c = 0 → f.k = 0 → slot < 64 → T.sreg f.b.toNat = BitVec.ofNat 64 (2 ^ slot) →
    T.slotReady slot = true → Claims.Sound T slot adj → d.warm = true → d.status / 32 % 2 = 0 → T.solvePoison d adj true = false →
    (∀ i < d.n, |Claims.residualOf T T slot adj i| ≤ Claims.real (decodeNum 0 0 d.atol)) →
    ∃ u T', exec i s = .next u ∧ OnlyTile s t u T' ∧ Claims.Completed T T' 2 4 Claims.solverRegs ∧ Claims.SameRegs T T' [f.a.toNat] ∧
      T'.sreg f.a.toNat = 0 ∧ (∀ cell, T'.laccAt cell = ⟨0, .none⟩) ∧ T'.fld F.SOLV_RES_VALID = 0 ∧ T'.slotReady slot = true ∧
      ((T'.sdesc slot).status % 16 = if ∀ i < d.n, Claims.residualOf T T slot adj i = 0 then 2 else 1) ∧
      (T'.sdesc slot).status / 16 % 2 = (if adj then 1 else 0) ∧ (T'.sdesc slot).status / 2 ^ 8 % 2 ^ 8 = 0 ∧
      (∀ x, x < d.base + 72 ∨ d.base + 96 ≤ x → memByte T'.store x = memByte T.store x)

/-- `sresid` and `sresidt` of one ready slot write each residual rounded once to FP64 into R_OUT, and complete; `sfree` clears
ready bits and counts them; `sinit` of a slot that passes its scan makes it ready with OUTCOME 0 and STALE 1; `sdelta` of one
entry writes its value. A slot that is not ready raises SOLVER with SCAUSE 6 and nothing changes. A write to SOLV_BASE or
SOLV_REGION clears every ready bit. -/
def Sys2Proof.Claims.SolverInstructions : Prop :=
  ∀ (s : State) (t : TileIx) (f : F3),
    let T := s.tile t
    let b := T.sreg f.b.toNat
    let result := fun (n : Nat) => if f.a = 0 then (0 : Word) else BitVec.ofNat 64 n
    f.c = 0 → f.k = 0 →
    (∀ (adj : Bool) (slot : Nat),
      let i : Instr := if adj then .sresidt t f else .sresid t f
      let d := T.sdesc slot
      Claims.Takes T 2 4 [f.a.toNat, f.b.toNat] → slot < 64 → b = BitVec.ofNat 64 (2 ^ slot) → T.slotReady slot = true →
      Claims.Sound T slot adj → T.solvePoison { d with status := 32 } adj true = false →
      ∃ u T', exec i s = .next u ∧ OnlyTile s t u T' ∧ Claims.Completed T T' 2 4 Claims.solverRegs ∧ Claims.SameRegs T T' [f.a.toNat] ∧
        T'.sreg f.a.toNat = 0 ∧
        (∀ j < d.n, Claims.littleEndian T'.store (d.work + 8 * j) 8 = (roundNum 0 0 d.rmode false 0
          (((residual (Claims.systemRows T slot adj) ((T.vec64 (Claims.unknownsAt d adj) d.n).map (decodeNum 0 0))
            ((T.vec64 (Claims.rightAt d adj) d.n).map (decodeNum 0 0))).map (·.1.value)).getD j .zero)).1) ∧
        (∀ x, (x < d.work ∨ d.work + 8 * d.n ≤ x) → (x < d.base + 80 ∨ d.base + 88 ≤ x) → memByte T'.store x = memByte T.store x)) ∧
    (Claims.Takes T 2 4 [f.a.toNat, f.b.toNat] → b ≠ 0 →
      ∃ u T', exec (.sfree t f) s = .next u ∧ OnlyTile s t u T' ∧ Claims.Completed T T' 2 4 Claims.solverRegs ∧
        Claims.SameRegs T T' [f.a.toNat] ∧ T'.store = T.store ∧
        T'.ctlWord F.SOLV_READY_READY.reg = T.ctlWord F.SOLV_READY_READY.reg &&& ~~~b ∧
        T'.sreg f.a.toNat = result ((List.range 64).filter (fun k => T.slotReady k && b.getLsbD k)).length) ∧
    (∀ slot, slot < 64 → b = BitVec.ofNat 64 (2 ^ slot) → T.sinitFail [slot] slot = none →
      Claims.Takes T 2 4 [f.a.toNat, f.b.toNat] →
      ∃ u T', exec (.sinit t f) s = .next u ∧ OnlyTile s t u T' ∧ Claims.Completed T T' 2 4 Claims.solverRegs ∧
        Claims.SameRegs T T' [f.a.toNat] ∧ T'.slotReady slot = true ∧ (T'.sdesc slot).status = 32 ∧ T'.sreg f.a.toNat = result 1) ∧
    (Claims.Takes T 2 4 [f.a.toNat, f.b.toNat] → T.deltaFail b.toNat = none → T.peek b.toNat 8 = 1 →
      (T.delta b.toNat 0).target ≠ 0 →
      let e := T.delta b.toNat 0
      let at_ := e.addr (T.sdesc e.slot)
      ∃ u T', exec (.sdelta t f) s = .next u ∧ OnlyTile s t u T' ∧ Claims.SameRegs T T' [f.a.toNat] ∧
        Claims.littleEndian T'.store at_ 8 = e.value ∧ (∀ x, x < at_ ∨ at_ + 8 ≤ x → memByte T'.store x = memByte T.store x) ∧
        T'.sreg f.a.toNat = result 1) ∧
    (∀ slot, slot < 64 → b = BitVec.ofNat 64 (2 ^ slot) → T.slotReady slot = false → T.fld F.TILE_STATUS_MODE = 0 → T.events.fenced = none →
      Claims.Takes T 2 4 [f.a.toNat, f.b.toNat] →
      ∃ u T', exec (.ssolve t f) s = .next u ∧ OnlyTile s t u T' ∧ T'.fld F.TILE_STATUS_MODE = 1 ∧ T'.fld F.EXC_CAUSE_CODE = 0x12 ∧
        T'.fld F.EXC_CAUSE_QUEUE = 2 ∧ T'.ctlWord F.EXC_QPC_QPC.reg = T.pc ∧ T'.fld F.EXC_PC_PC = (T.pc + 4).toNat / 4 ∧
        T'.ctlWord F.EXC_INFO_INFO.reg = BitVec.ofNat 64 (6 + slot * 2 ^ 4 + T.sdescAt slot % 2 ^ 22 * 2 ^ 17) ∧
        (∃ e, T'.mq = [e] ∧ e.instr = .ssolve t f ∧ e.pc = T.pc ∧ e.again = true) ∧ T'.store = T.store ∧ T'.lacc = T.lacc ∧ ∀ r, T'.sreg r = T.sreg r) ∧
    (∀ (n : BitVec 16) (slot : Fin 64), Claims.Takes T 2 4 [f.a.toNat, f.b.toNat] → T.deltaFail b.toNat = none → n = 0 →
      T.work.isSome = true → s.fenced (s.ctxOfTile t) = true → T.events.fenced.isSome = true →
      ∃ u T', exec (.solverFenceStop t f 0 slot n) s = .next u ∧ OnlyTile s t u T' ∧ T'.sreg f.a.toNat = 0 ∧ T'.store = T.store ∧
        T'.fld F.SOLV_RES_VALID = T.fld F.SOLV_RES_VALID ∧ T'.pc = T.pc + 4) ∧
    (∀ (w : BitVec 64) (src : Fin 4), w.toNat < 2 ^ 22 →
      (w.toNat % 128 = 0 → ∃ u T', exec (.solvBaseWrite t w src) s = .next u ∧ OnlyTile s t u T' ∧
        T'.fld F.SOLV_BASE_BASE = w.toNat ∧ T'.ctlWord F.SOLV_READY_READY.reg = 0 ∧
        (∀ a, a ≠ F.SOLV_BASE_BASE.reg → a ≠ F.SOLV_READY_READY.reg → T'.ctlWord a = T.ctlWord a) ∧ T' = { T with ctl := T'.ctl }) ∧
      (∃ u T', exec (.solvRegionWrite t w src) s = .next u ∧ OnlyTile s t u T' ∧
        T'.fld F.SOLV_REGION_BASE = w.toNat ∧ T'.fld F.SOLV_REGION_SIZE = 0 ∧ T'.ctlWord F.SOLV_READY_READY.reg = 0 ∧
        (∀ a, a ≠ F.SOLV_REGION_BASE.reg → a ≠ F.SOLV_READY_READY.reg → T'.ctlWord a = T.ctlWord a) ∧ T' = { T with ctl := T'.ctl }))


/-! ## Command queues -/

namespace Sys2Proof.Claims

/-- Between `s` and `u` only host registers change, and only those at the offsets `regs`. -/
def HostOnly (s u : State) (regs : List Nat) : Prop :=
  { u with regs := s.regs } = s ∧ ∀ a, a ∉ regs → u.hostWord a = s.hostWord a

/-- The command at the head of a queue may start (R377, R378, R555, R570, R687, R694): it has been fetched and waits for nothing, its
context is valid and not fenced, its partition is READY, no other context runs SOLO, and no other head of the context waits for its
peer event, unless this one has itself waited and resumed. -/
def Startable (s : State) (c q : Nat) : Prop :=
  let p := s.cf c F.CTX_CFG_PART
  (s.queue c q).phase = 1 ∧ (s.queue c q).waitFrom = none ∧ s.cf c F.CTX_CFG_VALID = 1 ∧ s.pstate p = 2 ∧
  s.cf c F.CTX_FENCE_FENCED = 0 ∧ (s.pf p F.RECOV_CTL_SOLO_EN = 0 ∨ s.pf p F.RECOV_CTL_SOLO_CTX = c) ∧
  ((s.queue c q).eventAt ≠ none ∨ ∀ w < 8, w ≠ q → (s.queue c w).phase = 1 → (s.queue c w).waitFrom ≠ none → (s.queue c w).eventAt ≠ none)

/-- The command of a queue has ended with a completion that waits to be posted. -/
def Ended (s u : State) (c q status flags r0 r1 : Nat) : Prop :=
  (u.queue c q).phase = 3 ∧ (u.queue c q).cmd = (s.queue c q).cmd ∧ (u.queue c q).status = status ∧
  (u.queue c q).flags = flags ∧ (u.queue c q).r0 = r0 ∧ (u.queue c q).r1 = r1 ∧ (u.queue c q).ended = s.owl.ns

/-- The tiles, memory, host memory and host registers are as they were. -/
def SameOutside (s u : State) : Prop := u.tiles = s.tiles ∧ u.mem = s.mem ∧ u.host = s.host ∧ u.regs = s.regs

/-- The commands of the command queues, and their OPC (R689); `CMD_NOP` also carries the undefined opcodes. -/
def queued : Instr → Option (CtxIx × QueueIx × (Nat → Bool))
  | .cmdNop c q => some (c, q, fun n => n == 0 || 7 ≤ n)
  | .run c q => some (c, q, fun n => n == 1)
  | .cmdDma c q _ _ => some (c, q, fun n => n == 2)
  | .coll c q => some (c, q, fun n => n == 3)
  | .prov c q => some (c, q, fun n => n == 4)
  | .memAlloc c q => some (c, q, fun n => n == 5)
  | .memFree c q => some (c, q, fun n => n == 6)
  | _ => none

/-- W0 of a completion entry (R691). -/
def entryWord (Q : HostQ) (q n size : Nat) : Nat :=
  Q.cmd.toNat / 2 ^ 16 % 2 ^ 16 + Q.status * 2 ^ 16 + (1 - n / 2 ^ size % 2) * 2 ^ 24 + q * 2 ^ 25 + Q.flags * 2 ^ 32

end Sys2Proof.Claims

/-- A doorbell of an enabled queue of a context that is not fenced moves TAIL where the ring has room for it; else it is
rejected and TAIL stays. A fetch takes the command at HEAD and advances HEAD; a fetch that the host fails posts nothing of the command but
STATUS 67 with its index, and turns the queue off. A command that has ended is posted: its entry is written, CTAIL and DONE
advance, and the vector is sent if the command and the queue ask for it; a full ring only sets FULL. -/
def Sys2Proof.Claims.QueuesFetchAndPost : Prop :=
  (∀ (s : State) (c : CtxIx) (q : QueueIx) (w : BitVec 64) (src : Fin 4),
    let b := queuePage c q
    let head := s.hf b F.Q_PTR_HEAD
    let room := (w.toNat % 65536 + 65536 - head) % 65536 ≤ 2 ^ s.hf b F.Q_CFG_SIZE
    s.hf b F.Q_CFG_EN = 1 → s.fenced c = false → room → w.toNat < 65536 →
    ∃ u, exec (.qDbWrite c q w src) s = .next u ∧ u.hf b F.Q_PTR_TAIL = w.toNat ∧ u.hf b F.Q_PTR_HEAD = head ∧
      Claims.HostOnly s u [b + F.Q_PTR_TAIL.reg]) ∧
  (∀ (s : State) (c : CtxIx) (q : QueueIx) (w : BitVec 64) (src : Fin 4),
    let b := queuePage c q
    s.hf b F.Q_CFG_EN = 0 ∨ s.fenced c = true ∨
      2 ^ s.hf b F.Q_CFG_SIZE < (w.toNat % 65536 + 65536 - s.hf b F.Q_PTR_HEAD) % 65536 →
    ∃ u, exec (.qDbWrite c q w src) s = .next u ∧ u.ef F.CFG_REJECT_SET = 1 ∧ u.hf b F.Q_PTR_TAIL = s.hf b F.Q_PTR_TAIL ∧
      u.tiles = s.tiles ∧ u.queues = s.queues) ∧
  (∀ (s : State) (c : CtxIx) (q : QueueIx) (ok : Bool) (w : BitVec 512),
    let b := queuePage c q
    let head := s.hf b F.Q_PTR_HEAD
    s.cf c F.CTX_CFG_VALID = 1 → s.hf b F.Q_CFG_EN = 1 → s.linkUp = true → s.pstate (s.cf c F.CTX_CFG_PART) = 2 →
    s.fenced c = false → q.val ≤ s.cf c F.CTX_CFG_QUEUES → (s.queue c q).phase = 0 → head ≠ s.hf b F.Q_PTR_TAIL →
    ∃ u, exec (.commandFetch c q ok w) s = .next u ∧ u.hf b F.Q_PTR_HEAD = (head + 1) % 65536 ∧
      u.hf b F.Q_PTR_TAIL = s.hf b F.Q_PTR_TAIL ∧ u.tiles = s.tiles ∧ u.host = s.host ∧
      (ok = true → (u.queue c q).phase = 1 ∧ (u.queue c q).cmd = w ∧ (u.queue c q).idx = head ∧
        ((u.queue c q).waitFrom = none ∨ (u.queue c q).waitFrom = some s.owl.ns) ∧ u.hf b F.Q_CFG_EN = 1) ∧
      (ok = false → (u.queue c q).phase = 3 ∧ (u.queue c q).cmd = 0 ∧ (u.queue c q).status = 67 ∧ (u.queue c q).r0 = head ∧
        u.hf b F.Q_CFG_EN = 0)) ∧
  (∀ (s : State) (c : CtxIx) (q : QueueIx),
    let b := queuePage c q
    let Q := s.queue c q
    let n := s.hf b F.CQ_PTR_CTAIL
    let size := s.hf b F.Q_CFG_SIZE
    let a := s.hf b F.CQ_BASE_ADDR * 4096 + 32 * (n % 2 ^ size)
    Q.phase = 3 → s.linkUp = true →
    ((n + 65536 - s.hf b F.CQ_PTR_CHEAD) % 65536 < 2 ^ size →
      ∃ u, exec (.completionPost c q) s = .next u ∧
        (∀ k, k < 32 → memByte u.host (a + k) = BitVec.ofNat 8
          ((Claims.entryWord Q q n size + Q.r0 * 2 ^ 64 + Q.r1 * 2 ^ 128 + Q.ended * 2 ^ 192) / 256 ^ k)) ∧
        (∀ x, x < a ∨ a + 32 ≤ x → memByte u.host x = memByte s.host x) ∧
        u.hf b F.CQ_PTR_CTAIL = (n + 1) % 65536 ∧ u.hf b F.Q_PTR_DONE = (s.hf b F.Q_PTR_DONE + 1) % 65536 ∧
        (u.queue c q).phase = 0 ∧ u.tiles = s.tiles ∧ u.mem = s.mem ∧
        u.msix = (if Q.cmd.toNat.testBit 8 ∧ s.hf b F.Q_CFG_IRQ_EN = 1 then
            (if s.vfs.contains (c.val + 1) then (c.val + 1, s.hf b F.Q_CFG_VEC) else (0, 17 + c.val)) :: s.msix
          else s.msix)) ∧
    (2 ^ size ≤ (n + 65536 - s.hf b F.CQ_PTR_CHEAD) % 65536 →
      ∃ u, exec (.completionPost c q) s = .next u ∧ u.hf b F.CQ_PTR_FULL = 1 ∧
        Claims.HostOnly s u [b + F.CQ_PTR_FULL.reg]))

/-- While a head waits under WAIT_MODE 1, the head of the lowest-numbered queue of ALT_QMASK that is ready does start. A head whose event has occurred, with no alternate running, waits no longer. -/
def Sys2Proof.Claims.WaitingHeads : Prop :=
  (∀ (s : State) (c : CtxIx) (q : QueueIx) (refused poisoned : List Nat) (a : Nat),
    let Q := s.queue c q
    let able := fun x : Nat => x ≠ q.val ∧ (s.cf c F.CTX_TRAIN_CFG_ALT_QMASK).testBit x ∧ s.headReady c x = true
    Q.phase = 1 → Q.waitFrom.isSome → Q.eventAt = none → Q.covered = none → s.cf c F.CTX_TRAIN_CFG_WAIT_MODE = 1 →
    (∀ d, s.peerDue Q = some d → s.beat + s.cf c F.CTX_TRAIN_CFG_MIN_GAP ≤ d) →
    a < 8 → able a → (∀ x, x < a → ¬ able x) →
    ∃ v : State, (v.queue c q).covered = some a ∧ (∀ x, x ≠ q.val → v.queue c x = s.queue c x) ∧ v.tiles = s.tiles ∧
      v.regs = s.regs ∧ v.mem = s.mem ∧
      (((v.startCmd c a ⟨refused, poisoned⟩).queue c a).phase ≠ 1 →
        exec (.alternateStart c q refused poisoned) s = .next (v.startCmd c a ⟨refused, poisoned⟩))) ∧
  (∀ (s : State) (c : CtxIx) (q : QueueIx),
    let Q := s.queue c q
    Q.phase = 1 → Q.waitFrom.isSome → Q.covered = none → s.peerOccurred Q = true →
    ∃ u, exec (.peerEventResume c q) s = .next u ∧ (u.queue c q).phase = 1 ∧ (u.queue c q).cmd = Q.cmd ∧
      (u.queue c q).waitFrom = none ∧ Claims.SameOutside s u)

/-- A command with a bad header ends with BAD_CMD; a `CMD_NOP` does nothing and ends with STATUS 0, and an opcode that is not
defined with BAD_CMD; MEM_ALLOC takes the lowest free run and MEM_FREE gives its granules back filled with zeros, with the
statuses of R689 and R692 where they cannot. -/
def Sys2Proof.Claims.QueueCommandsEnd : Prop :=
  (∀ (s : State) (i : Instr) (c : CtxIx) (q : QueueIx) (opc : Nat → Bool),
    Claims.queued i = some (c, q, opc) → opc (s.queue c q).opc = true → Claims.Startable s c q →
    s.headBad (s.cf c F.CTX_CFG_PART) (s.queue c q) = true →
    ∃ u, exec i s = .next u ∧ Claims.Ended s u c q 64 0 0 0 ∧ Claims.SameOutside s u) ∧
  (∀ (s : State) (c : CtxIx) (q : QueueIx),
    let Q := s.queue c q
    Claims.Startable s c q → s.headBad (s.cf c F.CTX_CFG_PART) Q = false → Q.opc = 0 ∨ 7 ≤ Q.opc →
    ∃ u, exec (.cmdNop c q) s = .next u ∧ Claims.SameOutside s u ∧
      Claims.Ended s u c q (if Q.opc = 0 ∧ Q.cmd.toNat < 2 ^ 128 then 0 else 64) 0 0 0) ∧
  (∀ (s : State) (c : CtxIx) (q : QueueIx),
    let Q := s.queue c q
    let p := s.cf c F.CTX_CFG_PART
    let n := Q.cmd.toNat / 2 ^ 128
    let used := s.cf c F.CTX_USE_MEM_USED
    let quota := s.cf c F.CTX_QUOTA_MEM
    let excess := (quota ≠ 0xFFFFFF ∧ quota < used + n) ∨ s.cf c F.CTX_USE_OVER_MEM = 1
    Claims.Startable s c q → s.headBad p Q = false → Q.opc = 5 → 1 ≤ n → n < 2 ^ 24 →
    (excess → ∃ u, exec (.memAlloc c q) s = .next u ∧ Claims.Ended s u c q 65 0 0 0 ∧ Claims.SameOutside s u ∧
      u.granules = s.granules) ∧
    (¬ excess → s.freeRun p n = none → ∃ u, exec (.memAlloc c q) s = .next u ∧ Claims.Ended s u c q 66 0 0 0 ∧
      Claims.SameOutside s u ∧ u.granules = s.granules) ∧
    (∀ g, ¬ excess → s.freeRun p n = some g → ∃ u, exec (.memAlloc c q) s = .next u ∧
      Claims.Ended s u c q 0 0 (g * 2 ^ 21) 0 ∧ (∀ k, k < n → u.granOwner p (g + k) = c.val + 1) ∧
      (∀ x, x < p * 2 ^ 24 + g ∨ p * 2 ^ 24 + g + n ≤ x → u.granules.get (fun _ => 0) x = s.granules.get (fun _ => 0) x) ∧
      u.cf c F.CTX_USE_MEM_USED = (used + n) % 2 ^ 24 ∧ u.tiles = s.tiles ∧ u.mem = s.mem ∧ u.host = s.host)) ∧
  (∀ (s : State) (c : CtxIx) (q : QueueIx),
    let Q := s.queue c q
    let p := s.cf c F.CTX_CFG_PART
    let at_ := Q.cmd.toNat / 2 ^ 128 % 2 ^ 64
    let n := Q.cmd.toNat / 2 ^ 192 % 2 ^ 64
    let g := at_ / 2 ^ 21
    Claims.Startable s c q → s.headBad p Q = false → Q.opc = 6 → Q.cmd.toNat < 2 ^ 256 → n < 2 ^ 24 → at_ % 2 ^ 21 = 0 →
    g + n ≤ 12288 * s.blockCount (some p) →
    ((∃ k, k < n ∧ s.granOwner p (g + k) ≠ c.val + 1) →
      ∃ u, exec (.memFree c q) s = .next u ∧ Claims.Ended s u c q 64 0 0 0 ∧ Claims.SameOutside s u ∧ u.granules = s.granules) ∧
    ((∀ k, k < n → s.granOwner p (g + k) = c.val + 1) →
      ∃ u, exec (.memFree c q) s = .next u ∧ Claims.Ended s u c q 0 0 0 0 ∧ (∀ k, k < n → u.granOwner p (g + k) = 0) ∧
        (∀ o, g * 2 ^ 21 ≤ o → o < (g + n) * 2 ^ 21 → memByte u.mem (s.interleave p o % 2 ^ 48) = 0) ∧
        u.tiles = s.tiles ∧ u.host = s.host))

/-- A DMA between host extents that do not overlap copies every byte and ends with STATUS 0; one line is copied between host memory and a
sound line of stacked memory either way. A line that the host refuses or answers with poison ends the DMA with 67 or 1 and
copies nothing. -/
def Sys2Proof.Claims.DmaCopies : Prop :=
  ∀ (s : State) (c : CtxIx) (q : QueueIx) (refused poisoned : List Nat),
    let Q := s.queue c q
    let p := s.cf c F.CTX_CFG_PART
    let src := Q.word 2
    let dst := Q.word 3
    let n := Q.word 4
    let line := fun g => s.canon (some p) 0 g % 2 ^ 48
    Claims.Startable s c q → s.headBad p Q = false → Q.opc = 2 → Q.cmd.toNat < 2 ^ 384 → Q.word 5 < 2 →
    n < 2 ^ 40 → 0 < n → n % 64 = 0 → s.dmaBad p c src n false = false → s.dmaBad p c dst n true = false → s.linkUp = true →
    (spaceOf src = 3 → spaceOf dst = 3 → src % 2 ^ 60 + n ≤ 2 ^ 60 → dst % 2 ^ 60 + n ≤ 2 ^ 60 →
      refused = [] → poisoned = [] → overlaps src n dst n = false →
      ∃ u, exec (.cmdDma c q refused poisoned) s = .next u ∧ Claims.Ended s u c q 0 0 0 0 ∧
        (∀ k, k < n → memByte u.host (dst % 2 ^ 60 + k) = memByte s.host (src % 2 ^ 60 + k)) ∧
        (∀ x, x < dst % 2 ^ 60 ∨ dst % 2 ^ 60 + n ≤ x → memByte u.host x = memByte s.host x) ∧
        u.tiles = s.tiles ∧ u.mem = s.mem ∧ u.regs = s.regs) ∧
    (n = 64 → spaceOf src = 3 → spaceOf dst = 2 → refused.contains 0 = false → poisoned.contains 0 = false →
      ∃ u, exec (.cmdDma c q refused poisoned) s = .next u ∧ Claims.Ended s u c q 0 0 0 0 ∧
        (∀ k, k < 64 → memByte u.mem (line dst + k) = memByte s.host (src % 2 ^ 60 + k)) ∧
        (∀ x, x < line dst ∨ line dst + 64 ≤ x → memByte u.mem x = memByte s.mem x) ∧
        u.tiles = s.tiles ∧ u.host = s.host) ∧
    (n = 64 → spaceOf src = 2 → spaceOf dst = 3 → s.memUE.contains (line src) = false →
      s.memPoison.contains (line src) = false →
      ∃ u, exec (.cmdDma c q refused poisoned) s = .next u ∧ Claims.Ended s u c q 0 0 0 0 ∧
        (∀ k, k < 64 → memByte u.host (dst % 2 ^ 60 + k) = memByte s.mem (line src + k)) ∧
        u.tiles = s.tiles ∧ u.mem = s.mem) ∧
    (n = 64 → spaceOf src = 3 → refused.contains 0 = true ∨ poisoned.contains 0 = true →
      ∃ u, exec (.cmdDma c q refused poisoned) s = .next u ∧
        Claims.Ended s u c q (if refused.contains 0 then 67 else 1) 0 0 0 ∧ Claims.SameOutside s u)

/-- RUN waits at the head while a tile of its rectangle holds work; else it copies its image to LOAD of every tile of the
rectangle, gives it s1 = ARG and 0 in every other scalar register, and sends it to ENTRY in user mode as the context's work.
No other tile changes. -/
def Sys2Proof.Claims.RunPlacesWork : Prop :=
  ∀ (s : State) (c : CtxIx) (q : QueueIx),
    let Q := s.queue c q
    let p := s.cf c F.CTX_CFG_PART
    let len := Q.word 3 % 2 ^ 22
    let load := Q.word 3 / 2 ^ 24 % 2 ^ 22
    Claims.Startable s c q → s.headBad p Q = false → Q.opc = 1 → s.runBad p Q = false →
    (Q.rectangle.any (fun t => (s.tile t).work.isSome) = true →
      ∃ u, exec (.run c q) s = .next u ∧ (u.queue c q).phase = 1 ∧ Claims.SameOutside s u) ∧
    (Q.rectangle.any (fun t => (s.tile t).work.isSome) = false → s.rangeError p (Q.word 2) len = 0 →
      ∃ u, exec (.run c q) s = .next u ∧ (u.queue c q).phase = 2 ∧ u.mem = s.mem ∧ u.host = s.host ∧ u.regs = s.regs ∧
        (∀ t, t ∉ Q.rectangle → u.tile t = s.tile t) ∧
        (∀ t, t ∈ Q.rectangle →
          (u.tile t).work = some (c.val, q.val) ∧ (u.tile t).pc = BitVec.ofNat 64 (Q.word 4 % 2 ^ 22) ∧
          (u.tile t).fld F.TILE_STATUS_MODE = 0 ∧ (u.tile t).fld F.TILE_STATUS_CTX_ID = c.val ∧
          (u.tile t).sreg 1 = BitVec.ofNat 64 (Q.word 6) ∧ (∀ r, r ≠ 1 → (u.tile t).sreg r = 0) ∧
          (∀ k, k < len → memByte (u.tile t).store (load + k) = memByte s.mem (s.canon (some p) 0 (Q.word 2 + k) % 2 ^ 48)) ∧
          ((s.tile t).power ≠ .den → ∀ x, x < load ∨ load + len ≤ x →
            memByte (u.tile t).store x = memByte (s.tile t).store x)))

/-- PROV: an unreadable descriptor ends it with its ECODE, a malformed one with REFUSED; with every extent readable it runs, and takes
the head of its record. The row that ends it writes a record of 256 bytes at a host DST: that head, USER, the time, TORN, and a digest that is
the SHA-256 of its first 192 bytes. A write that clears the cache leaves it empty. -/
def Obligations.ProvenanceRecords : Prop :=
  (∀ (s : State) (c : CtxIx) (q : QueueIx),
    let Q := s.queue c q
    let p := s.cf c F.CTX_CFG_PART
    let g := Q.word 2
    let count := s.partWord p g / 2 ^ 48 % 2 ^ 7
    let dst := s.partWord p (g + 8)
    Claims.Startable s c q → s.headBad p Q = false → Q.opc = 4 → Q.cmd.toNat < 2 ^ 192 → s.viewBad p g 64 = false →
    (s.rangeError p g 64 ≠ 0 →
      ∃ u, exec (.prov c q) s = .next u ∧ Claims.Ended s u c q (s.rangeError p g 64) 0 0 0 ∧ u.tiles = s.tiles ∧ u.mem = s.mem ∧
        u.host = s.host) ∧
    (s.rangeError p g 64 = 0 → s.rangeError p g (64 + 16 * count) = 0 → s.provBad p g = true ∨ s.provOverlap p g = true →
      ∃ u, exec (.prov c q) s = .next u ∧ Claims.Ended s u c q 3 0 0 0 ∧ Claims.SameOutside s u) ∧
    (s.rangeError p g (64 + 16 * count) = 0 → s.rangeError p g 64 = 0 → s.provBad p g = false → s.provOverlap p g = false →
      (∀ k, k < count → s.rangeError p (s.partWord p (g + 64 + 16 * k)) (s.partWord p (g + 72 + 16 * k) % 2 ^ 40) = 0) →
      ∃ u, ∃ r : ProvRun, exec (.prov c q) s = .next u ∧ (u.queue c q).phase = 2 ∧ (u.part p).provs = (s.part p).provs ++ [r] ∧
        r.key = c.val * 8 + q.val ∧ r.dst = dst ∧ r.user = s.partWord p (g + 16) ∧ r.comps.length = count ∧
        (∀ x ∈ r.comps, x.torn = false) ∧ (leBytes r.head 64).take 8 = [0x52, 0x50, 0x52, 0x56, 1, 0, 0, 0] ∧
        ((leBytes r.head 64).drop 16).take 32 = s.mapDigest ∧ u.tiles = s.tiles ∧ u.mem = s.mem ∧ u.host = s.host)) ∧
  (∀ (s : State) (c : CtxIx) (q : QueueIx) (r : ProvRun),
    let p := s.cf c F.CTX_CFG_PART
    let at_ := r.dst % 2 ^ 60
    (s.queue c q).phase = 2 → (s.part p).provs.find? (fun x => x.key == c.val * 8 + q.val) = some r → spaceOf r.dst = 3 → s.linkUp = true →
    ∃ u, ∃ b : List Nat, exec (.prov c q) s = .next u ∧ Claims.Ended s u c q 0 0 0 0 ∧ b.length = 256 ∧
      (∀ k, k < 256 → memByte u.host (at_ + k) = BitVec.ofNat 8 (b.getD k 0)) ∧
      (∀ x, x < at_ ∨ at_ + 256 ≤ x → memByte u.host x = memByte s.host x) ∧
      b.take 64 = leBytes r.head 64 ∧ (b.drop 192).take 32 = sha256 (b.take 192) ∧ (b.drop 224).take 8 = leBytes r.user 8 ∧
      (b.drop 232).take 8 = leBytes s.owl.ns 8 ∧ b.getD 245 0 % 2 = (if ∃ x ∈ r.comps, x.torn = true then 1 else 0) ∧
      u.tiles = s.tiles ∧ u.mem = s.mem) ∧
  (∀ (s : State) (p : PartIx),
    ∃ u, exec (.provCacheClear p) s = .next u ∧ (u.part p).cache = [] ∧ u.pf p F.PROV_CACHE_VALID = 0 ∧
      u.tiles = s.tiles ∧ u.mem = s.mem ∧ u.host = s.host)


/-! ## Groups and collectives -/

namespace Sys2Proof.Claims

/-- STATUS of an instance from its reports, by the precedence of R490; `cut` says that a membership change cut it. -/
def collStatus (rs : List Nat) (cut : Bool) : Nat :=
  let codes := rs.map (fun r => r / 2 % 64) ++ (if cut then [19] else [])
  ([19, 18, 16, 1, 2, 6, 5, 3, 4, 17].find? (fun c => codes.contains c)).getD
    (if (rs.map (fun r => r / 2 ^ 12 % 2 ^ 20)).sum = 0 then 0 else 24)

end Sys2Proof.Claims

/-- The first instance of its group that has not been posted completes once it was refused or every report reads DONE: its
command posts the STATUS of R490, the OR of the FLAGS and the sums of DROPPED and SPILL, and its number counts as posted. -/
def Sys2Proof.Claims.CollectivesComplete : Prop :=
  ∀ (s : State) (c : CtxIx) (q : QueueIx) (i : Coll),
    let Q := s.queue c q
    let b := queuePage c q
    let n := s.hf b F.CQ_PTR_CTAIL
    let size := s.hf b F.Q_CFG_SIZE
    let a := s.hf b F.CQ_BASE_ADDR * 4096 + 32 * (n % 2 ^ size)
    let rs := if i.refused = 0 then (List.range i.tiles).map (fun k => s.partWord i.part (i.report + 8 * k)) else []
    let dropped := (rs.map (fun r => r / 2 ^ 12 % 2 ^ 20)).sum
    let spill := (rs.map (fun r => r / 2 ^ 32 % 2 ^ 20)).sum
    let Q' := { Q with
      status := if i.refused = 0 then Claims.collStatus rs i.cut else i.refused,
      flags := rs.foldl (fun n r => Nat.lor n (r / 2 ^ 7 % 2 ^ 5)) 0 }
    s.colls.find? (fun x => x.ctx == c.val && x.queue == q.val) = some i → s.collFirst i = true →
    (∀ r, r ∈ rs → r % 2 = 1) → (n + 65536 - s.hf b F.CQ_PTR_CHEAD) % 65536 < 2 ^ size → s.linkUp = true →
    ∃ u, exec (.collCompletion c q) s = .next u ∧ i ∉ u.colls ∧ (u.queue c q).phase = 0 ∧
      (∀ k, k < 32 → memByte u.host (a + k) = BitVec.ofNat 8
        ((Claims.entryWord Q' q n size + dropped * 2 ^ 64 + spill * 2 ^ 128 + s.owl.ns * 2 ^ 192) / 256 ^ k)) ∧
      (i.refused ≠ 22 → u.posted.get (fun _ => 0) i.group = (i.cseq + 1) % 2 ^ 24) ∧ u.tiles = s.tiles ∧ u.mem = s.mem

/-- COLL opens an instance with the decision of R488 behind those that are open, and runs until it completes. A write to
GRP_CTRL takes effect, or is rejected and leaves VALID; a staged change becomes pending for its round, or is refused; when its round comes the
change replaces the hall and the exclusions, EPOCH advances by one and PEND falls. -/
def Sys2Proof.Claims.GroupsAndInstances : Prop :=
  (∀ (s : State) (c : CtxIx) (q : QueueIx),
    let Q := s.queue c q
    let p := s.cf c F.CTX_CFG_PART
    let g := Q.word 2
    Claims.Startable s c q → s.headBad p Q = false → Q.opc = 3 → Q.cmd.toNat < 2 ^ 192 → s.extentBad p g 128 64 = false →
    ∃ u i, exec (.coll c q) s = .next u ∧ u.colls = s.colls ++ [i] ∧ (u.queue c q).phase = 2 ∧ i.ctx = c.val ∧
      i.queue = q.val ∧ i.group = s.partWord p g / 2 ^ 16 % 2 ^ 8 ∧ i.cseq = s.partWord p g / 2 ^ 40 ∧
      i.refused = s.collJudge p g ∧ i.part = p ∧ i.cut = false ∧ u.tiles = s.tiles ∧ u.host = s.host) ∧
  (∀ (s : State) (g : GroupIx) (w : BitVec 64) (src : Fin 4),
    let gp := groupPage g
    w.toNat < 512 → s.hf gp F.GRP_CTRL_VALID = 0 →
    let part := w.toNat / 2 % 16
    let axes := w.toNat / 32
    (w.toNat % 2 = 0 ∨ s.groupBad g part axes = false →
      ∃ u, exec (.grpCtrlWrite g w src) s = .next u ∧ u.hf gp F.GRP_CTRL_VALID = w.toNat % 2 ∧
        u.hf gp F.GRP_CTRL_PART = part ∧ u.hf gp F.GRP_CTRL_AXES = axes ∧ Claims.HostOnly s u [gp]) ∧
    (w.toNat % 2 = 1 → s.groupBad g part axes = true →
      ∃ u, exec (.grpCtrlWrite g w src) s = .next u ∧ u.hf gp F.GRP_CTRL_VALID = 0 ∧ u.ef F.CFG_REJECT_SET = 1 ∧
        u.tiles = s.tiles ∧ u.queues = s.queues)) ∧
  (∀ (s : State) (g : GroupIx) (src : Fin 4),
    let gp := groupPage g
    let er := s.ef F.GRP_CHG_AT_ROUND
    let good := s.hf gp F.GRP_STATUS_PEND = 0 ∧ s.round + 2 ≤ er ∧
      hallBad (s.hf gp F.GRP_CTRL_AXES) (s.hostWord F.GRP_STAGE_HALL_X_LO.reg).toNat = false
    s.hf gp F.GRP_CTRL_VALID = 1 →
    (good → ∃ u, exec (.groupChangeSubmit g src) s = .next u ∧ u.hf gp F.GRP_STATUS_PEND = 1 ∧
      u.changes = s.changes ++ [(g.val, er, [s.hostWord 0x328, s.hostWord 0x330, s.hostWord 0x338, s.hostWord 0x340])] ∧
      u.tiles = s.tiles ∧ u.colls = s.colls) ∧
    (¬ good → ∃ u, exec (.groupChangeSubmit g src) s = .next u ∧ u.hf gp F.GRP_STATUS_CHG_REFUSED = 1 ∧
      u.ef F.CFG_REJECT_SET = 1 ∧ u.changes = s.changes ∧ u.tiles = s.tiles)) ∧
  (∀ (s : State) (g : GroupIx) (er : Nat) (hall e0 e1 e2 : Word),
    let gp := groupPage g
    s.changes.find? (fun x => x.1 == g.val) = some (g.val, er, [hall, e0, e1, e2]) → er ≤ s.round →
    ∃ u, exec (.membershipChange g) s = .next u ∧ u.hostWord (gp + 8) = hall ∧ u.hostWord (gp + 0x18) = e0 ∧
      u.hostWord (gp + 0x20) = e1 ∧ u.hostWord (gp + 0x28) = e2 ∧
      u.hf gp F.GRP_STATUS_EPOCH = (s.hf gp F.GRP_STATUS_EPOCH + 1) % 65536 ∧ u.hf gp F.GRP_STATUS_PEND = 0 ∧
      (∀ x ∈ u.changes, x.1 ≠ g.val) ∧ u.tiles = s.tiles ∧ u.mem = s.mem)

/-! ## Stacked memory -/

/-- At a refresh beat of R402 a block that is not vacant counts a refresh and the on-die corrections it reads, and else does nothing; a
zero-fill zeroes the layers it is told and ends FILLING; a scrub read advances the pass by a line, counts a line that it corrects, and marks a line
that it finds uncorrectable poisoned; NOW starts the pass anew. -/
def Sys2Proof.Claims.BlocksRefreshAndScrub : Prop :=
  (∀ (s : State) (b : BlockIx) (ondie : BitVec 24),
    let pg := blockPage b
    let due := if s.hf pg F.MEM_STATUS_HOT = 1 then s.owl.ns / 256 % 16 = 15 else s.owl.ns / 256 % 32 = 31
    (s.vacant b = false → due → ∃ u, exec (.refreshBeat b ondie) s = .next u ∧ (u.block b).refresh = (s.block b).refresh + 1 ∧
      u.hf pg F.MEM_ERR_CNT_ONDIE =
        min (s.hf pg F.MEM_ERR_CNT_ONDIE + ondie.toNat) (2 ^ F.MEM_ERR_CNT_ONDIE.width - 1) ∧
      u.mem = s.mem ∧ u.tiles = s.tiles) ∧
    (s.vacant b = true ∨ ¬ due → exec (.refreshBeat b ondie) s = .next s)) ∧
  (∀ (s : State) (b : BlockIx) (layers : BitVec 12),
    let pg := blockPage b
    s.hf pg F.MEM_STATUS_FILLING = 1 →
    ∃ u, exec (.zeroFill b layers) s = .next u ∧ u.hf pg F.MEM_STATUS_FILLING = 0 ∧ u.tiles = s.tiles ∧
      (∀ x l, l < 12 → layers.getLsbD l = true → b.val * 2 ^ 35 + l * 2 ^ 31 ≤ x → x < b.val * 2 ^ 35 + (l + 1) * 2 ^ 31 →
        memByte u.mem x = 0 ∧ x ∉ u.memUE ∧ x ∉ u.memPoison) ∧
      (∀ x, (∀ l, l < 12 → layers.getLsbD l = true →
          x < b.val * 2 ^ 35 + l * 2 ^ 31 ∨ b.val * 2 ^ 35 + (l + 1) * 2 ^ 31 ≤ x) → memByte u.mem x = memByte s.mem x)) ∧
  (∀ (s : State) (b : BlockIx) (err : LineErr),
    let pg := blockPage b
    let at_ := (s.block b).scrubAt
    let a := b.val * 2 ^ 35 + at_
    s.hf pg F.MEM_SCRUB_CFG_EN = 1 → s.serves b = true → at_ < blockBytes → s.memPoison.contains a = false →
    ∃ u, exec (.scrubRead b err) s = .next u ∧ (u.block b).scrubAt = (if at_ + 64 = blockBytes then 0 else at_ + 64) ∧
      u.tiles = s.tiles ∧
      (eccRead err = none ∨ s.memUE.contains a = true → u.memPoison.contains a = true ∧ u.memUE.contains a = true ∧ u.mem = s.mem ∧
        u.hf pg F.MEM_ERR_CNT_UE = min (s.hf pg F.MEM_ERR_CNT_UE + 1) (2 ^ F.MEM_ERR_CNT_UE.width - 1)) ∧
      (∀ n, eccRead err = some (n, 0) → s.memUE.contains a = false → u.memPoison = s.memPoison ∧ u.memUE = s.memUE ∧ u.mem = s.mem ∧
        u.hf pg F.MEM_ERR_CNT_CE = min (s.hf pg F.MEM_ERR_CNT_CE + if n = 0 then 0 else 1) (2 ^ F.MEM_ERR_CNT_CE.width - 1)) ∧
      (err = [] → eccRead err = some (0, 0))) ∧
  (∀ (s : State) (b : BlockIx),
    ∃ u, exec (.scrubNow b) s = .next u ∧ (u.block b).scrubAt = 0 ∧ u.mem = s.mem ∧ u.regs = s.regs ∧ u.tiles = s.tiles)

/-- At a refresh beat a row that is due takes its group's spare row, and a failed bond a spare bond of its channel; with no
spare bond left the block is degraded, and a second such bond marks it for retirement. No byte of memory changes. -/
def Sys2Proof.Claims.SparesReplaceRowsAndBonds : Prop :=
  (∀ (s : State) (b : BlockIx) (row : BitVec 35),
    let pg := blockPage b
    let r := b.val * 2 ^ 35 + row.toNat
    s.refreshBeat b s.beat = true → (s.block b).rowDue.contains r = true → (s.block b).sparesUsed.contains (groupKey r) = false →
    ∃ u, exec (.rowReplace b row) s = .next u ∧ (u.block b).rowDue.contains r = false ∧
      (u.block b).sparesUsed.contains (groupKey r) = true ∧
      u.hf pg F.MEM_STATUS_ROWS_LEFT = s.hf pg F.MEM_STATUS_ROWS_LEFT - 1 ∧
      (∀ a ∈ s.memUE, rowKey a = r → a ∈ u.memPoison) ∧ u.mem = s.mem ∧ u.tiles = s.tiles) ∧
  (∀ (s : State) (b : BlockIx) (ch : BitVec 4),
    let pg := blockPage b
    let used := (s.block b).bondsUsed.get (fun _ => 0) ch.toNat
    let bare := (s.block b).bare.get (fun _ => 0) ch.toNat
    s.refreshBeat b s.beat = true →
    ∃ u, exec (.bondSwap b ch) s = .next u ∧ u.mem = s.mem ∧ u.tiles = s.tiles ∧
      (used < 16 → (u.block b).bondsUsed.get (fun _ => 0) ch.toNat = used + 1 ∧
        u.hf pg F.MEM_STATUS_BONDS_LEFT = s.hf pg F.MEM_STATUS_BONDS_LEFT - 1) ∧
      (16 ≤ used → u.hf pg F.MEM_STATUS_DEGRADED = 1 ∧ (u.block b).bare.get (fun _ => 0) ch.toNat = bare + 1 ∧
        (1 ≤ bare → u.hf pg F.MEM_STATUS_RETIRE = 1 ∧ (u.block b).retire = true)))

/-- A good write to MV_ERRQ_CFG places the record ring and starts it empty. An `mv.recv` whose transfers have all ended
on time frees its tag, and the ends that it took are counted off its flow. -/
def Sys2Proof.Claims.RecordRingAndReceives : Prop :=
  (∀ (s : State) (t : TileIx) (w : BitVec 64) (src : Fin 4),
    let base := w.toNat % 2 ^ 22
    let size := w.toNat / 2 ^ 24
    w.toNat / 2 ^ 22 % 4 = 0 → base % 16 = 0 → size = 0 ∨ (4 ≤ size ∧ size ≤ 12) → base + 16 * 2 ^ size ≤ 0x300000 →
    ∃ u T', exec (.mvErrqCfgWrite t w src) s = .next u ∧ OnlyTile s t u T' ∧ T'.fld F.MV_ERRQ_CFG_BASE = base ∧
      T'.fld F.MV_ERRQ_CFG_SIZE = size ∧ T'.fld F.MV_ERRQ_PTR_TAIL = 0 ∧ T'.fld F.MV_ERRQ_PTR_HEAD = 0 ∧
      T' = { s.tile t with ctl := T'.ctl } ∧
      (∀ a, a ≠ F.MV_ERRQ_CFG_BASE.reg → a ≠ F.MV_ERRQ_PTR_TAIL.reg → T'.ctlWord a = (s.tile t).ctlWord a)) ∧
  (∀ (s : State) (t : TileIx) (tag : BitVec 7) (r : XReq),
    let sel := r.entry.sb.toNat
    let k := flowKey (sel % 64) (sel / 64 % 2 ^ 12)
    let ends := (s.flow k).since.take r.total
    (s.tile t).req tag.toNat = some r → r.kind = .recv → r.done = false → ends.length = r.total →
    (∀ e ∈ ends, e.1 ≠ 19 ∧ e.1 ≠ 3 ∧ e.1 ≠ 16 ∧ e.1 ≠ 17) → r.bad = [] →
    ∃ w : State, exec (.recvCompletion t tag) s = .next (w.after t) ∧ (w.flow k).since = (s.flow k).since.drop r.total ∧
      w.tile t = (s.tile t).freeTag tag.toNat ∧ (∀ t', t' ≠ t.val → w.tile t' = s.tile t') ∧ w.regs = s.regs ∧ w.mem = s.mem)


/-! ## Links -/

/-- Once a beat a link that is not DOWN sends a frame, which is in flight until it is acknowledged; a timetabled message leaves in
the beat reserved for it, or in a retry beat. A frame that is not acknowledged after RD beats gives its open messages back to what waits, and
keeps its timetabled ones, which can still be in time, for the retry beats. -/
def Sys2Proof.Claims.FramesLeave : Prop :=
  (∀ (s : State) (l : LinkIx),
    let L := s.link l
    let b := s.beat
    s.lstate l ≠ 0 → L.lastTx ≠ b → L.hopeless b (s.lf l F.LINK_STATUS_LINK_BEATS) = [] →
    ∃ u ms, exec (.frameSend l) s = .next u ∧ (u.link l).flight = L.flight ++ [(b, L.spill ++ ms)] ∧
      (u.link l).lastTx = b ∧ (u.link l).frames = L.frames + 1 ∧ u.tiles = s.tiles ∧ u.mem = s.mem ∧
      (∀ m ∈ ms, m ∈ L.out ∨ ∃ f ∈ L.failed, m ∈ f.2) ∧ (∀ m ∈ ms, m.flow ≠ 0 → b % 16 ≠ 15 → m.beat = b) ∧
      (∀ m ∈ ms, ∀ x ∈ (u.link l).out, x.same m = false) ∧ (s.lstate l = 1 → ms = [])) ∧
  (∀ (s : State) (l : LinkIx), s.lstate l = 0 ∨ (s.link l).lastTx = s.beat → exec (.frameSend l) s = .next s) ∧
  (∀ (s : State) (l : LinkIx) (b : BitVec 56) (ms : List Msg),
    let L := s.link l
    s.lstate l ≠ 0 → L.flight.find? (fun f => f.1 == b.toNat) = some (b.toNat, ms) →
    (b.toNat + s.lf l F.LINK_STATUS_RD) * 256 ≤ s.owl.ns →
    (∀ m ∈ ms, m.flow ≠ 0 → canSend (s.lf l F.LINK_STATUS_LINK_BEATS) (retryBeat s.beat) m = true) →
    ∃ u, exec (.frameFailed l b) s = .next u ∧ (∀ f ∈ (u.link l).flight, f.1 ≠ b.toNat) ∧
      (u.link l).out = (ms.filter (fun m => m.flow == 0)).map (fun m => { m with beat := b.toNat + 1 }) ++ L.out ∧
      ((∃ m ∈ ms, m.flow ≠ 0) → (u.link l).failed = L.failed ++ [(b.toNat, ms.filter (fun m => m.flow != 0))]) ∧
      u.tiles = s.tiles ∧ u.mem = s.mem ∧ u.regs = s.regs)

/-- A frame that does not decode is counted and discarded. One that does is accepted: its credit and clock state are taken, and
a message of it that is new, due and sound is held for release. -/
def Sys2Proof.Claims.FramesArrive : Prop :=
  (∀ (s : State) (l : LinkIx) (frac : BitVec 16) (hold : BitVec 5) (h : BitVec 512) (ms : List WireMsg),
    s.lstate l ≠ 0 →
    ∃ u, exec (.frameReceive l false ⟨frac, hold⟩ h ms []) s = .next u ∧ (u.link l).discards = (s.link l).discards + 1 ∧
      (u.link l).goodRound = 0 ∧ (u.link l).held = (s.link l).held ∧
      u.lf l F.LINK_ERR_CNT_UNCORR = min (s.lf l F.LINK_ERR_CNT_UNCORR + 1) (2 ^ F.LINK_ERR_CNT_UNCORR.width - 1) ∧
      u.tiles = s.tiles ∧ u.mem = s.mem) ∧
  (∀ (s : State) (l : LinkIx) (frac : BitVec 16) (hold : BitVec 5) (h : BitVec 512) (x : WireMsg),
    let m := msgOf x.1 x.2
    let L := s.link l
    let f := s.flow (flowKey l m.flow)
    2 ≤ s.lstate l → L.flight = [] → L.failed = [] → m.lines ≠ [] →
    (m.flow ≠ 0 → f.closed = false ∧ f.lost = false ∧ f.lastD < m.deadline) → s.destBad l m = false →
    (∀ y ∈ L.held, ¬ (y.flow = m.flow ∧ y.seq = m.seq)) →
    seqOld (L.rxSeq.get (fun _ => 0) m.flow) m.seq = false →
    ∃ u, exec (.frameReceive l true ⟨frac, hold⟩ h [x] []) s = .next u ∧ (u.link l).held = L.held ++ [m] ∧
      (u.link l).accepted = L.accepted + 1 ∧ (u.link l).discards = 0 ∧ (u.link l).goodRound = L.goodRound + 1 ∧
      (u.link l).credit = word512 h 6 % 2 ^ 16 ∧ u.lf l F.LINK_TIME_STAT_PEER_STATE = word512 h 1 / 2 ^ 48 % 4 ∧
      u.tiles = s.tiles ∧ u.mem = s.mem)

/-- The message that is due is released to its destination: every line of it is written there. The last message of a flow's
transfer ends it, on time at or before D and with LATE_DELIVERED behind it. A transfer that has not ended at its horizon ends LATE; a
bound DMA there drops its parts and reports every line that was never launched as LATE. -/
def Sys2Proof.Claims.MessagesRelease : Prop :=
  (∀ (s : State) (l : LinkIx) (fl : BitVec 12) (m : Msg) (d a : Nat),
    s.nextHeld l fl.toNat = some m → m.dest = 2 ^ 60 + d * 2 ^ 46 + a → d < 10800 → a + 64 * m.lines.length ≤ 0x300000 →
    s.destRefuses m = false →
    (∀ x ∈ (s.link l).held, x.flow = fl.toNat → x.last = true → x.deadline = m.deadline → x.seq = m.seq) →
    ∃ u, exec (.messageRelease l fl) s = .next u ∧
      (∀ j w, m.lines[j]? = some w → ∀ k, k < 64 →
        memByte (u.tile d).store (a + 64 * j + k) = BitVec.ofNat 8 (w / 256 ^ k)) ∧
      (∀ x, x < a ∨ a + 64 * m.lines.length ≤ x → memByte (u.tile d).store x = memByte (s.tile d).store x) ∧
      (∀ t, t ≠ d → u.tile t = s.tile t) ∧ u.mem = s.mem ∧ u.regs = s.regs ∧
      (u.link l).rxSeq.get (fun _ => 0) fl.toNat = (m.seq + 1) % 65536 ∧
      (∀ x ∈ (u.link l).held, ¬ (x.flow = fl.toNat ∧ x.seq = m.seq)) ∧
      (fl ≠ 0 → m.last = true → let f := s.flow (flowKey l fl.toNat)
        (u.flow (flowKey l fl.toNat)).ends = f.ends + 1 ∧
        (f.closed = false → f.lost = false → (u.flow (flowKey l fl.toNat)).since =
          f.since ++ [(if s.owl.ns ≤ m.deadline * 256 then 0 else 17, f.dest)]))) ∧
  (∀ (s : State) (l : LinkIx) (fl : BitVec 12) (d : Nat),
    let f := s.flow (flowKey l fl.toNat)
    s.flowDue l fl.toNat = some d → (d + s.lf l F.LINK_CFG_HORIZON) * 256 ≤ s.owl.ns →
    ∃ u, exec (.transferHorizonExpiry none l fl) s = .next u ∧ (u.flow (flowKey l fl.toNat)).ends = f.ends + 1 ∧
      (u.flow (flowKey l fl.toNat)).since = f.since ++ [(if f.lost then 19 else if f.closed then 0 else 16, f.dest)] ∧
      u.tiles = s.tiles ∧ u.mem = s.mem ∧ u.regs = s.regs) ∧
  (∀ (s : State) (t : TileIx) (tag : BitVec 7) (l : LinkIx) (fl : BitVec 12) (r : XReq),
    (s.tile t).req tag.toNat = some r → r.kind = .dma → r.deadline ≠ 0 → r.done = false → r.launched < r.total →
    (r.deadline + s.ef F.NET_CFG_HORIZON) * 256 ≤ s.owl.ns →
    ∃ w : State, exec (.transferHorizonExpiry (some (t, tag)) l fl) s = .next (w.after t) ∧
      (∃ r', (w.tile t).req tag.toNat = some r' ∧ r'.done = true ∧
        ∀ k, r.launched ≤ k → k < r.total → ∃ g, (k, 16, g) ∈ r'.bad) ∧
      (∀ p ∈ (w.tile t).reqs, p.2.kind = .part → p.2.parent ≠ tag.toNat) ∧
      (∀ t', t' ≠ t.val → w.tile t' = s.tile t') ∧ w.mem = s.mem ∧ w.regs = s.regs)

/-- The states of a link: EN = 1 takes it from DOWN to TRAINING at once; accepted frames take it to SYNC, and a whole round
of them to SERVICE at a round boundary; EN = 0 and RETRAIN have it leave at the next beat boundary, and leaving empties it and leads
back to TRAINING where EN is 1. -/
def Sys2Proof.Claims.LinkStates : Prop :=
  (∀ (s : State) (l : LinkIx),
    ∃ u, exec (.linkEnable l) s = .next u ∧ u.lf l F.LINK_CFG_EN = 1 ∧
      u.lstate l = (if s.lstate l = 0 then 1 else s.lstate l) ∧
      Claims.HostOnly s u [linkPage l + F.LINK_CFG_EN.reg, linkPage l + F.LINK_STATUS_STATE.reg]) ∧
  (∀ (s : State) (l : LinkIx),
    s.lstate l = 1 → 0 < (s.link l).goodRound →
    ∃ u, exec (.linkSyncEntry l) s = .next u ∧ u.lstate l = 2 ∧
      (∀ k, k < 9 → u.lf l (F.LANE_CNT_LOCK.at (8 * k)) = 1) ∧ u.links = s.links ∧ u.tiles = s.tiles) ∧
  (∀ (s : State) (l : LinkIx),
    s.lstate l = 2 → s.owl.ns % 1048576 = 0 → 4096 + ((s.link l).ackBase + 1) % 4096 ≤ (s.link l).goodRound →
    ∃ u, exec (.linkServiceEntry l) s = .next u ∧ u.lstate l = 3 ∧
      Claims.HostOnly s u [linkPage l + F.LINK_STATUS_STATE.reg]) ∧
  (∀ (s : State) (l : LinkIx),
    s.lstate l ≠ 0 →
    (∃ u, exec (.linkDisable l) s = .next u ∧ u.lf l F.LINK_CFG_EN = 0 ∧ u.lstate l = s.lstate l ∧
      (u.link l).leaveAt = some ((s.owl.ns / 256 + 1) * 256) ∧ u.tiles = s.tiles) ∧
    (∃ u, exec (.linkRetrain l) s = .next u ∧ u.regs = s.regs ∧
      (u.link l).leaveAt = some ((s.owl.ns / 256 + 1) * 256) ∧ u.tiles = s.tiles)) ∧
  (∀ (s : State) (l : LinkIx), s.lstate l = 0 →
    ∃ u, exec (.linkDisable l) s = .next u ∧ u.lf l F.LINK_CFG_EN = 0 ∧
      Claims.HostOnly s u [linkPage l + F.LINK_CFG_EN.reg]) ∧
  (∀ (s : State) (l : LinkIx),
    s.lstate l ≠ 0 → (s.link l).leaveAt.any (fun at_ => at_ ≤ s.owl.ns) = true ∨
      (s.lstate l = 3 ∧ 16 ≤ (s.link l).discards) →
    ∃ u, exec (.linkDown l) s = .next u ∧ (u.link l).out = [] ∧ (u.link l).flight = [] ∧ (u.link l).failed = [] ∧
      (u.link l).credit = 0 ∧ (u.link l).leaveAt = none ∧ u.lf l F.LINK_TIME_STAT_BAD = 1 ∧
      (s.lstate l = 2 → ∀ m ∈ (u.link l).held, m.flow ≠ 0) ∧
      (s.sendsOn l = [] → u.lstate l = s.lf l F.LINK_CFG_EN ∧ u.tiles = s.tiles))

/-- Lanes: one that loses lock is judged failed; while a spare lane is left a swap is requested. At SWAP_AT the lanes are mapped around
the failed one. CLR_CNT clears the error counts. -/
def Sys2Proof.Claims.LanesFailAndSwap : Prop :=
  (∀ (s : State) (l : LinkIx) (lost : BitVec 9),
    s.lstate l ≠ 0 →
    ∃ u, exec (.laneFailure l lost) s = .next u ∧ u.tiles = s.tiles ∧ u.mem = s.mem ∧
      (∀ k, k < 9 → lost.getLsbD k = true →
        u.lf l (F.LANE_CNT_LOCK.at (8 * k)) = 0 ∧ u.lf l (F.LANE_CNT_FAILED.at (8 * k)) = 1) ∧
      (∀ k, k < 9 → (∀ j, j < 9 → (lost.getLsbD j = true ↔ j = k)) →
        (∀ j, j < 9 → (s.link l).laneRun.get (fun _ => 0) j < s.lf l F.LINK_CFG_LANE_LIMIT) →
        s.lf l (F.LANE_CNT_FAILED.at (8 * k)) = 0 → s.lf l F.LINK_STATUS_OFF_LANE ≠ k →
        s.lf l F.LINK_STATUS_SPARE_USED = 0 → (s.link l).swapReq = none → (s.link l).swapAt = none →
        s.lf l (F.LANE_CNT_FAILED.at (8 * s.lf l F.LINK_STATUS_OFF_LANE)) = 0 → (u.link l).swapReq = some k)) ∧
  (∀ (s : State) (l : LinkIx) (k at_ : Nat),
    (s.link l).swapAt = some (k, at_) → k < 9 → at_ * 256 ≤ s.owl.ns →
    ∃ u, exec (.laneSwap l) s = .next u ∧ u.lf l F.LINK_STATUS_OFF_LANE = k ∧ (u.link l).swapAt = none ∧
      u.lf l F.LINK_STATUS_SWAP_PEND = 0 ∧
      (k ≠ 8 → u.lf l F.LINK_STATUS_SPARE_USED = 1) ∧ u.tiles = s.tiles ∧ u.mem = s.mem) ∧
  (∀ (s : State) (l : LinkIx),
    ∃ u, exec (.linkClearCounters l) s = .next u ∧ u.hostWord (linkPage l + F.LINK_ERR_CNT_UNCORR.reg) = 0 ∧
      (∀ k, k < 9 → u.lf l (F.LANE_CNT_CORR.at (8 * k)) = 0) ∧ u.links = s.links ∧ u.tiles = s.tiles)


/-! ## Partitions, contexts and timetables -/

/-- CREATE of a partition that fails a test of R515 is refused with its code; else the partition enters RESET at step 3. DESTROY of
one that still holds something is refused with code 5 and of one that is NONE with code 6. A CREATE whose blocks are whole ends in READY and a
DESTROY in NONE. A context becomes valid only in a READY partition. -/
def Obligations.PartitionsAndContexts : Prop :=
  (∀ (s : State) (p : PartIx) (src : Fin 4),
    s.ef F.BOOT_STATUS_STAGE = 8 → s.engReset = none →
    let r := s.rect p
    let outside := r.2.1 = 0 ∨ r.2.2.2 = 0 ∨ 24 < r.1 + r.2.1 ∨ 30 < r.2.2.1 + r.2.2.2
    let code := if outside then 1 else if s.pstate p ≠ 0 then 2
      else if ∃ b ∈ s.blocksOf p, (s.ownerOfBlock b).isSome then 3 else if ∃ b ∈ s.blocksOf p, s.vacant b = true then 4 else 0
    (code ≠ 0 → ∃ u, exec (.create p src) s = .next u ∧ u.pf p F.PART_STATUS_REFUSED = 1 ∧ u.pf p F.PART_STATUS_REFUSE = code ∧
      u.pstate p = s.pstate p ∧ Claims.HostOnly s u [partPage p + F.PART_STATUS_STATE.reg]) ∧
    (code = 0 → ∃ u, exec (.create p src) s = .next u ∧ u.pstate p = 1 ∧ u.pf p F.RECOV_STATUS_STEP = 3 ∧
      (u.part p).step = some (s.owl.ns, 5) ∧ (u.part p).mode = 1 ∧ u.tiles = s.tiles)) ∧
  (∀ (s : State) (p : PartIx) (src : Fin 4),
    s.ef F.BOOT_STATUS_STAGE = 8 → s.engReset = none → (s.part p).step = none →
    (s.pstate p = 0 → ∃ u, exec (.destroy p src) s = .next u ∧ u.pf p F.PART_STATUS_REFUSED = 1 ∧
      u.pf p F.PART_STATUS_REFUSE = 6 ∧ Claims.HostOnly s u [partPage p + F.PART_STATUS_STATE.reg]) ∧
    (s.pstate p ≠ 0 → s.partHolds p = true → ∃ u, exec (.destroy p src) s = .next u ∧ u.pf p F.PART_STATUS_REFUSED = 1 ∧
      u.pf p F.PART_STATUS_REFUSE = 5 ∧ Claims.HostOnly s u [partPage p + F.PART_STATUS_STATE.reg]) ∧
    (s.pstate p ≠ 0 → s.partHolds p = false → ∃ u, exec (.destroy p src) s = .next u ∧ u.pstate p = 1 ∧
      (u.part p).step = some (s.owl.ns, 5) ∧ (u.part p).mode = 2 ∧ u.tiles = s.tiles)) ∧
  (∀ (s : State) (p : PartIx) (start cause : Nat),
    (s.part p).step = some (start, cause) → s.pf p F.HIB_STATUS_PHASE = 0 →
    ((s.part p).mode = 2 → ∃ u, exec (.partitionReset p []) s = .next u ∧ u.pstate p = 0 ∧ (u.part p).step = none ∧
      u.pf p F.RECOV_STATUS_STEP = 0) ∧
    ((s.part p).mode = 1 → (∀ t ∈ s.tilesOf p, (s.tile t).homes = [] ∧ (s.tile t).marked = false) →
      s.markCols = [] → (∀ b ∈ s.blocksOf p, (s.block b).retire = false ∧ s.vacant b = false) →
      ∃ u, exec (.partitionReset p []) s = .next u ∧ u.pstate p = 2 ∧ (u.part p).step = none ∧
        u.pf p F.RECOV_STATUS_STEP = 0 ∧ u.map = s.map)) ∧
  (∀ (s : State) (c : CtxIx) (w : BitVec 64) (src : Fin 4),
    s.cf c F.CTX_CFG_VALID = 0 → w.toNat < 256 →
    (w.toNat % 2 = 0 ∨ s.pstate (w.toNat / 2 % 16) = 2 → ∃ u, exec (.ctxCfgWrite c w src) s = .next u ∧
      u.cf c F.CTX_CFG_VALID = w.toNat % 2 ∧ u.cf c F.CTX_CFG_PART = w.toNat / 2 % 16 ∧
      u.cf c F.CTX_CFG_QUEUES = w.toNat / 32 ∧ Claims.HostOnly s u [ctxPage c + F.CTX_CFG_VALID.reg]) ∧
    (w.toNat % 2 = 1 → s.pstate (w.toNat / 2 % 16) ≠ 2 → ∃ u, exec (.ctxCfgWrite c w src) s = .next u ∧
      u.cf c F.CTX_CFG_VALID = 0 ∧ u.ef F.CFG_REJECT_SET = 1 ∧ u.tiles = s.tiles))

/-- A timetable image that fails a test of R533 is refused with its RESULT and the failing entry, and changes no timetable; one
that passes is added behind the others with the next admission count. A withdrawal is noted, or answered 12; at
START_ROUND a timetable is installed, and after the round of its withdrawal it is gone. -/
def Sys2Proof.Claims.TimetablesComeAndGo : Prop :=
  (∀ (s : State) (p : PartIx) (res k : Nat),
    s.judge p (s.pf p F.ADM_ADDR_ADDR) = .inl (res, k) → res < 16 → k < 2 ^ 17 →
    ∃ u, exec (.timetableSubmit p) s = .next u ∧ u.pf p F.ADM_STATUS_RESULT = res ∧ u.pf p F.ADM_STATUS_ENTRY = k ∧
      u.tables = s.tables ∧ u.admCount = s.admCount ∧ u.tiles = s.tiles ∧ u.mem = s.mem) ∧
  (∀ (s : State) (p : PartIx) (xs : List TEntry),
    let g := s.pf p F.ADM_ADDR_ADDR
    s.judge p g = .inr xs →
    ∃ u tb, exec (.timetableSubmit p) s = .next u ∧ u.tables = s.tables ++ [tb] ∧ u.admCount = s.admCount + 1 ∧
      tb.part = p.val ∧ tb.entries = xs ∧ tb.count = s.admCount ∧ tb.ctx = s.partWord p (g + 8) % 64 ∧
      tb.start = s.partWord p (g + 16) % 2 ^ 44 ∧ tb.installed = false ∧ tb.suspended = false ∧ tb.withdrawn = none ∧
      u.pf p F.ADM_STATUS_RESULT = 0 ∧ u.pf p F.ADM_STATUS_SEQ = s.admCount % 2 ^ 32 ∧ u.tiles = s.tiles ∧ u.mem = s.mem) ∧
  (∀ (s : State) (p : PartIx) (id : BitVec 8),
    let mine := fun (tb : TTable) => tb.part = p.val ∧ tb.id = id.toNat
    ((∃ tb ∈ s.tables, mine tb) → ∃ u, exec (.timetableWithdraw p id) s = .next u ∧ u.pf p F.ADM_STATUS_RESULT = 0 ∧
      (∀ tb ∈ u.tables, mine tb → tb.withdrawn.isSome) ∧ u.tables.length = s.tables.length ∧ u.tiles = s.tiles) ∧
    ((∀ tb ∈ s.tables, ¬ mine tb) → ∃ u, exec (.timetableWithdraw p id) s = .next u ∧ u.pf p F.ADM_STATUS_RESULT = 12 ∧
      Claims.HostOnly s u [partPage p + F.ADM_STATUS_RESULT.reg])) ∧
  (∀ (s : State) (p : PartIx) (id : BitVec 8),
    ∃ u, exec (.timetableInstall p id) s = .next u ∧
      u.tables.map (fun tb => (tb.part, tb.id, tb.count, tb.withdrawn)) =
        s.tables.map (fun tb => (tb.part, tb.id, tb.count, tb.withdrawn)) ∧
      (∀ tb ∈ u.tables, tb.part = p.val → tb.id = id.toNat → tb.start ≤ s.owl.ns / 1048576 → tb.withdrawn = none →
        tb.installed = true) ∧ { u with tables := s.tables } = s) ∧
  (∀ (s : State) (p : PartIx) (id : BitVec 8),
    let gone := fun (tb : TTable) => tb.part = p.val ∧ tb.id = id.toNat ∧ ∃ r, tb.withdrawn = some r ∧ r < s.owl.ns / 1048576
    (∃ tb ∈ s.tables, gone tb) →
    ∃ u, exec (.withdrawalEffect p id) s = .next u ∧ (∀ tb, tb ∈ u.tables ↔ tb ∈ s.tables ∧ ¬ gone tb) ∧ u.tiles = s.tiles ∧
      u.mem = s.mem)

/-- After a settlement at a round boundary no resource carries more than its limit in any beat, and no context more than its
quota; what a settlement suspends it does not remove. The shares in force are those of ADM_SHARE as it stood strictly before the
boundary. -/
def Sys2Proof.Claims.SettlementFits : Prop :=
  ∀ s : State, s.owl.ns % 1048576 = 0 →
    ∃ u, exec .admissionSettlement s = .next u ∧ u.overloads (u.tables.flatMap TTable.charges) = [] ∧
      (∀ c, c < 64 → u.overQuota c (u.bandwidth c) = false) ∧
      u.shares = (s.fieldAsOf 0 F.ADM_SHARE_SHARE_WAFER, s.fieldAsOf 0 F.ADM_SHARE_SHARE_MEM, s.fieldAsOf 0 F.ADM_SHARE_SHARE_LINK) ∧
      ((∀ k w, s.prior.find F.ADM_SHARE_SHARE_WAFER.reg = some (k, w) → k ≠ s.owl.ns) →
        u.shares = (s.ef F.ADM_SHARE_SHARE_WAFER, s.ef F.ADM_SHARE_SHARE_MEM, s.ef F.ADM_SHARE_SHARE_LINK)) ∧
      u.tables.map (fun tb => (tb.part, tb.id, tb.count)) = s.tables.map (fun tb => (tb.part, tb.id, tb.count)) ∧
      u.tiles = s.tiles ∧ u.mem = s.mem ∧ u.host = s.host


/-! ## Fences, captures and resets -/

namespace Sys2Proof.Claims

/-- A tile has been through a tile reset (R572): nothing of its registers, store and queues is left. -/
structure TileIsReset (T : Tile) : Prop where
  pc : T.pc = 0
  regs : T.s = [] ∧ T.v = [] ∧ T.k = [] ∧ T.d = [] ∧ T.lacc = [] ∧ T.root0 = Root.reset ∧ T.root1 = Root.reset
  store : T.store = []
  queues : T.mq = [] ∧ T.cq = [] ∧ T.xq = [] ∧ T.reqs = [] ∧ T.resv = none ∧ T.barrier = .none
  work : T.work = none ∧ T.inReset = false
  power : T.power = .on

/-- No request of a tile launches in parts that are not all launched. -/
def AllLaunched (T : Tile) : Prop := ∀ e ∈ T.reqs, e.2.chunked = true → e.2.launched = e.2.total

/-- A tile that is awake and prepares no sleep, with nothing left to launch. -/
structure Awake (T : Tile) : Prop where
  power : T.power = .on ∧ T.dozing = false ∧ T.den = none
  launched : AllLaunched T

end Sys2Proof.Claims

/-- A fence of a valid context is accepted with its CAUSE, 1 for a write and 2 for a context fault, and takes effect in the next
tick: FENCED is set, GEN rises by one, the drain bound is set, its capture is latched, and every tile that runs the context holds FENCED
pending with the new generation. A fence of a context that is not valid is rejected, and one of a context that is fenced, or for
which a fence has been accepted, changes nothing. -/
def Sys2Proof.Claims.FencesTakeEffect : Prop :=
  (∀ (s : State) (c : CtxIx) (fw : Bool) (src : Fin 4),
    s.cf c F.CTX_CFG_VALID = 1 → s.fenced c = false → (s.ctx c).fenceDue = none →
    ∃ u x, exec (.contextFence c fw src) s = .next u ∧ (u.ctx c).fenceDue = some (if fw then 2 else 1) ∧
      u.captures = s.captures ++ [x] ∧ x.kind = 2 ∧ x.id = c.val ∧ x.latched = false ∧
      (∀ k, k ≠ c.val → u.ctx k = s.ctx k) ∧ { u with ctxs := s.ctxs, captures := s.captures } = s) ∧
  (∀ (s : State) (c : CtxIx) (cause : Nat) (x : Capt),
    let gen := (s.cf c F.CTX_FENCE_GEN + 1) % 65536
    let old := s.owl.ns
    let now := (s.owl.ns + 1) % 2 ^ 64
    s.pending = [] → s.owl.setDue = none → (∀ e ∈ s.tiles, e.2.resv = none ∧ e.2.rejNow ≠ 2) →
    (s.ctx c).fenceDue = some cause → cause < 16 → (∀ k, k ≠ c.val → (s.ctx k).fenceDue = none) → s.fenced c = false →
    (∀ t ∈ s.tilesRunning c, Claims.Awake (s.tile t)) → s.captures = [x] → x.kind = 2 → x.id = c.val → x.latched = false →
    ∃ u y, step s = .next u ∧ u.cf c F.CTX_FENCE_FENCED = 1 ∧ u.cf c F.CTX_FENCE_GEN = gen ∧ u.cf c F.CTX_FENCE_CAUSE = cause ∧
      u.cf c F.CTX_EVENT_FENCED = 1 ∧ (u.ctx c).fenceDue = none ∧
      (u.ctx c).drainAt = some (now + s.ef F.RECOV_CFG_DRAIN_BEATS * 256) ∧
      u.captures = [y] ∧ y.kind = 2 ∧ y.id = c.val ∧ y.latched = true ∧ y.due = now + s.ef F.RECOV_CFG_DRAIN_BEATS * 256 ∧
      (∀ t ∈ s.tilesRunning c, u.tile t =
        { (s.tile t).nextTick old now with events := { (s.tile t).events with fenced := some gen } }) ∧
      (∀ t, t ∉ s.tilesRunning c → u.tile t = (s.tile t).nextTick old now) ∧ u.mem = s.mem ∧ u.host = s.host) ∧
  (∀ (s : State) (c : CtxIx) (fw : Bool) (src : Fin 4),
    s.cf c F.CTX_CFG_VALID = 0 →
    ∃ u, exec (.contextFence c fw src) s = .next u ∧ u.ef F.CFG_REJECT_SET = 1 ∧ u.tiles = s.tiles ∧ u.ctxs = s.ctxs) ∧
  (∀ (s : State) (c : CtxIx) (fw : Bool) (src : Fin 4),
    s.cf c F.CTX_CFG_VALID = 1 → s.fenced c = true ∨ (s.ctx c).fenceDue.isSome → exec (.contextFence c fw src) s = .next s)

/-- At the drain bound of a context whose tiles have nothing left, a command that still runs ends with STATUS 5. A tile
that is not quiesced at the limit is reset. -/
def Sys2Proof.Claims.DrainAndQuiesce : Prop :=
  (∀ (s : State) (c : CtxIx) (d : Nat),
    s.fenced c = true → (s.ctx c).drainAt = some d → d ≤ s.owl.ns → s.tilesRunning c = [] →
    ∃ u, exec (.drainBound c) s = .next u ∧ u.tiles = s.tiles ∧ u.mem = s.mem ∧ u.regs = s.regs ∧
      (∀ q, q < 8 → (s.queue c q).phase = 2 → (∀ i ∈ s.colls, ¬ (i.ctx = c.val ∧ i.queue = q)) →
        Claims.Ended s u c q 5 0 0 0) ∧
      (∀ i ∈ u.colls, i.ctx = c.val → i.refused = 0 → ∀ r ∈ s.reports i, bitOf r 0 = true)) ∧
  (∀ (s : State) (t : TileIx),
    let c := s.ctxOfTile t
    s.runsCtx t c = true → s.fenced c = true → s.pastQuiesce c = true → (s.tile t).quiesced = false →
    ∃ u, exec (.quiesceLimit t) s = .next u ∧ Claims.TileIsReset (u.tile t))

/-- A context reset of a fenced context raises RESETTING, and takes over the resets of the tiles that run it; with the context drained and quiesced it ends: the fence is lifted, each queue's TAIL is its HEAD, and
RESET_DONE is set. -/
def Sys2Proof.Claims.ContextResets : Prop :=
  (∀ (s : State) (c : CtxIx) (src : Fin 4),
    let p := s.cf c F.CTX_CFG_PART
    s.cf c F.CTX_CFG_VALID = 1 → (s.part p).step = none → s.engReset = none → (s.ctx c).reset = none →
    s.pf p F.HIB_STATUS_PHASE ≠ 1 → s.fenced c = true →
    ∃ u, exec (.contextReset c false src) s = .next u ∧ u.cf c F.CTX_FENCE_RESETTING = 1 ∧ u.cf c F.CTX_FENCE_FENCED = 1 ∧
      (u.ctx c).reset = some (s.owl.ns, 1) ∧
      (∀ t, u.tile t = if t ∈ s.tilesRunning c then { s.tile t with inReset := false } else s.tile t)) ∧
  (∀ (s : State) (c : CtxIx) (src : Fin 4),
    let p := s.cf c F.CTX_CFG_PART
    s.cf c F.CTX_CFG_VALID = 0 ∨ (s.part p).step.isSome ∨ s.engReset.isSome ∨ (s.ctx c).reset.isSome →
    ∃ u, exec (.contextReset c false src) s = .next u ∧ u.ef F.CFG_REJECT_SET = 1 ∧ u.tiles = s.tiles ∧ u.ctxs = s.ctxs) ∧
  (∀ (s : State) (c : CtxIx) (src : Fin 4) (d : Nat),
    (s.ctx c).reset.isSome → (s.ctx c).drainAt = some d → d ≤ s.owl.ns → s.tilesRunning c = [] → s.colls = [] →
    s.captures = [] → (∀ e ∈ s.granules, e.2 ≠ c.val + 1) →
    ∃ u, exec (.contextReset c true src) s = .next u ∧ u.cf c F.CTX_FENCE_FENCED = 0 ∧ u.cf c F.CTX_FENCE_RESETTING = 0 ∧
      (u.ctx c).reset = none ∧ u.cf c F.CTX_EVENT_RESET_DONE = 1 ∧ u.tiles = s.tiles ∧ u.mem = s.mem ∧
      (∀ q, q < 8 → u.hf (queuePage c q) F.Q_PTR_TAIL = s.hf (queuePage c q) F.Q_PTR_HEAD ∧
        ((u.queue c q).phase = 0 ∨ (u.queue c q).phase = 3)) ∧
      (∀ tb ∈ u.tables, tb.ctx = c.val → tb.withdrawn.isSome ∧ tb.gone = true))

/-- TRESET starts a tile's reset with a capture, or is rejected for a tile of another partition or inside a step; a double
fault starts it too; and the engine completes it: nothing of the tile is left. -/
def Sys2Proof.Claims.TileResets : Prop :=
  (∀ (s : State) (p : PartIx) (t : BitVec 14) (src : Fin 4),
    let good := s.ownerOfTile t.toNat = some p.val ∧ s.covered t.toNat = false ∧ (s.tile t.toNat).inReset = false
    (¬ good → ∃ u, exec (.treset p t src) s = .next u ∧ u.ef F.CFG_REJECT_SET = 1 ∧ u.tiles = s.tiles) ∧
    (good → (s.tile t.toNat).work = none → s.pf p F.HIB_STATUS_PHASE = 0 → (∀ x ∈ s.captures, x.latched = true) →
      ∃ u x, exec (.treset p t src) s = .next u ∧ OnlyTile { s with captures := s.captures ++ [x], free := s.free + 10800 }
        t.toNat u { s.tile t.toNat with inReset := true, resetAt := s.owl.ns } ∧ x.kind = 1 ∧ x.id = t.toNat ∧ x.latched = true)) ∧
  (∀ (s : State) (t : TileIx),
    s.covered t = false → (s.tile t).inReset = false →
    ((s.tile t).fld F.TILE_STATUS_DOUBLE = 0 → exec (.tileReset t) s = .next s) ∧
    ((s.tile t).fld F.TILE_STATUS_DOUBLE = 1 → ∃ u, exec (.tileReset t) s = .next u ∧ (u.tile t).inReset = true)) ∧
  (∀ (s : State) (t : TileIx),
    s.covered t = false → (s.tile t).inReset = true → (s.tile t).power ≠ .hib →
    ((s.tile t).work.isSome → s.drained (s.ctxOfTile t) = true) →
    ∃ u, exec (.tileReset t) s = .next u ∧ Claims.TileIsReset (u.tile t))

/-- RECOV_CTL.RESET takes a partition into RESET at step 1, or is rejected for one that is NONE or inside a step. A capture that is due is
written where it is enabled: SEQ rises and NEXT moves on by one slot of eight; else FAIL is set. -/
def Sys2Proof.Claims.PartitionResetsAndCaptures : Prop :=
  (∀ (s : State) (p : PartIx) (src : Fin 4),
    let turned := s.pstate p = 0 ∨ (s.part p).step.isSome ∨ s.engReset.isSome
    (turned → ∃ u, exec (.partitionResetCmd p src) s = .next u ∧ u.ef F.CFG_REJECT_SET = 1 ∧ u.parts = s.parts ∧
      u.tiles = s.tiles) ∧
    (¬ turned → ∃ u, exec (.partitionResetCmd p src) s = .next u ∧ u.pstate p = 1 ∧ u.pf p F.RECOV_STATUS_STEP = 1 ∧
      (u.part p).step.map (·.2) = some 5 ∧ (u.part p).mode = 0)) ∧
  (∀ (s : State) (x : Capt),
    s.captures.find? (fun x => x.latched && decide (x.due ≤ s.owl.ns) && s.inStep x) = some x →
    let n := s.ef F.CAPT_STATUS_SEQ
    let a := s.ef F.CAPT_CFG_ADDR * 2 ^ 22 + n % 8 * 2 ^ 22
    (s.ef F.CAPT_CFG_EN = 1 → s.linkUp = true →
      ∃ u, exec .captureWrite s = .next u ∧ x ∉ u.captures ∧ u.ef F.CAPT_STATUS_SEQ = (n + 1) % 2 ^ 32 ∧
        u.ef F.CAPT_STATUS_NEXT = (n + 1) % 8 ∧ Claims.littleEndian u.host (a + 8) 4 = n ∧ u.tiles = s.tiles ∧ u.mem = s.mem) ∧
    (s.ef F.CAPT_CFG_EN = 0 ∨ s.linkUp = false →
      ∃ u, exec .captureWrite s = .next u ∧ x ∉ u.captures ∧ u.ef F.CAPT_STATUS_FAIL = 1 ∧ u.host = s.host ∧ u.tiles = s.tiles ∧
        u.mem = s.mem))


/-! ## Recovery -/

/-- The key starts an engine reset, and with CYCLE it asks the tray for a power cycle instead; a write without the key is
rejected. Past the drain bounds of the step and of every valid context the reset leaves every tile reset, no timetable, no queue and no partition, and BOOT_STATUS
at stage 4. -/
def Sys2Proof.Claims.EngineResets : Prop :=
  (∀ (s : State) (src : Fin 4), s.engReset = none →
    ∃ u, exec (.engineReset 0x5A3C false src) s = .next u ∧ u.engReset.map (·.2) = some 1 ∧ u.ef F.RESET_LOG_KIND = 1 ∧
      u.ef F.RESET_LOG_CAUSE = 1) ∧
  (∀ (s : State) (src : Fin 4),
    exec (.engineReset 0x15A3C false src) s = .next { s with module := { s.module with cycleReq := true, cycleCause := 1 } }) ∧
  (∀ s : State, exec .powerCycleRequest s = .next { s with module := { s.module with cycleReq := true, cycleCause := 1 } }) ∧
  (∀ (s : State) (w : BitVec 64) (src : Fin 4), w.toNat % 65536 ≠ 0x5A3C →
    ∃ u, exec (.engineReset w false src) s = .next u ∧ u.ef F.CFG_REJECT_SET = 1 ∧ u.engReset = s.engReset ∧ u.tiles = s.tiles ∧
      u.module = s.module) ∧
  (∀ (s : State) (w : BitVec 64) (src : Fin 4) (start cause : Nat),
    s.engReset = some (start, cause) → s.ef F.BOOT_STATUS_STAGE = 8 →
    start + s.ef F.RECOV_CFG_DRAIN_BEATS * 256 ≤ s.owl.ns → (∀ c, c < 64 → s.cf c F.CTX_CFG_VALID = 1 → s.drained c = true) →
    ∃ u, exec (.engineReset w true src) s = .next u ∧ (∀ t, t < 10800 → Claims.TileIsReset (u.tile t)) ∧ u.tables = [] ∧
      u.queues = [] ∧ u.parts = [] ∧ u.ctxs = [] ∧ u.colls = [] ∧ u.granules = [] ∧ u.ef F.BOOT_STATUS_STAGE = 4)

/-- The loss of the host: configuration space returns to its initial values and HOST_LOST is set; an FLR of the PF starts an engine
reset with CAUSE 7, and one of a VF a reset of its context. A Badger that fires is reported in BADGER_STATUS, the
first one in its fields and a further one in MULTI. -/
def Sys2Proof.Claims.HostLossAndBadgers : Prop :=
  (∀ s : State, ∃ u, exec .pcieLinkDown s = .next u ∧ u.linkUp = false ∧ u.vfs = [] ∧ u.master = [] ∧ u.d3 = [] ∧
    u.ef F.RESET_LOG_HOST_LOST = 1 ∧ u.tiles = s.tiles ∧ u.mem = s.mem ∧ u.engReset = s.engReset) ∧
  (∀ s : State, ∃ u, exec .pcieHotReset s = .next u ∧ u.linkUp = s.linkUp ∧ u.vfs = [] ∧ u.master = [] ∧ u.d3 = [] ∧
    u.ef F.RESET_LOG_HOST_LOST = 1 ∧ u.tiles = s.tiles ∧ u.mem = s.mem ∧ u.engReset = s.engReset) ∧
  (∀ s : State, s.engReset = none → ∃ u, exec .pfFlr s = .next u ∧ u.engReset.map (·.2) = some 7 ∧ u.ef F.RESET_LOG_CAUSE = 7) ∧
  (∀ s : State, exec (.perst false) s = .next { s with module := { s.module with perst := false } }) ∧
  (∀ s : State, exec (.perst true) s =
    .next { s with module := { s.module with perst := true }, vfs := [], master := [], d3 := [] }) ∧
  (∀ (s : State) (c : CtxIx),
    let s' : State := { s with master := s.master.filter (· != c.val + 1), d3 := s.d3.filter (· != c.val + 1) }
    (s.cf c F.CTX_CFG_VALID = 0 → exec (.vfFlr c) s = .next s') ∧
    (s.cf c F.CTX_CFG_VALID = 1 → (s.part (s.cf c F.CTX_CFG_PART)).step = none → s.engReset = none → (s.ctx c).reset = none →
      s.pf (s.cf c F.CTX_CFG_PART) F.HIB_STATUS_PHASE ≠ 1 → s.fenced c = true →
      ∃ u, exec (.vfFlr c) s = .next u ∧ u.cf c F.CTX_FENCE_RESETTING = 1 ∧ (u.ctx c).reset = some (s.owl.ns, 7) ∧
        u.master = s'.master ∧ u.d3 = s'.d3 ∧
        (∀ t, u.tile t = if t ∈ s.tilesRunning c then { s.tile t with inReset := false } else s.tile t))) ∧
  (∀ (s : State) (t : TileIx) (q : Fin 4) (p : Nat),
    s.owl.ns % 256 = 0 → s.ownerOfTile t = some p → s.watching p = true → s.queueWatched t q = true →
    s.pf p F.BADGER_LIMIT_ACTION = 0 →
    ∃ u, exec (.badgerFire (.queue t q)) s = .next u ∧ u.tiles = s.tiles ∧ u.ctxs = s.ctxs ∧ u.pf p F.BADGER_STATUS_HUNG = 1 ∧
      (s.pf p F.BADGER_STATUS_HUNG = 0 → u.pf p F.BADGER_STATUS_KIND = 0 ∧ u.pf p F.BADGER_STATUS_QUEUE = q.val + 1 ∧
        u.pf p F.BADGER_STATUS_CTX = s.ctxOfTile t ∧ u.pf p F.BADGER_STATUS_TILE = t.val) ∧
      (s.pf p F.BADGER_STATUS_HUNG = 1 → u.pf p F.BADGER_STATUS_MULTI = 1)) ∧
  (∀ (s : State) (c : CtxIx) (q : QueueIx) (f : Nat),
    let p := s.cf c F.CTX_CFG_PART
    s.owl.ns % 256 = 0 → s.cf c F.CTX_CFG_VALID = 1 → s.watching p = true → s.pf p F.RECOV_CTL_SOLO_EN = 0 →
    (s.queue c q).phase = 2 → (s.queue c q).watch = some f → f + s.pf p F.BADGER_LIMIT_CMD_ROUNDS * 1048576 ≤ s.owl.ns →
    s.pf p F.BADGER_LIMIT_ACTION = 0 → s.pf p F.BADGER_STATUS_HUNG = 0 →
    ∃ u, exec (.badgerFire (.command c q)) s = .next u ∧ u.tiles = s.tiles ∧ u.pf p F.BADGER_STATUS_HUNG = 1 ∧
      u.pf p F.BADGER_STATUS_KIND = 1 ∧ u.pf p F.BADGER_STATUS_QUEUE = q.val ∧ u.pf p F.BADGER_STATUS_CTX = c.val)

/-- A step inside its bound goes on. One that has missed it runs on with AUTO_ESC 0, and the miss is reported over management; with 1 a
context or tile reset widens to the partition's, with ESCALATED, a partition's to the engine's, and the engine's is reported, or under AUTO_CYCLE
becomes a power cycle. -/
def Sys2Proof.Claims.StepsEscalate : Prop :=
  (∀ (s : State) (u : StepIx), s.missedBound u = false → exec (.escalation u) s = .next s) ∧
  (∀ (s : State) (u : StepIx), s.missedBound u = true → s.ef F.RECOV_CFG_AUTO_ESC = 0 →
    exec (.escalation u) s = .next { s with module := { s.module with events := s.module.events ++ [.stepMissed u] } }) ∧
  (∀ (s : State), s.ef F.RECOV_CFG_AUTO_ESC = 1 →
    (∀ (c : CtxIx) (start cause : Nat), (s.ctx c).reset = some (start, cause) → start + (400000 + s.longDrain) < s.owl.ns →
      ∃ u, exec (.escalation (.context c)) s = .next u ∧ u.pstate (s.cf c F.CTX_CFG_PART) = 1 ∧
        u.pf (s.cf c F.CTX_CFG_PART) F.RECOV_STATUS_ESCALATED = 1 ∧
        ((u.part (s.cf c F.CTX_CFG_PART)).step).map (·.2) = some 4) ∧
    (∀ (t : TileIx) (p : Nat), (s.tile t).inReset = true → (s.tile t).resetAt + 200000 < s.owl.ns → s.ownerOfTile t = some p →
      ∃ u, exec (.escalation (.tile t)) s = .next u ∧ u.pstate p = 1 ∧ u.pf p F.RECOV_STATUS_ESCALATED = 1 ∧
        ((u.part p).step).map (·.2) = some 4) ∧
    (∀ (p : PartIx) (start cause : Nat), (s.part p).step = some (start, cause) →
      start + ((if s.needsBlock p then 4910000 else 750000) + s.longDrain) < s.owl.ns →
      ∃ u, exec (.escalation (.part p)) s = .next u ∧ u.engReset.map (·.2) = some 4 ∧ u.pf p F.RECOV_STATUS_ESCALATED = 1) ∧
    (∀ (start cause : Nat), s.engReset = some (start, cause) → start + (50000000 + s.longDrain) < s.owl.ns →
      (s.ef F.RECOV_CFG_AUTO_CYCLE = 1 →
        exec (.escalation .engine) s = .next { s with module := { s.module with cycleReq := true, cycleCause := 4 } }) ∧
      (s.ef F.RECOV_CFG_AUTO_CYCLE = 0 →
        exec (.escalation .engine) s = .next { s with module := { s.module with events := s.module.events ++ [.stepMissed .engine] } })))

/-! ## Power -/

/-- A request for the level in force with none pending is done at once; one that R604 refuses sets REFUSED and REASON; another
is pending for the first round at least 65,536 ticks away. At that round the level is in force, and every tile loads CLK_EPOCH so that its total
of nominal cycles goes on without a break. -/
def Obligations.LevelsChange : Prop :=
  (∀ (s : State) (w : BitVec 64) (src : Fin 4),
    w.toNat < 4 →
    let free := s.ef F.ENGINE_INFO_GRADE ≠ 2 ∨ w ≠ 0
    let same := w.toNat = s.plevel ∧ s.ef F.PWR_PLVL_PEND = 0
    (¬ free → ∃ u, exec (.plevelRequest w src) s = .next u ∧ u.ef F.CFG_REJECT_SET = 1 ∧
      u.ef F.PWR_PLVL_PEND = s.ef F.PWR_PLVL_PEND ∧ u.ef F.PWR_PLVL_TARGET = s.ef F.PWR_PLVL_TARGET ∧ u.tiles = s.tiles) ∧
    (free → same → ∃ u, exec (.plevelRequest w src) s = .next u ∧ u.ef F.PWR_PLVL_TARGET = w.toNat ∧
      u.ef F.PWR_PLVL_PEND = 0 ∧ u.plevel = s.plevel ∧ Claims.HostOnly s u [F.PWR_PLVL_TARGET.reg]) ∧
    (free → ¬ same → s.plevelReason ≠ 0 → ∃ u, exec (.plevelRequest w src) s = .next u ∧ u.ef F.PWR_PLVL_REFUSED = 1 ∧
      u.ef F.PWR_PLVL_REASON = s.plevelReason ∧ u.ef F.PWR_PLVL_PEND = s.ef F.PWR_PLVL_PEND ∧
      Claims.HostOnly s u [F.PWR_PLVL_TARGET.reg]) ∧
    (free → ¬ same → s.plevelReason = 0 → ∃ u, exec (.plevelRequest w src) s = .next u ∧ u.ef F.PWR_PLVL_TARGET = w.toNat ∧
      u.ef F.PWR_PLVL_PEND = 1 ∧ u.plevel = s.plevel ∧
      u.ef F.PWR_PLVL_AT_ROUND = (s.owl.ns + 65536 + 1048575) / 1048576 % 2 ^ 44 ∧
      Claims.HostOnly s u [F.PWR_PLVL_TARGET.reg])) ∧
  (∀ s : State,
    let round := s.ef F.PWR_PLVL_AT_ROUND
    let level := s.ef F.PWR_PLVL_TARGET
    s.ef F.PWR_PLVL_PEND = 1 → round ≤ s.owl.ns / 1048576 →
    ∃ u, exec .plevelChange s = .next u ∧ u.plevel = level ∧ u.ef F.PWR_PLVL_PEND = 0 ∧ u.mem = s.mem ∧ u.host = s.host ∧
      (∀ t, t < 10800 → (u.tile t).fld F.CLK_EPOCH_MULT = 5 - level ∧ (u.tile t).fld F.CLK_EPOCH_BEAT = round * 4096 ∧
        (u.tile t).nominal (round * 1048576) = (s.tile t).nominal (round * 1048576) % 2 ^ 64 ∧
        (u.tile t).pc = (s.tile t).pc ∧ (u.tile t).s = (s.tile t).s ∧ (u.tile t).store = (s.tile t).store))

/-- A tile that waits in `wait` and is idle dozes: its clock stops and it keeps everything. A wake source starts the clock again and is named in
WAKE_SOURCE. -/
def Sys2Proof.Claims.DozeComesAndGoes : Prop :=
  (∀ (s : State) (t : TileIx),
    let T := s.tile t
    T.power = .on → T.idle = true → s.resvLive t = false → T.fld F.DBG_STATUS_HALTED = 0 → T.den = none → T.dozing = true →
    ∃ u, exec (.dozeEntry t) s = .next u ∧
      OnlyTile s t u { T with power := .doze, sleepFrom := some (s.owl.ns, T.nominal s.owl.ns) }) ∧
  (∀ (s : State) (t : TileIx) (source : Fin 16),
    let T := s.tile t
    T.power = .doze → (T.barrier = .wait → fetchable (T.pc + 4)) → source = 1 ∨ source = 3 ∨ source = 4 ∨ source = 5 →
    ∃ w : State, exec (.dozeWake t source) s = .next (w.advance t) ∧ (w.tile t).power = .on ∧
      (w.tile t).fld F.WAKE_SOURCE_SOURCE = source.val ∧ (w.tile t).fld F.WAKE_SOURCE_STATE = 1 ∧
      (w.tile t).pc = (if T.barrier = .wait then T.pc + 4 else T.pc) ∧ (w.tile t).s = T.s ∧ (w.tile t).v = T.v ∧ (w.tile t).store = T.store ∧
      (∀ t', t' ≠ t.val → w.tile t' = s.tile t')) ∧
  (∀ (s : State) (t : TileIx) (k : Nat),
    let T := s.tile t
    T.power = .doze → (T.barrier = .wait → fetchable (T.pc + 4)) → T.treeTick = some k → k ≤ s.owl.ns →
    ∃ w : State, exec (.dozeWake t 2) s = .next (w.advance t) ∧ (w.tile t).power = .on ∧
      (w.tile t).fld F.WAKE_SOURCE_SOURCE = 2 ∧ (w.tile t).pc = (if T.barrier = .wait then T.pc + 4 else T.pc) ∧ (w.tile t).store = T.store)

/-- Den: within 4,096 ticks of the alarm beat the wake starts, and at the beat the tile is on with its pads held, its
scalar registers kept and its vectors, masks, descriptors and LACCs gone. A wake step that misses its bound marks the tile and
resets its partition with CAUSE 4. PAD_RELEASE lets launches go on. -/
def Sys2Proof.Claims.DenComesAndGoes : Prop :=
  (∀ (s : State) (t : TileIx),
    let T := s.tile t
    T.power = .den → T.fld F.SLEEPCFG_ALARM_EN = 1 → T.fld F.DEN_WAKE_AT_BEAT * 256 ≤ s.owl.ns + 4096 →
    ∃ u, exec (.denAlarm t) s = .next u ∧ OnlyTile s t u { T with waking := some (T.waking.getD s.owl.ns) }) ∧
  (∀ (s : State) (t : TileIx) (source : Fin 16),
    let T := s.tile t
    T.power = .den → (T.barrier = .wait → fetchable (T.pc + 4)) →
    (source = 6 ∧ T.waking.isSome ∧ T.fld F.SLEEPCFG_ALARM_EN = 1 ∧ T.fld F.DEN_WAKE_AT_BEAT * 256 ≤ s.owl.ns) ∨
      (source = 5 ∧ T.haltReq.isSome) ∨
      (source = 4 ∧ (T.events.fenced.isSome ∨ T.events.msg.isSome ∨ T.events.sample = true)) →
    ∃ u T', exec (.denWake t source) s = .next u ∧ OnlyTile { s with free := s.free + 1 } t u T' ∧ T'.power = .on ∧ T'.waking = none ∧ T'.padsHeld = T.padsHeld ∧
      T'.fld F.WAKE_SOURCE_SOURCE = source.val ∧ T'.fld F.WAKE_SOURCE_STATE = 2 ∧ T'.pc = (if T.barrier = .wait then T.pc + 4 else T.pc) ∧ T'.s = T.s ∧ T'.v = [] ∧
      T'.k = [] ∧ T'.d = [] ∧ T'.lacc = [] ∧ T'.root0 = Root.reset ∧ T'.root1 = Root.reset) ∧
  (∀ (s : State) (t : TileIx),
    (s.tile t).power = .den →
    ((s.tile t).waking = none → exec (.wakeStepTimeout t) s = .next s) ∧
    ∀ k, (s.tile t).waking = some k →
    (s.owl.ns < k + 3600 → exec (.wakeStepTimeout t) s = .next s) ∧
    (k + 3600 ≤ s.owl.ns → s.ownerOfTile t = none → ∃ u, exec (.wakeStepTimeout t) s = .next u ∧ OnlyTile s t u { s.tile t with marked := true }) ∧
    (∀ p, k + 3600 ≤ s.owl.ns → s.ownerOfTile t = some p → (s.part p).step = none → s.engReset = none →
      ∃ u, exec (.wakeStepTimeout t) s = .next u ∧ u.pstate p = 1 ∧ ((u.part p).step).map (·.2) = some 4)) ∧
  (∀ (s : State) (t : TileIx),
    (s.tile t).padsHeld = true → (s.tile t).power = .on →
    ∃ w : State, exec (.padRelease (.tile t)) s = .next (w.advance t) ∧ (w.tile t).padsHeld = false ∧
      (w.tile t).fld F.PAD_RELEASE_HELD = 0 ∧ (∀ t', t' ≠ t.val → w.tile t' = s.tile t') ∧ w.regs = s.regs)

/-- Hibernate: ENTER is refused with the code of R619, or enters PHASE 1; a block that refuses aborts the entry; when all have stopped the
partition is switched off at a beat boundary, its tiles hold nothing and the retained layers are noted. WAKE and the alarm start the
wake; when it is done the layers that were not retained read zero and the tiles are on with their pads held; releasing those returns the partition to
READY. -/
def Obligations.HibernateComesAndGoes : Prop :=
  (∀ (s : State) (p : PartIx),
    (s.enterCode p ≠ 0 → ∃ u, exec (.hibEnter p) s = .next u ∧ u.pf p F.HIB_STATUS_REFUSED = 1 ∧
      u.pf p F.HIB_STATUS_REFUSE = s.enterCode p ∧ Claims.HostOnly s u [partPage p + F.HIB_STATUS_PHASE.reg]) ∧
    (s.enterCode p = 0 → s.pf p F.HIB_STATUS_PHASE = 0 → ∃ u, exec (.hibEnter p) s = .next u ∧
      u.pf p F.HIB_STATUS_PHASE = 1 ∧ (u.part p).stopped = 0 ∧ (u.part p).prepAt = s.owl.ns ∧
      (∀ t ∈ tilesOfBlock (s.blockAt p 0), (u.tile t).hibHold = true) ∧
      (∀ t, t ∉ tilesOfBlock (s.blockAt p 0) → u.tile t = s.tile t))) ∧
  (∀ (s : State) (p : PartIx),
    let n := (s.part p).stopped
    let b := s.blockAt p n
    s.pf p F.HIB_STATUS_PHASE = 1 → n < s.blockCount (some p.val) →
    (s.hibCause p b = 0 → s.blockTags b = false → (∀ t ∈ tilesOfBlock b, (s.tile t).unfinished = false) →
      ∃ u, exec (.hibBlockStop p) s = .next u ∧ (u.block b).stopped = true ∧
      (u.part p).stopped = n + 1 ∧ (u.part p).prepAt = s.owl.ns ∧ u.mem = s.mem ∧ u.regs = s.regs) ∧
    (s.hibCause p b ≠ 0 → ∃ u, exec (.hibAbort p) s = .next u ∧ u.pf p F.HIB_STATUS_PHASE = 0 ∧
      u.pf p F.HIB_STATUS_ABORTED = 1 ∧ u.pf p F.PART_WAKE_SOURCE_SOURCE = 9 ∧
      u.pf p F.PART_WAKE_SOURCE_CAUSE = s.hibCause p b ∧ (u.part p).stopped = 0 ∧ u.mem = s.mem)) ∧
  (∀ (s : State) (p : PartIx),
    s.pf p F.HIB_STATUS_PHASE = 1 → (s.part p).stopped = s.blockCount (some p.val) → s.owl.ns % 256 = 0 →
    (s.part p).prepAt < s.owl.ns →
    ∃ u, exec (.hibCommit p) s = .next u ∧ u.pf p F.HIB_STATUS_PHASE = 2 ∧ u.pstate p = 3 ∧
      u.pf p F.HIB_STATUS_RETAINED = s.pf p F.HIB_CFG_LAYERS ∧ (u.part p).clockStop = s.owl.ns ∧ u.mem = s.mem ∧
      (∀ t ∈ s.tilesOf p, (u.tile t).power = .hib ∧ (u.tile t).padsHeld = true ∧ (u.tile t).store = [] ∧ (u.tile t).s = [])) ∧
  (∀ (s : State) (p : PartIx),
    (s.part p).wake = none →
    (s.pf p F.HIB_STATUS_PHASE = 2 → s.ef F.PWR_PLVL_PEND = 0 → ∃ u, exec (.hibWake p) s = .next u ∧
      u.pf p F.HIB_STATUS_PHASE = 3 ∧ (u.part p).wake = some (s.owl.ns, 7, s.owl.ns) ∧ u.tiles = s.tiles) ∧
    (s.pf p F.HIB_STATUS_PHASE = 0 ∨ 3 ≤ s.pf p F.HIB_STATUS_PHASE → ∃ u, exec (.hibWake p) s = .next u ∧
      u.pf p F.HIB_STATUS_REFUSED = 1 ∧ u.pf p F.HIB_STATUS_REFUSE = 5 ∧
      Claims.HostOnly s u [partPage p + F.HIB_STATUS_PHASE.reg]) ∧
    (s.pf p F.HIB_STATUS_PHASE = 2 → s.pf p F.HIB_CFG_ALARM_EN = 1 → s.pf p F.HIB_WAKE_AT_BEAT = s.owl.ns / 256 →
      s.ef F.PWR_PLVL_PEND = 0 → ∃ u, exec (.hibAlarm p) s = .next u ∧ u.pf p F.HIB_STATUS_PHASE = 3 ∧
        (u.part p).wake = some (s.owl.ns, 6, s.owl.ns) ∧ u.tiles = s.tiles)) ∧
  (∀ (s : State) (p : PartIx) (beat : BitVec 56) (start source at_ : Nat),
    (s.part p).wake = some (start, source, at_) → s.pf p F.HIB_STATUS_PHASE = 3 → start ≤ beat.toNat * 256 →
    beat.toNat * 256 ≤ s.owl.ns → s.tap.held = none →
    ∃ u, exec (.hibWakeDone p beat) s = .next u ∧ u.pf p F.HIB_STATUS_PHASE = 4 ∧ (u.part p).wake = none ∧
      u.pf p F.HIB_STATUS_LAST_WAKE_US = min ((s.owl.ns - at_) / 1000) (2 ^ 20 - 1) ∧
      (∀ t ∈ s.tilesOf p, (u.tile t).power = .on ∧ (u.tile t).padsHeld = true ∧ (u.tile t).store = []) ∧
      (∀ b ∈ s.blocksOf p, ∀ l, l < 12 → bitOf (s.pf p F.HIB_STATUS_RETAINED) l = false →
        ∀ x, b * 2 ^ 35 + l * 2 ^ 31 ≤ x → x < b * 2 ^ 35 + (l + 1) * 2 ^ 31 → memByte u.mem x = 0)) ∧
  (∀ (s : State) (p : PartIx) (start source at_ : Nat),
    (s.part p).wake = some (start, source, at_) → s.pf p F.HIB_STATUS_PHASE = 3 → start + 100000 ≤ s.owl.ns →
    s.pf p F.HIB_STATUS_WAKE_FAIL = 0 → s.ef F.RECOV_CFG_AUTO_ESC = 0 →
    ∃ u, exec (.hibWakeFail p) s = .next u ∧ u.pf p F.HIB_STATUS_WAKE_FAIL = 1 ∧ u.tiles = s.tiles ∧ u.mem = s.mem ∧
      u.module = { s.module with events := s.module.events ++ [.wakeFail p.val] }) ∧
  (∀ (s : State) (p : PartIx),
    s.pf p F.HIB_STATUS_PHASE = 4 → (s.part p).step = none →
    ∃ u, exec (.padRelease (.part p)) s = .next u ∧ u.pf p F.HIB_STATUS_PHASE = 0 ∧ u.pstate p = 2 ∧ u.mem = s.mem ∧
      (∀ t ∈ s.tilesOf p, (u.tile t).padsHeld = false ∧ (u.tile t).fld F.TILE_STATUS_OPSTATE = 0))


/-! ## The Fox -/

/-- A latch that is due, by FOX_DUMP_PERIOD or FOX_LATCH_AT, is taken with the next number, or skipped and counted where the ring is
full or absent or a dump is still being written. A dump that has been written stands in the ring: TAIL rises. The registers of the Fox take good
writes and reject those of R658. -/
def Sys2Proof.Claims.FoxLatchesAndDumps : Prop :=
  (∀ (s : State) (p : PartIx),
    let n := (s.part p).foxBeats
    let due := (n ≠ 0 ∧ s.owl.ns % 256 = 0 ∧ s.owl.ns / 256 % n = 0) ∨
      (s.pf p F.FOX_STATUS_ARMED = 1 ∧ s.pf p F.FOX_LATCH_AT_NS = s.owl.ns)
    let slots := s.pf p F.FOX_DUMP_BASE_SLOTS
    let skipped := slots = 0 ∨ (s.pf p F.FOX_RING_PTR_TAIL + 2 ^ 32 - s.pf p F.FOX_RING_PTR_HEAD) % 2 ^ 32 = slots ∨
      (s.part p).latch.isSome ∨ (s.part p).step.isSome
    due → s.pf p F.HIB_STATUS_PHASE = 0 ∨ 4 ≤ s.pf p F.HIB_STATUS_PHASE → s.pstate p ≠ 0 →
    (¬ skipped → ∃ u, exec (.foxLatch p) s = .next u ∧ (u.part p).latch.isSome ∧ (u.part p).seq = (s.part p).seq + 1 ∧
      u.pf p F.FOX_STATUS_BUSY = 1 ∧ u.tiles = s.tiles ∧ u.mem = s.mem) ∧
    (skipped → ∃ u, exec (.foxLatch p) s = .next u ∧ (u.part p).latch = (s.part p).latch ∧
      (u.part p).seq = (s.part p).seq + 1 ∧ u.pf p F.FOX_STATUS_SKIP_SEEN = 1 ∧
      u.pf p F.FOX_STATUS_SKIPPED = min (s.pf p F.FOX_STATUS_SKIPPED + 1) (2 ^ 32 - 1) ∧ u.tiles = s.tiles ∧ u.mem = s.mem)) ∧
  (∀ (s : State) (p : PartIx) (ws : List (Nat × Nat)),
    (s.part p).latch = some ws →
    ∃ u, exec (.dumpWritten p) s = .next u ∧ (u.part p).latch = none ∧ u.pf p F.FOX_STATUS_BUSY = 0 ∧
      u.pf p F.FOX_RING_PTR_TAIL = (s.pf p F.FOX_RING_PTR_TAIL + 1) % 2 ^ 32 ∧ u.tiles = s.tiles ∧ u.host = s.host) ∧
  (∀ (s : State) (p : PartIx) (w : BitVec 64) (src : Fin 4),
    (s.owl.ns + 4096 ≤ w.toNat → ∃ u, exec (.foxLatchAtWrite p w src) s = .next u ∧ u.pf p F.FOX_LATCH_AT_NS = w.toNat ∧
      u.pf p F.FOX_STATUS_ARMED = 1 ∧
      Claims.HostOnly s u [partPage p + F.FOX_LATCH_AT_NS.reg, partPage p + F.FOX_STATUS_ARMED.reg]) ∧
    (w.toNat < s.owl.ns + 4096 → ∃ u, exec (.foxLatchAtWrite p w src) s = .next u ∧ u.ef F.CFG_REJECT_SET = 1 ∧
      u.pf p F.FOX_LATCH_AT_NS = s.pf p F.FOX_LATCH_AT_NS ∧ u.pf p F.FOX_STATUS_ARMED = s.pf p F.FOX_STATUS_ARMED)) ∧
  (∀ (s : State) (p : PartIx) (w : BitVec 64) (src : Fin 4),
    let offset := w.toNat % 2 ^ 45
    let slots := w.toNat / 2 ^ 48
    w.toNat / 2 ^ 45 % 8 = 0 → slots < 256 → offset % 4096 = 0 →
    offset + slots * slotBytes (s.tilesOf p).length (s.blocksOf p).length ≤ s.blockCount (some p.val) * blockBytes →
    ∃ u, exec (.foxDumpBaseWrite p w src) s = .next u ∧ u.pf p F.FOX_DUMP_BASE_OFFSET = offset ∧
      u.pf p F.FOX_DUMP_BASE_SLOTS = slots ∧ u.pf p F.FOX_RING_PTR_HEAD = 0 ∧ u.pf p F.FOX_RING_PTR_TAIL = 0 ∧
      u.pf p F.FOX_STATUS_BUSY = 0 ∧ (u.part p).latch = none ∧ u.tiles = s.tiles ∧ u.mem = s.mem)

/-- A sampled event at its period makes SAMPLE pending and loads LEFT anew, or counts a lost trigger where one is still
pending; with EN 0, or with USER 1 in handler mode, it does nothing. A write to FOX_SAMPLE adds an entry of the tile's block, at most
64 of them. -/
def Sys2Proof.Claims.SamplesAreTaken : Prop :=
  (∀ (s : State) (t : TileIx),
    let T := s.tile t
    let off := T.fld F.SAMPLE_CFG_EN = 0 ∨ (T.fld F.SAMPLE_CFG_USER = 1 ∧ T.fld F.TILE_STATUS_MODE = 1)
    (off → ∃ u, exec (.sampleTrigger t) s = .next u ∧ OnlyTile s t u T) ∧
    (¬ off → ∃ u T', exec (.sampleTrigger t) s = .next u ∧ OnlyTile s t u T' ∧
      T'.fld F.SAMPLE_STATUS_LEFT = T.fld F.SAMPLE_CFG_PERIOD ∧ T'.events.sample = true ∧
      (T.events.sample = true → T'.fld F.SAMPLE_STATUS_LOST_SEEN = 1 ∧
        T'.fld F.SAMPLE_STATUS_LOST = min (T.fld F.SAMPLE_STATUS_LOST + 1) (2 ^ 16 - 1)) ∧
      (∀ a, a ≠ F.SAMPLE_STATUS_LEFT.reg → T'.ctlWord a = T.ctlWord a) ∧
      T' = { T with ctl := T'.ctl, events := { T.events with sample := true },
                    skid := if T.events.sample then T.skid else T.firstSkid })) ∧
  (∀ (s : State) (t : TileIx) (w : BitVec 64) (p : Nat),
    let b := blockOfTile t
    s.ownerOfTile t = some p →
    (((s.part p).samples.filter (fun x => x.1 == b)).length < 64 →
      ∃ u w1, exec (.foxSampleWrite t w) s = .next u ∧ (u.part p).samples = (s.part p).samples ++ [(b, w.toNat, w1)] ∧
        w1 % 16 = ltileOf t ∧ w1 / 2 ^ 14 = s.owl.ns / 256 % 2 ^ 50 ∧ u.tiles = s.tiles ∧ u.regs = s.regs) ∧
    (64 ≤ ((s.part p).samples.filter (fun x => x.1 == b)).length →
      ∃ u, exec (.foxSampleWrite t w) s = .next u ∧ (u.part p).samples = (s.part p).samples ∧
        (u.part p).sampleDrops.get (fun _ => 0) b = (s.part p).sampleDrops.get (fun _ => 0) b + 1 ∧ u.tiles = s.tiles ∧
        u.regs = s.regs))

/-! ## Debug -/

namespace Sys2Proof.Claims

/-- RESULT of the frame that the next Capture-DR loads (R661). -/
def frameResult (dr : Nat) : Nat := dr / 2 ^ 107 % 2 ^ 4

/-- The debug commands that an access frame carries. -/
def framed (f : BitVec 112) : Instr → Prop := fun i =>
  i = .debugNop f ∨ i = .debugPeek f ∨ i = .debugTake f ∨ i = .debugWrite f

/-- A frame that names the tile store of a tile at an aligned address, which debug may reach now. -/
structure StoreFrame (s : State) (f : BitVec 112) : Prop where
  opened : s.debugOpen = true
  free : s.tap.held = none
  target : frameTarget f.toNat = 1
  tile : frameTile f.toNat < 10800
  place : frameAddr f.toNat < 0x300000 ∧ frameAddr f.toNat % 8 = 0
  reserved : f.toNat / 2 ^ 107 = 0
  awake : (s.tile (frameTile f.toNat)).power ≠ .hib
  steady : (s.tile (frameTile f.toNat)).inReset = false ∧ s.covered (frameTile f.toNat) = false

/-- A tile that runs: awake, with no halt under way and no live reservation. -/
structure Runs (s : State) (t : Nat) : Prop where
  power : (s.tile t).power = .on
  awake : (s.tile t).dozing = false ∧ (s.tile t).den = none
  going : (s.tile t).fld F.DBG_STATUS_HALTED = 0 ∧ (s.tile t).fld F.DBG_STATUS_STOPPING = 0 ∧ (s.tile t).haltReq = none
  free : s.resvLive t = false

end Sys2Proof.Claims

/-- While debug is locked an access frame answers RESULT 2 and does nothing. Unlocked, DEBUG_NOP answers 0, DEBUG_PEEK and DEBUG_TAKE give the 8
bytes of the tile store that the frame names, and 5 where they are uncorrectable, and DEBUG_WRITE writes them. -/
def Sys2Proof.Claims.AccessFrames : Prop :=
  (∀ (s : State) (f : BitVec 112) (i : Instr),
    Claims.framed f i → s.debugOpen = false → s.tap.held = none →
    ∃ d, exec i s = .next { s with tap := { s.tap with ir := 0x10, dr := d } } ∧ Claims.frameResult d = 2) ∧
  (∀ (s : State) (f : BitVec 112),
    s.debugOpen = true → s.tap.held = none → frameOp f.toNat < 4 → frameTarget f.toNat ≠ 3 → f.toNat / 2 ^ 107 = 0 →
    (frameTarget f.toNat = 2 → (hostReg (frameAddr f.toNat)).isSome) →
    ∃ d, exec (.debugNop f) s = .next { s with tap := { s.tap with ir := 0x10, dr := d } } ∧ Claims.frameResult d = 0) ∧
  (∀ (s : State) (f : BitVec 112) (i : Instr),
    Claims.StoreFrame s f → i = .debugPeek f ∨ i = .debugTake f →
    ∃ d, exec i s = .next { s with tap := { s.tap with ir := 0x10, dr := d } } ∧
      ((s.tile (frameTile f.toNat)).hasUE (frameAddr f.toNat) 8 = true → Claims.frameResult d = 5) ∧
      ((s.tile (frameTile f.toNat)).hasUE (frameAddr f.toNat) 8 = false → Claims.frameResult d = 0 ∧
        d % 2 ^ 64 = Claims.littleEndian (s.tile (frameTile f.toNat)).store (frameAddr f.toNat) 8)) ∧
  (∀ (s : State) (f : BitVec 112),
    Claims.StoreFrame s f →
    let t := frameTile f.toNat
    let a := frameAddr f.toNat
    ∃ u, exec (.debugWrite f) s = .next u ∧ Claims.frameResult u.tap.dr = 0 ∧
      Claims.littleEndian (u.tile t).store a 8 = f.toNat % 2 ^ 64 ∧
      (∀ x, x < a ∨ a + 8 ≤ x → memByte (u.tile t).store x = memByte (s.tile t).store x) ∧
      (∀ t', t' ≠ t → u.tile t' = s.tile t') ∧ u.regs = s.regs ∧ u.mem = s.mem)

/-- The other instructions of the TAP: IDCODE captures 0x1D40114F, BYPASS and every code without a meaning one 0, and the
scans select their registers; SCAN_PHYS shifts only while debug is unlocked inside an engine reset. -/
def Sys2Proof.Claims.TapInstructions : Prop :=
  (∀ s : State, exec .idcode s = .next { s with tap := { s.tap with ir := 1, dr := 0x1D40114F } }) ∧
  (∀ (s : State) (code : BitVec 8), exec (.bypass code) s = .next { s with tap := { s.tap with ir := code.toNat, dr := 0 } }) ∧
  (∀ s : State, ∃ d, exec .samplePreload s =
    .next { s with free := s.free + 1, tap := { s.tap with ir := 2, dr := d } }) ∧
  (∀ s : State, ∃ u, exec .extest s = .next u ∧ u.tap.ir = 0 ∧ u.trace = s.trace ∧ u.tiles = s.tiles ∧ u.mem = s.mem ∧
    (s.ef F.TRACE_CFG_EN = 1 → s.trace ≠ [] → u.ef F.DBG_CONFLICT_TRACE_PINS = 1)) ∧
  (∀ s : State, s.scanOpen = false → exec .scanPhys s = .next { s with tap := { s.tap with ir := 0x20, dr := 0 } }) ∧
  (∀ s : State, s.debugOpen = true → s.engReset.isSome → s.ef F.BOOT_STATUS_STAGE = 4 →
    ∃ u, exec .scanPhys s = .next u ∧ u.tap.ir = 0x20 ∧ u.tap.scanned = true ∧ u.tiles = s.tiles ∧ u.mem = s.mem)

/-- A halt of a running tile stops its dispatch with HALT_WHY 1, 2 for a breakpoint, 3 for a partition; it becomes halted once nothing it
has started is left to launch; a resume or a step lets a halted tile go on and is rejected on one that is not halted. While debug is
locked the debug commands do nothing. -/
def Sys2Proof.Claims.TilesHaltAndResume : Prop :=
  (∀ (s : State) (t : TileIx) (i : Instr), s.debugOpen = false → i = .debugHalt t ∨ i = .debugResume t ∨ i = .debugStep t →
    exec i s = .next s) ∧
  (∀ (s : State) (t : TileIx) (i : Instr) (why : Nat),
    let T := s.tile t
    (i = .debugHalt t ∧ s.debugOpen = true ∧ why = 1) ∨
      (i = .breakpointMatch t ∧ T.breakHit = true ∧ T.barrier = .none ∧ why = 2) →
    Claims.Runs s t →
    ∃ u T', exec i s = .next u ∧ OnlyTile s t u T' ∧ T'.fld F.DBG_STATUS_STOPPING = 1 ∧ T'.fld F.DBG_STATUS_HALT_WHY = why ∧
      (∀ a, a ≠ F.DBG_STATUS_STOPPING.reg → T'.ctlWord a = T.ctlWord a) ∧ T' = { T with ctl := T'.ctl }) ∧
  (∀ (s : State) (t : TileIx),
    let T := s.tile t
    T.haltReq = none → T.fld F.DBG_STATUS_STOPPING = 1 → T.stopped = true →
    ∃ u T', exec (.tileHalted t) s = .next u ∧ OnlyTile s t u T' ∧ T'.fld F.DBG_STATUS_STOPPING = 0 ∧
      T'.fld F.DBG_STATUS_HALTED = 1 ∧ T'.haltFrom = some (s.tileCycle t) ∧
      T' = { T with ctl := T'.ctl, haltFrom := T'.haltFrom, skid := 7 }) ∧
  (∀ (s : State) (t : TileIx),
    let T := s.tile t
    s.debugOpen = true → T.fld F.DBG_STATUS_HALTED = 1 →
    (∃ w : State, exec (.debugResume t) s = .next (w.advance t) ∧ (w.tile t).fld F.DBG_STATUS_HALTED = 0 ∧
      (w.tile t).fresh = true ∧ (w.tile t).pc = T.pc ∧ (w.tile t).s = T.s ∧ (w.tile t).store = T.store ∧
      (∀ t', t' ≠ t.val → w.tile t' = s.tile t')) ∧
    (∃ u T', exec (.debugStep t) s = .next u ∧ OnlyTile s t u T' ∧ T'.fld F.DBG_STATUS_HALTED = 0 ∧ T'.stepping = true ∧
      T'.pc = T.pc ∧ T'.s = T.s ∧ T'.store = T.store)) ∧
  (∀ (s : State) (t : TileIx) (i : Instr),
    s.debugOpen = true → (s.tile t).fld F.DBG_STATUS_HALTED = 0 → i = .debugResume t ∨ i = .debugStep t →
    ∃ u T', exec i s = .next u ∧ OnlyTile s t u T' ∧ T'.fld F.TILE_CFG_REJECT_SET = 1 ∧
      T' = { s.tile t with ctl := T'.ctl, rejNow := T'.rejNow })

/-- An armed halt of a partition acts at its tick on every tile of it, and an armed resume on every halted tile. -/
def Sys2Proof.Claims.PartitionsHaltAndResume : Prop :=
  (∀ (s : State) (p : PartIx),
    s.pf p F.DBG_PART_CTL_ARMED = 1 → s.pf p F.DBG_PART_CTL_OP = 1 → s.pf p F.DBG_PART_AT_NS ≤ s.owl.ns →
    (∀ t ∈ s.tilesOf p, Claims.Runs s t) →
    ∃ u, exec (.partitionHalt p) s = .next u ∧ u.pf p F.DBG_PART_CTL_ARMED = 0 ∧
      (∀ t ∈ s.tilesOf p, (u.tile t).fld F.DBG_STATUS_STOPPING = 1 ∧ (u.tile t).fld F.DBG_STATUS_HALT_WHY = 3) ∧
      (∀ t, t ∉ s.tilesOf p → u.tile t = s.tile t) ∧ u.mem = s.mem) ∧
  (∀ (s : State) (p : PartIx),
    s.pf p F.DBG_PART_CTL_ARMED = 1 → s.pf p F.DBG_PART_CTL_OP = 2 → s.pf p F.DBG_PART_AT_NS ≤ s.owl.ns →
    (∀ t ∈ s.tilesOf p, (s.tile t).xq = [] ∧ (s.tile t).reqs = []) →
    ∃ u, exec (.partitionResume p) s = .next u ∧ u.pf p F.DBG_PART_CTL_ARMED = 0 ∧
      (∀ t ∈ s.tilesOf p, (u.tile t).fld F.DBG_STATUS_HALTED = 0) ∧
      (∀ t, t ∉ s.tilesOf p → u.tile t = s.tile t) ∧ u.mem = s.mem)

/-- A traced event with room for it appends a record with hall time in W1; with none the drop is counted. A read of TRACE_DATA1 gives W1
of the oldest record, or 0, and removes it. -/
def Sys2Proof.Claims.TraceRecords : Prop :=
  (∀ (s : State) (kind : Fin 6) (pc : BitVec 22) (code : BitVec 8),
    let tile := s.ef F.TRACE_CFG_TILE
    (s.ef F.TRACE_CFG_EN = 0 → exec (.traceRecord kind pc code) s = .next s) ∧
    (s.ef F.TRACE_CFG_EN = 1 → s.trace.length ≤ 16320 → s.dropped = 0 →
      exec (.traceRecord kind pc code) s = .next { s with trace := s.trace ++
        [(BitVec.ofNat 64 (pc.toNat + tile * 2 ^ 22 + kind.val * 2 ^ 36 + (if kind = 1 then code.toNat else 0) * 2 ^ 39),
          BitVec.ofNat 64 s.owl.ns)] }) ∧
    (s.ef F.TRACE_CFG_EN = 1 → 16384 ≤ s.trace.length →
      ∃ u, exec (.traceRecord kind pc code) s = .next u ∧ u.trace = s.trace ∧ u.dropped = s.dropped + 1 ∧
        u.ef F.TRACE_STATUS_DROP_SEEN = 1 ∧ u.tiles = s.tiles)) ∧
  (∀ s : State, exec .traceData1Read s = .next { s with
    trace := s.trace.tail, tap := { s.tap with hostTook := true },
    reply := { status := 0, poisoned := false, data := ((s.trace.head?.map (fun (x : Word × Word) => x.2)).getD 0).toNat } })



/-! ## The host interface -/

namespace Sys2Proof.Claims

/-- What a write of `w` leaves in a field, by its access code (R24), where the written value is no reserved encoding. -/
def afterWrite (f : FSpec) (old w : Nat) : Nat :=
  let v := bitsOf w f.fld.lo f.fld.width
  let cur := bitsOf old f.fld.lo f.fld.width
  match f.acc with
  | .rw => v
  | .w1c => Nat.land cur (Nat.xor v (2 ^ f.fld.width - 1))
  | .w1s => Nat.lor cur v
  | .ro | .wo => cur

/-- The management commands reach the engine: standby power and the 48 V domain are on. -/
def Powered (s : State) : Prop := s.module.standby = true ∧ s.module.mainPg = true

/-- The bytes of an aperture access of one line: a sound line of the partition's memory. -/
def SoundLine (s : State) (g : Nat) : Prop :=
  let a := g % 2 ^ 48 / 64 * 64
  s.memUE.contains a = false ∧ s.memPoison.contains a = false

end Sys2Proof.Claims

/-- An access to register space of another size or alignment is an Unsupported Request. A read answers what the register holds, and 0
at an unassigned offset, without a side effect but at TRACE_DATA1 (and TIME_NOW_FRAC, whose host reading is free); a write
acts as a register write with SRC 1, and at an unassigned offset it is ignored and sets CFG_REJECT, through the PF as through a VF;
through a VF the read-only registers of the context page keep their value. A function that does not answer changes nothing. -/
def Obligations.HostRegisterAccesses : Prop :=
  (∀ (s : State) (vf : Option CtxIx) (off : BitVec 28) (n : BitVec 13) (wr : Bool) (w : BitVec 64),
    let fn := (vf.map (fun c => c.val + 1)).getD 0
    (s.answers fn = false → exec (.hostRegisterAccess vf off n wr w) s = .next s) ∧
    (s.answers fn = true → n.toNat ≠ 8 ∨ off.toNat % 8 ≠ 0 →
      exec (.hostRegisterAccess vf off n wr w) s = .next { s with reply := ⟨1, false, 0⟩ })) ∧
  (∀ (s : State) (off : BitVec 28) (w : BitVec 64),
    s.answers 0 = true → off.toNat % 8 = 0 → off ≠ 0x418 → off ≠ 0x108 →
    exec (.hostRegisterAccess none off 8 false w) s = .next { s with reply := ⟨0, false, (s.readReg off.toNat).toNat⟩ } ∧
    (hostReg off.toNat = none → exec (.hostRegisterAccess none off 8 false w) s = .next { s with reply := ⟨0, false, 0⟩ })) ∧
  (∀ (s : State) (off : BitVec 28) (w : BitVec 64),
    s.answers 0 = true → off.toNat % 8 = 0 →
    exec (.hostRegisterAccess none off 8 true w) s = exec (.registerWrite (.host off) w 1) s) ∧
  (∀ (s : State) (off : BitVec 28) (w : BitVec 64),
    s.answers 0 = true → off.toNat % 8 = 0 → hostReg off.toNat = none →
    ∃ u, exec (.hostRegisterAccess none off 8 true w) s = .next u ∧ u.ef F.CFG_REJECT_SET = 1 ∧ u.tiles = s.tiles ∧
      u.mem = s.mem ∧ ∀ a, a ≠ F.CFG_REJECT_SET.reg → a ≠ F.IRQ_STATUS_REJECT.reg → a ≠ F.DBG_CONFLICT_REJECT.reg →
        u.hostWord a = s.hostWord a) ∧
  (∀ (s : State) (c : CtxIx) (off : BitVec 28) (w : BitVec 64),
    s.answers (c.val + 1) = true → off.toNat ∈ [0x00, 0x08, 0x40, 0x80, 0x88, 0x90, 0x98] →
    ∃ u, exec (.hostRegisterAccess (some c) off 8 true w) s = .next u ∧
      (∀ a, a ≠ F.CFG_REJECT_SET.reg → a ≠ F.IRQ_STATUS_REJECT.reg → a ≠ F.DBG_CONFLICT_REJECT.reg →
        u.hostWord a = s.hostWord a) ∧ u.tiles = s.tiles ∧
      u.mem = s.mem) ∧
  (∀ (s : State) (c : CtxIx) (off : BitVec 28) (w : BitVec 64),
    s.answers (c.val + 1) = true → off.toNat % 8 = 0 → off.toNat < 0x8000 → hostReg (0x200000 + 0x10000 * c.val + off.toNat) = none →
    exec (.hostRegisterAccess (some c) off 8 false w) s = .next { s with reply := ⟨0, false, 0⟩ } ∧
    ∃ u, exec (.hostRegisterAccess (some c) off 8 true w) s = .next u ∧ u.ef F.CFG_REJECT_SET = 1 ∧ u.tiles = s.tiles ∧
      u.mem = s.mem ∧ ∀ a, a ≠ F.CFG_REJECT_SET.reg → a ≠ F.IRQ_STATUS_REJECT.reg → a ≠ F.DBG_CONFLICT_REJECT.reg →
        u.hostWord a = s.hostWord a)

/-- An aperture access is judged whole: disabled or beyond the partition's memory it is an Unsupported Request, in a
partition that is not READY or to a granule of another context a Completer Abort, and a write so refused is discarded. A
read of a sound line answers the partition's bytes at the interleaved offset, and a write stores them there and nowhere
else; both through the PF's window and through a context's. -/
def Obligations.ApertureAccesses : Prop :=
  (∀ (s : State) (off : BitVec 36) (n : BitVec 13) (data : Nat),
    let p := s.ef F.APERTURE_PART
    let o := s.ef F.APERTURE_BASE_GIB * 2 ^ 30 + off.toNat
    let g := s.interleave p o
    s.answers 0 = true →
    (s.ef F.APERTURE_EN = 0 ∨ s.blockCount (some p) * 25769803776 < o + n.toNat →
      exec (.pfApertureAccess off n false data []) s = .next { s with reply := ⟨1, false, 0⟩ } ∧
      exec (.pfApertureAccess off n true data []) s = .next s) ∧
    (s.ef F.APERTURE_EN = 1 → o + n.toNat ≤ s.blockCount (some p) * 25769803776 →
      (s.pstate p ≠ 2 → exec (.pfApertureAccess off n false data []) s = .next { s with reply := ⟨2, false, 0⟩ } ∧
        exec (.pfApertureAccess off n true data []) s = .next s) ∧
      (s.pstate p = 2 → 0 < n.toNat → o % 64 + n.toNat ≤ 64 →
        (Claims.SoundLine s g → ∃ u, exec (.pfApertureAccess off n false data []) s = .next u ∧
          u.reply = ⟨0, false, memRead s.mem (g % 2 ^ 48) n.toNat⟩ ∧ u.mem = s.mem ∧ u.tiles = s.tiles ∧ u.regs = s.regs) ∧
        (Claims.SoundLine s g → ∃ u, exec (.pfApertureAccess off n true data []) s = .next u ∧
          memRead u.mem (g % 2 ^ 48) n.toNat = data % 2 ^ (8 * n.toNat) ∧ u.tiles = s.tiles ∧ u.reply = s.reply ∧
          (∀ a, a < g % 2 ^ 48 ∨ g % 2 ^ 48 + n.toNat ≤ a → memByte u.mem a = memByte s.mem a)) ∧
        (¬ Claims.SoundLine s g → ∃ u, exec (.pfApertureAccess off n false data []) s = .next u ∧ u.reply.status = 0 ∧
          u.reply.poisoned = true ∧ u.mem = s.mem)))) ∧
  (∀ (s : State) (c : CtxIx) (off : BitVec 32) (n : BitVec 13) (data : Nat),
    let p := s.cf c F.CTX_CFG_PART
    let o := s.cf c F.CTX_APERTURE_BASE_GIB * 2 ^ 30 + off.toNat
    let g := s.interleave p o
    s.answers (c.val + 1) = true → 0 < n.toNat → o % 64 + n.toNat ≤ 64 →
    (s.cf c F.CTX_APERTURE_EN = 0 → exec (.vfApertureAccess c off n false data []) s = .next { s with reply := ⟨1, false, 0⟩ } ∧
      exec (.vfApertureAccess c off n true data []) s = .next s) ∧
    (s.cf c F.CTX_APERTURE_EN = 1 → o + n.toNat ≤ s.blockCount (some p) * 25769803776 →
      (s.pstate p ≠ 2 ∨ s.granOwner p (o / 2097152) ≠ c.val + 1 →
        exec (.vfApertureAccess c off n false data []) s = .next { s with reply := ⟨2, false, 0⟩ } ∧
        exec (.vfApertureAccess c off n true data []) s = .next s) ∧
      (s.pstate p = 2 → s.granOwner p (o / 2097152) = c.val + 1 → Claims.SoundLine s g →
        (∃ u, exec (.vfApertureAccess c off n false data []) s = .next u ∧
          u.reply = ⟨0, false, memRead s.mem (g % 2 ^ 48) n.toNat⟩ ∧ u.mem = s.mem ∧ u.tiles = s.tiles ∧ u.regs = s.regs) ∧
        (∃ u, exec (.vfApertureAccess c off n true data []) s = .next u ∧
          memRead u.mem (g % 2 ^ 48) n.toNat = data % 2 ^ (8 * n.toNat) ∧ u.tiles = s.tiles ∧ u.reply = s.reply ∧
          (∀ a, a < g % 2 ^ 48 ∨ g % 2 ^ 48 + n.toNat ≤ a → memByte u.mem a = memByte s.mem a)))))

/-- A write to an unassigned offset is a CFG_REJECT, recorded if it is the first. A write to a register of a context page without an
effect of its own leaves in each field what its access code says, or the old value of an RW field where the written
one is a reserved encoding, which is a CFG_REJECT. A mask bit of IRQ_MASK takes the written value, and one that is cleared while
its status bit is 1 sends its vector. MAP_IMG with GO writes the map image's 43,264 bytes and sets DONE. -/
def Obligations.RegisterWrites : Prop :=
  (∀ (s : State) (off : BitVec 28) (w : BitVec 64) (src : Fin 4), hostReg off.toNat = none →
    ∃ u, exec (.registerWrite (.host off) w src) s = .next u ∧ u.ef F.CFG_REJECT_SET = 1 ∧ u.tiles = s.tiles ∧ u.mem = s.mem ∧
      (s.ef F.CFG_REJECT_SET = 0 → u.ef F.CFG_REJECT_SRC = src.val ∧ u.ef F.CFG_REJECT_MULTI = s.ef F.CFG_REJECT_MULTI ∧
        u.ef F.IRQ_STATUS_REJECT = 1) ∧
      (s.ef F.CFG_REJECT_SET = 1 → u.ef F.CFG_REJECT_MULTI = 1 ∧
        (s.rejNow = false → u.ef F.CFG_REJECT_SRC = s.ef F.CFG_REJECT_SRC))) ∧
  (∀ (s : State) (t : TileIx) (a : BitVec 12) (w : BitVec 64) (src : Fin 4), findReg tileRegs a.toNat = none →
    ∃ u, exec (.registerWrite (.tile t a) w src) s = .next u ∧ (u.tile t).fld F.TILE_CFG_REJECT_SET = 1 ∧ u.regs = s.regs ∧
      u.mem = s.mem ∧ ∀ t', t' ≠ t.val → u.tile t' = s.tile t') ∧
  (∀ (s : State) (c : CtxIx) (o : Nat) (r : RegSpec) (w : BitVec 64) (src : Fin 4) (f : FSpec),
    let a := ctxPage c + o
    o < 0x100 → o ≠ 0x00 → o ≠ 0x08 → o ≠ 0x18 → hostReg a = some r → f ∈ r.fields →
    let v := bitsOf w.toNat f.fld.lo f.fld.width
    let old := (s.hostWord a).toNat
    ∃ u, exec (.registerWrite (.host (BitVec.ofNat 28 a)) w src) s = .next u ∧
      (f.chk.accepts v = true ∨ f.acc ≠ .rw →
        bitsOf (u.hostWord a).toNat f.fld.lo f.fld.width = Claims.afterWrite f old w.toNat) ∧
      (f.chk.accepts v = false → f.acc = .rw → bitsOf (u.hostWord a).toNat f.fld.lo f.fld.width = bitsOf old f.fld.lo f.fld.width ∧
        u.ef F.CFG_REJECT_SET = 1) ∧
      (∀ b, b ≠ a → b ≠ F.CFG_REJECT_SET.reg → b ≠ F.IRQ_STATUS_REJECT.reg → b ≠ F.DBG_CONFLICT_REJECT.reg →
        u.hostWord b = s.hostWord b) ∧
      u.tiles = s.tiles ∧ u.mem = s.mem) ∧
  (∀ (s : State) (w : BitVec 64) (src : Fin 4),
    ∃ u, exec (.irqMaskWrite w src) s = .next u ∧ u.tiles = s.tiles ∧ u.mem = s.mem ∧
      ∀ n, n < 6 ∨ (16 ≤ n ∧ n < 32) →
        bitOf (u.hostWord F.IRQ_MASK_TIME.reg).toNat n = bitOf w.toNat n ∧
        (bitOf (s.hostWord F.IRQ_STATUS_TIME.reg).toNat n = true → bitOf (s.hostWord F.IRQ_MASK_TIME.reg).toNat n = true →
          bitOf w.toNat n = false → (0, if n < 16 then 0 else n - 15) ∈ u.msix)) ∧
  (∀ (s : State) (w : BitVec 64) (src : Fin 4),
    let g := w.toNat / 64 % 2 ^ 54 * 64
    w.toNat % 2 = 1 → s.linkUp = true →
    ∃ u, exec (.mapImgWrite w src) s = .next u ∧ u.ef F.MAP_IMG_DONE = 1 ∧ u.ef F.MAP_IMG_ADDR * 64 = g ∧ u.tiles = s.tiles ∧
      u.mem = s.mem ∧ s.mapImage.length = 43264 ∧
      (∀ k, k < 43264 → (memByte u.host (g + k)).toNat = s.mapImage.getD k 0 % 256) ∧
      (∀ a, a < g ∨ g + 43264 ≤ a → memByte u.host a = memByte s.host a))

/-- Without standby power the management endpoint answers nothing, and a command that needs the 48 V domain while it is off is answered
NOT_POWERED and changes nothing. Otherwise each command has its effect of R700, and one that changes engine state sets
IRQ_STATUS.MGMT. A nonce serves one DEBUG_UNLOCK. -/
def Obligations.ManagementCommands : Prop :=
  (∀ (s : State) (p : PartIx), s.module.standby = true → s.module.mainPg = false →
    let off := { s with reply := ⟨3, false, 0⟩ }
    exec (.partWake p) s = .next off ∧ exec .mgmtEngineReset s = .next off ∧ exec .mgmtPowerCycle s = .next off ∧
      exec (.debugUnlock 0) s = .next off ∧ exec .debugLock s = .next off ∧ exec .svnCommit s = .next off) ∧
  (∀ (s : State) (a : BitVec 28) (w : BitVec 64), s.module.standby = false →
    exec (.mgmtRegRead a) s = .next s ∧ exec (.mgmtRegWrite a w) s = .next s ∧ exec .debugChallenge s = .next s) ∧
  (∀ (s : State) (a : BitVec 28), Claims.Powered s →
    exec (.mgmtRegRead a) s = .next { s with reply := ⟨0, false, (s.readReg a.toNat).toNat⟩ }) ∧
  (∀ (s v : State) (a : BitVec 28) (w : BitVec 64), Claims.Powered s → exec (.registerWrite (.host a) w 3) s = .next v →
    ∃ u, exec (.mgmtRegWrite a w) s = .next u ∧ u.reply = ⟨0, false, 0⟩ ∧ u.ef F.IRQ_STATUS_MGMT = 1 ∧ u.tiles = v.tiles ∧
      u.mem = v.mem ∧ ∀ b, b ≠ F.IRQ_STATUS_MGMT.reg → u.hostWord b = v.hostWord b) ∧
  (∀ (s : State) (p : PartIx), Claims.Powered s → s.pf p F.HIB_STATUS_PHASE = 2 → s.ef F.PWR_PLVL_PEND = 0 →
    ∃ u, exec (.partWake p) s = .next u ∧ u.pf p F.HIB_STATUS_PHASE = 3 ∧ (u.part p).wake = some (s.owl.ns, 8, s.owl.ns) ∧
      u.reply = ⟨0, false, 0⟩ ∧ u.ef F.IRQ_STATUS_MGMT = 1 ∧ u.tiles = s.tiles) ∧
  (∀ s : State, Claims.Powered s → s.engReset = none → ∃ u, exec .mgmtEngineReset s = .next u ∧
    u.engReset = some (s.owl.ns, 9) ∧ u.ef F.RESET_LOG_KIND = 1 ∧ u.ef F.RESET_LOG_CAUSE = 9 ∧ u.ef F.IRQ_STATUS_MGMT = 1) ∧
  (∀ s : State, Claims.Powered s → ∃ u, exec .mgmtPowerCycle s = .next u ∧
    u.module = { s.module with cycleReq := true, cycleCause := 9 } ∧ u.ef F.IRQ_STATUS_MGMT = 1 ∧ u.tiles = s.tiles) ∧
  (∀ s : State, s.module.standby = true → ∃ u, exec .debugChallenge s = .next u ∧ u.tap.nonce = some u.reply.data ∧
    u.reply.status = 0 ∧ u.reply.data < 2 ^ 256 ∧ { u with free := s.free, reply := s.reply, tap := s.tap } = s) ∧
  (∀ (s : State) (sig : BitVec 768) (n : Nat), Claims.Powered s → s.tap.nonce = some n →
    ∃ u, exec (.debugUnlock sig) s = .next u ∧ u.tap.nonce = none ∧ u.tiles = s.tiles ∧
      (Config.signatureOk n Config.serial sig = true → u.ef F.BOOT_STATUS_DEBUG_OPEN = 1 ∧ u.dbgEvents = s.dbgEvents + 1 ∧
        u.reply.status = 0) ∧
      (Config.signatureOk n Config.serial sig = false → u.reply = ⟨4, false, 0⟩ ∧ u.regs = s.regs)) ∧
  (∀ (s : State) (sig : BitVec 768), Claims.Powered s → s.tap.nonce = none →
    exec (.debugUnlock sig) s = .next { s with reply := ⟨4, false, 0⟩ }) ∧
  (∀ s : State, Claims.Powered s → ∃ u, exec .debugLock s = .next u ∧ u.ef F.BOOT_STATUS_DEBUG_OPEN = 0 ∧
    u.dbgEvents = s.dbgEvents + 1 ∧ u.ef F.IRQ_STATUS_MGMT = 1) ∧
  (∀ s : State, Claims.Powered s → ∃ u, exec .svnCommit s = .next u ∧ u.svn = max s.svn (s.ef F.FW_VERSION_SVN) ∧
    u.ef F.IRQ_STATUS_MGMT = 1 ∧ u.tiles = s.tiles)

/-- Bring-up runs its stages in order: copy B of an image is tried where copy A fails, and bring-up stops with ERROR where both do or
where the map's digest disagrees; filling empties stacked memory, stage 6 resets every tile, and stage 7 ends once the state
of time allows it. The PCIe link returns after stage 1, and a configuration write takes effect while it is up. -/
def Obligations.BringUpStages : Prop :=
  (∀ (s : State) (a b : Fin 3) (d : Bool), Claims.Powered s → s.ef F.BOOT_STATUS_ERROR = 0 → s.ef F.BOOT_STATUS_STAGE = 1 →
    ∃ u, exec (.bringUp a b d []) s = .next u ∧ u.tiles = s.tiles ∧
      (a = 0 → u.ef F.BOOT_STATUS_STAGE = 2 ∧ u.ef F.FW_VERSION_COPY = 0) ∧
      (a ≠ 0 → b = 0 → u.ef F.BOOT_STATUS_STAGE = 2 ∧ u.ef F.FW_VERSION_COPY = 1) ∧
      (a ≠ 0 → b ≠ 0 → u.ef F.BOOT_STATUS_STAGE = 1 ∧ u.ef F.BOOT_STATUS_ERROR = b.val ∧ u.ef F.IRQ_STATUS_BOOT = 1)) ∧
  (∀ (s : State) (a b : Fin 3) (d : Bool), Claims.Powered s → s.ef F.BOOT_STATUS_ERROR = 0 →
    (s.ef F.BOOT_STATUS_STAGE = 2 → s.module.perst = false →
      ∃ u, exec (.bringUp a b d []) s = .next u ∧ u.ef F.BOOT_STATUS_STAGE = 3 ∧ u.tiles = s.tiles) ∧
    (s.ef F.BOOT_STATUS_STAGE = 3 → ∃ u, exec (.bringUp a b d []) s = .next u ∧ u.tiles = s.tiles ∧
      (d = true → u.ef F.BOOT_STATUS_STAGE = 4) ∧ (d = false → u.ef F.BOOT_STATUS_STAGE = 3 ∧ u.ef F.BOOT_STATUS_ERROR = 3)) ∧
    (s.ef F.BOOT_STATUS_STAGE = 4 → ∃ u, exec (.bringUp a b d []) s = .next u ∧ u.ef F.BOOT_STATUS_STAGE = 5 ∧ u.tiles = s.tiles) ∧
    (s.ef F.BOOT_STATUS_STAGE = 5 → ∃ u, exec (.bringUp a b d []) s = .next u ∧ u.ef F.BOOT_STATUS_STAGE = 6 ∧ u.mem = [] ∧
      u.memUE = [] ∧ u.memPoison = [] ∧ u.tiles = s.tiles) ∧
    (s.ef F.BOOT_STATUS_STAGE = 6 → ∃ u, exec (.bringUp a b d []) s = .next u ∧ u.ef F.BOOT_STATUS_STAGE = 7 ∧
      ∀ t, t < 10800 → Claims.TileIsReset (u.tile t))) ∧
  (∀ s : State, Claims.Powered s → s.ef F.BOOT_STATUS_STAGE = 7 → s.ef F.TIME_STATE_STEP_PEND = 0 →
    (s.ef F.TIME_STATE_STATE ≠ 0 → s.ef F.BOOT_CFG_WAIT_LOCK = 0 ∨ s.ef F.TIME_STATE_STATE = 3 →
      ∃ u, exec .timeStageEnd s = .next u ∧ u.ef F.BOOT_STATUS_STAGE = 8 ∧ u.ef F.IRQ_STATUS_BOOT = 1 ∧ u.engReset = none ∧
        u.tiles = s.tiles) ∧
    (s.ef F.TIME_STATE_STATE = 0 → exec .timeStageEnd s = .next s) ∧
    (s.ef F.BOOT_CFG_WAIT_LOCK = 1 → s.ef F.TIME_STATE_STATE ≠ 3 → exec .timeStageEnd s = .next s)) ∧
  (∀ s : State, s.module.mainPg = true → s.module.perst = false → 2 ≤ s.ef F.BOOT_STATUS_STAGE →
    exec .pcieLinkUp s = .next { s with linkUp := true }) ∧
  (∀ (s : State) (n fn : Fin 65), s.linkUp = true →
    exec (.pcieConfigWrite (.vfs n)) s = .next { s with vfs := (List.range n.val).map (· + 1) } ∧
    (∃ u, exec (.pcieConfigWrite (.master fn true)) s = .next u ∧ fn.val ∈ u.master ∧
      (∀ k, k ≠ fn.val → (k ∈ u.master ↔ k ∈ s.master)) ∧ { u with master := s.master } = s) ∧
    (∃ u, exec (.pcieConfigWrite (.master fn false)) s = .next u ∧ (∀ k, k ∈ u.master ↔ k ∈ s.master ∧ k ≠ fn.val) ∧
      { u with master := s.master } = s) ∧
    (∃ u, exec (.pcieConfigWrite (.power fn true)) s = .next u ∧ fn.val ∈ u.d3 ∧ (∀ k, k ≠ fn.val → (k ∈ u.d3 ↔ k ∈ s.d3)) ∧
      { u with d3 := s.d3 } = s) ∧
    (∃ u, exec (.pcieConfigWrite (.power fn false)) s = .next u ∧ (∀ k, k ∈ u.d3 ↔ k ∈ s.d3 ∧ k ≠ fn.val) ∧
      { u with d3 := s.d3 } = s))



/-! ## The module -/

namespace Sys2Proof.Claims

/-- The 48 V domain has been lost (R723): every tile is without power, stacked memory is lost, the link is down, and RESET_LOG records
it; the Owl, the map and part data continue. -/
structure MainLost (s u : State) : Prop where
  pg : u.module.mainPg = false ∧ u.module.cycleReq = false
  tiles : ∀ t, t < 10800 → (u.tile t).power = .off
  memory : u.mem = [] ∧ u.linkUp = false
  log : u.ef F.RESET_LOG_KIND = 2 ∧ u.ef F.RESET_LOG_HOST_LOST = 1 ∧ u.ef F.BOOT_STATUS_STAGE = 0
  time : u.owl = s.owl ∧ u.map = s.map

/-- The panel is on or starting. -/
def PanelOn (s : State) : Prop := s.module.mainState = 1 ∨ s.module.mainState = 2

end Sys2Proof.Claims

/-- MAIN_EN, with the conditions of R722, starts the panel; in regulation MAIN_PG is released and bring-up begins at stage 1. MAIN_EN low, the
loss of the input, a fault and the loss of standby power each end the 48 V domain; a fault but undervoltage latches, and
undervoltage alone restarts. -/
def Sys2Proof.Claims.MainSupplyComesAndGoes : Prop :=
  (∀ s : State, s.module.standby = true → s.module.latched = false → s.module.mainState = 0 →
    (∀ t, s.module.offAt = some t → t + 1000000000 ≤ s.owl.ns) → s.module.fault = 0 ∨ 4 ≤ s.module.fault →
    exec (.mainEnHigh true true) s =
      .next { s with module := { s.module with mainEn := true, inputOk := true, coolOk := true, mainState := 1 } } ∧
    exec (.mainEnHigh true false) s =
      .next { s with module := { s.module with mainEn := true, inputOk := true, coolOk := false } } ∧
    (s.module.mainEn = true → exec (.panelSoftStart true true) s =
      .next { s with module := { s.module with inputOk := true, coolOk := true, mainState := 1 } })) ∧
  (∀ s : State, s.module.mainState = 1 → ∃ u, exec .mainPowerGood s = .next u ∧ u.ef F.BOOT_STATUS_STAGE = 1 ∧
    u.module = { s.module with mainState := 2, mainPg := true, fault := 0, offAt := none } ∧
    Claims.HostOnly { s with module := u.module } u [F.BOOT_STATUS_STAGE.reg]) ∧
  (∀ s : State, Claims.PanelOn s → ∃ u, exec .mainPowerLoss s = .next u ∧ Claims.MainLost s u ∧ u.module.mainState = 0 ∧
    u.module.inputOk = false) ∧
  (∀ s : State, ∃ u, exec .mainEnLow s = .next u ∧ (Claims.PanelOn s → Claims.MainLost s u) ∧ u.module.mainState = 0 ∧
    u.module.mainEn = false ∧ u.module.latched = false ∧ u.module.thermTrip = false ∧
    (s.module.mainEn = true → u.module.offAt = some s.owl.ns) ∧ (¬ Claims.PanelOn s → u.tiles = s.tiles ∧ u.mem = s.mem)) ∧
  (∀ (s : State) (k : Fin 4), Claims.PanelOn s → ∃ u, exec (.panelFault k) s = .next u ∧ Claims.MainLost s u ∧
    u.module.mainState = 3 ∧ u.module.fault = 4 + k.val ∧ (u.module.latched = true ↔ s.module.latched = true ∨ k ≠ 0)) ∧
  (∀ s : State, s.module.standby = true → s.module.mainEn = true → s.module.mainState = 3 → s.module.fault = 4 →
    (s.module.latched = false → exec (.undervoltageRestart true) s =
      .next { s with module := { s.module with inputOk := true, coolOk := true, mainState := 1 } }) ∧
    (s.module.latched = true → exec (.undervoltageRestart true) s =
      .next { s with module := { s.module with inputOk := true, coolOk := true } })) ∧
  (∀ s : State, s.module.standby = true → ∃ u, exec .standbyPowerLost s = .next u ∧ u.module.standby = false ∧
    u.module.mainState = 0 ∧ u.owl = Owl.start ∧ u.tap.nonce = none ∧
    (Claims.PanelOn s → ∀ t, t < 10800 → (u.tile t).power = .off))

/-- A sample with every sensor at one reading: the alert holds from 100 °C (logic) or 95 °C (DRAM) or with COOL_OK low or a failed sensor, and
ends 5 K below. A second sample at 110 °C trips as a logic trip, at 105 °C as a DRAM trip, and the hundredth with
COOL_OK low as a coolant trip; a trip takes the 48 V domain down, latched. -/
def Sys2Proof.Claims.ThermalProtection : Prop :=
  ∀ (s : State) (base : Int), s.module.standby = true → Claims.PanelOn s → -20 ≤ base → base ≤ 140 →
    (base ≤ 90 → ∃ u, exec (.thermalSample true base [] []) s = .next u ∧ u.module.thermAlert = false ∧ u.module.lowCool = 0 ∧
      u.module.mainState = s.module.mainState ∧ u.tiles = s.tiles ∧ u.mem = s.mem) ∧
    (100 ≤ base → ∃ u, exec (.thermalSample true base [] []) s = .next u ∧ u.module.thermAlert = true) ∧
    (110 ≤ base → 0 ∈ s.module.hotLogic → ∃ u, exec (.thermalSample true base [] []) s = .next u ∧ Claims.MainLost s u ∧
      u.module.mainState = 3 ∧ u.module.fault = 1 ∧ u.module.latched = true ∧ u.module.thermTrip = true) ∧
    (105 ≤ base → base < 110 → (∃ n ∈ s.module.hotDram, n < 8640 ∧ s.vacant (n / 12) = false) →
      ∃ u, exec (.thermalSample true base [] []) s = .next u ∧ Claims.MainLost s u ∧ u.module.mainState = 3 ∧ u.module.fault = 2 ∧
        u.module.latched = true ∧ u.module.thermTrip = true) ∧
    (base < 105 → s.module.lowCool < 99 → ∃ u, exec (.thermalSample false base [] []) s = .next u ∧ u.module.thermAlert = true ∧
      u.module.lowCool = s.module.lowCool + 1 ∧ u.module.mainState = s.module.mainState ∧ u.tiles = s.tiles) ∧
    (base < 105 → s.module.lowCool = 99 → ∃ u, exec (.thermalSample false base [] []) s = .next u ∧ Claims.MainLost s u ∧
      u.module.mainState = 3 ∧ u.module.fault = 3 ∧ u.module.latched = true ∧ u.module.thermTrip = true) ∧
    (∀ q : Fin 48, base ≤ 90 → ∃ u, exec (.thermalSample true base [(q, none)] []) s = .next u ∧ u.module.thermAlert = true ∧
      u.module.mainState = s.module.mainState ∧ u.tiles = s.tiles)



/-! ## Time -/

namespace Sys2Proof.Claims

/-- The condition of a reference after a measurement whose distance from the counter is `x` (R71); `able` says that the reference may
become qualified (R69). -/
def NextCond (r : Ref) (x : Int) (guards able : Bool) (cond : Nat) : Prop :=
  (r.cond = 0 → cond = 1) ∧
  (r.cond = 2 → x.natAbs ≤ 65536 → r.recent.length = 1 → cond = if able then 3 else 2) ∧
  (r.cond = 2 → 65536 < x.natAbs → cond = 2) ∧
  (r.cond = 3 → x.natAbs ≤ 131072 → cond = 3) ∧
  (r.cond = 3 → 131072 < x.natAbs → guards = true → cond = 2)

/-- The counter stands at `t`, in 2^−16 ns, modulo its 80 bits. -/
def CounterAt (u : State) (t : Int) : Prop := ((u.owl.ns * 65536 + u.owl.frac : Nat) : Int) = t % 2 ^ 80

end Sys2Proof.Claims

/-- Standby power starts the counter at 0 in UNSYNC, and warm-up is reported 300 s later and no sooner. A measurement moves its reference between the conditions of R71,
a guard violation of the only time reference makes the state HOLDOVER at once, and no measurement moves the counter.
A reference with no measurement in its loss interval becomes absent. -/
def Obligations.ReferencesAreMeasured : Prop :=
  (∀ s : State, s.module.standby = false → ∃ u, exec .standbyPowerApplied s = .next u ∧ u.owl = Owl.start ∧ u.owl.ns = 0 ∧
    u.owl.frac = 0 ∧ u.module.standby = true ∧ u.ef F.TIME_STATE_STATE = 0 ∧ u.ef F.TIME_STATE_SOURCE = 0 ∧
    u.ef F.TIME_STATE_HOPS = 15 ∧ u.ef F.TIME_STATE_WARM = 0) ∧
  (∀ s : State, s.module.standby = true →
    (300000000000 ≤ s.owl.up → ∃ u, exec .warmUpDone s = .next u ∧ u.ef F.TIME_STATE_WARM = 1 ∧
      Claims.HostOnly s u [F.TIME_STATE_WARM.reg] ∧ u.ef F.TIME_STATE_STATE = s.ef F.TIME_STATE_STATE) ∧
    (s.owl.up < 300000000000 → exec .warmUpDone s = .next s)) ∧
  (∀ (s : State) (d : BitVec 8) (tr : Fin 3) (sec : BitVec 48) (nanos : BitVec 30) (sub : BitVec 16),
    let ref : Int := (((sec.toNat : Int) - 946684800) * 1000000000 + nanos.toNat) * 65536 + sub.toNat
    let m := s.owl.time - ref - signed 16 (s.ef F.TIME_REF_DELAY_PTP_ASYM) * 256
    (d.toNat ≠ s.ef F.TIME_REF_CFG_PTP_DOMAIN ∨ tr.val ≠ s.ef F.TIME_REF_CFG_PTP_TRANSPORT →
      exec (.ptpSyncMeasurement ⟨d, tr⟩ sec nanos sub) s = .next s) ∧
    (d.toNat = s.ef F.TIME_REF_CFG_PTP_DOMAIN → tr.val = s.ef F.TIME_REF_CFG_PTP_TRANSPORT →
      ∃ u, exec (.ptpSyncMeasurement ⟨d, tr⟩ sec nanos sub) s = .next u ∧
        Claims.NextCond s.owl.ptp m (2 ≤ s.owl.own) s.owl.syncOk u.owl.ptp.cond ∧
        u.owl.ptp.seen = s.owl.ns ∧ u.owl.ns = s.owl.ns ∧ u.owl.frac = s.owl.frac ∧ u.ef F.TIME_STATE_PTP_ST = u.owl.ptp.cond % 4 ∧
        u.tiles = s.tiles ∧ u.mem = s.mem ∧
        (s.owl.source = 1 → m.natAbs < 2 ^ 31 → (u.ef F.TIME_OFFSET_OFFSET : Int) = m % 2 ^ 32) ∧
        (s.owl.own = 3 → s.owl.source = 1 → s.owl.ptp.cond = 3 → 131072 < m.natAbs → s.owl.pps.cond ≠ 3 →
          s.ef F.TIME_REF_CFG_LINK_EN = 0 → u.ef F.TIME_STATE_STATE = 2 ∧ u.ef F.TIME_STATE_HOLD_ROUNDS = 0 ∧
            u.ef F.TIME_STATE_GUARD_HIT = 1 ∧ u.ef F.IRQ_STATUS_GUARD = 1))) ∧
  (∀ (s : State) (sub : BitVec 16),
    let t : Int := ((s.owl.ns * 65536 + sub.toNat : Nat) : Int) - (s.ef F.TIME_REF_DELAY_PPS_DELAY * 1024 : Nat)
    let m := phase ppsPeriod t
    (s.ef F.TIME_REF_CFG_PPS_EDGE = 0 → exec (.ppsEdge false sub) s = .next s) ∧
    (s.ef F.TIME_REF_CFG_PPS_EDGE = 1 → exec (.ppsEdge true sub) s = .next s) ∧
    (s.ef F.TIME_REF_CFG_PPS_EDGE = 0 → s.owl.setPend = none → ∃ u, exec (.ppsEdge true sub) s = .next u ∧
      Claims.NextCond s.owl.pps m (2 ≤ s.owl.own) true u.owl.pps.cond ∧ u.owl.ns = s.owl.ns ∧ u.owl.frac = s.owl.frac ∧
      u.ef F.TIME_STATE_PPS_ST = u.owl.pps.cond % 4) ∧
    (∀ v r, s.ef F.TIME_REF_CFG_PPS_EDGE = 0 → s.owl.setPend = some (v, r) → v < 2 ^ 64 → s.owl.pps.cond = 3 → s.owl.own < 2 →
      s.ef F.TIME_REF_CFG_PPS_EN = 1 → ∃ u, exec (.ppsEdge true sub) s = .next u ∧ u.owl.ns = v ∧ u.owl.frac = 0 ∧
        u.ef F.TIME_STATE_STATE = 3 ∧ u.ef F.TIME_STATE_SOURCE = 2 ∧ u.ef F.TIME_STATE_STEPPED = 1 ∧
        u.ef F.TIME_STATE_SET_PEND = 0)) ∧
  (∀ (s : State) (d utc log : BitVec 8) (tr : Fin 3), d.toNat = s.ef F.TIME_REF_CFG_PTP_DOMAIN →
    tr.val = s.ef F.TIME_REF_CFG_PTP_TRANSPORT →
    ∃ u, exec (.ptpAnnounce ⟨d, tr⟩ utc log) s = .next u ∧ u.ef F.TIME_OFFSET_UTC_OFS = utc.toNat ∧
      u.owl.logSync = signed 8 log.toNat ∧
      (signed 8 log.toNat < -7 ∨ 0 < signed 8 log.toNat → s.owl.ptp.cond = 3 → u.owl.ptp.cond = 1) ∧
      (-7 ≤ signed 8 log.toNat → signed 8 log.toNat ≤ 0 → u.owl.ptp.cond = s.owl.ptp.cond)) ∧
  (∀ (s : State) (r : RefIx),
    let ref := fun (o : Owl) => match r with
      | .ptp => o.ptp
      | .pps => o.pps
      | .f10 => o.f10
      | .link l => o.linkRef l
    ((ref s.owl).cond ≠ 0 → (ref s.owl).seen + s.owl.lossInterval r < s.owl.ns →
      ∃ u, exec (.referenceLoss r) s = .next u ∧ (ref u.owl).cond = 0 ∧ u.tiles = s.tiles) ∧
    ((ref s.owl).cond = 0 ∨ s.owl.ns ≤ (ref s.owl).seen + s.owl.lossInterval r → exec (.referenceLoss r) s = .next s))

/-- At a round boundary HOLDOVER counts a round, a link without time fields is BAD, and lane corrections of the round are reported. Of the
references that were qualified before it, and in HOLDOVER lie within the guard, the best is selected: from UNSYNC with the automatic
load of the counter, from HOLDOVER into LOCKED, and in FREE with a pending step beyond 2,048 ticks or the lock within half a
nanosecond; with none nothing changes. At its limit HOLDOVER ends in FREE. -/
def Obligations.RoundsMoveTheClockState : Prop :=
  (∀ (s : State) (f : Option (BitVec 23)), s.owl.ns % 1048576 ≠ 0 → exec (.roundBoundary f) s = .next s) ∧
  (∀ (s : State) (f : Option (BitVec 23)), s.owl.ns % 1048576 = 0 →
    ∃ u, exec (.roundBoundary f) s = .next u ∧ u.owl.ns = s.owl.ns ∧ u.tiles = s.tiles ∧ u.mem = s.mem ∧
      (s.owl.own = 2 → s.owl.source = 1 ∨ s.owl.source = 2 → u.ef F.TIME_STATE_STATE = 2 ∧
        u.ef F.TIME_STATE_HOLD_ROUNDS = min 31 (s.owl.held + 1)) ∧
      (∀ l, l < 64 → (s.link l).theta = [] → u.lf l F.LINK_TIME_STAT_BAD = 1) ∧
      (∀ l k, l < 64 → k < 9 →
        u.lf l (F.LANE_CNT_LAST_ROUND.at (8 * k)) = min 65535 ((s.link l).laneRun.get (fun _ => 0) k)) ∧
      (∀ b, b < 720 → (s.block b).hotRound = true → u.hf (blockPage b) F.MEM_STATUS_HOT = 1)) ∧
  (∀ (s : State) (c : Nat), s.candidate = some c → s.usable c = true ∧ s.refSince c < s.owl.ns ∧
    (s.owl.own = 2 → (s.refOffset c).natAbs ≤ 131072)) ∧
  (∀ s : State, s.candidate = none → exec .referenceSelection s = .next s ∧ exec .automaticLoad s = .next s) ∧
  (∀ (s : State) (c : Nat), s.owl.ns % 1048576 = 0 → s.candidate = some c →
    let off := (s.refOffset c).natAbs
    (s.owl.own = 2 → ∃ u, exec .referenceSelection s = .next u ∧ u.owl.own = 3 ∧ u.owl.source = c ∧ u.owl.ns = s.owl.ns) ∧
    (s.owl.own = 3 → ∃ u, exec .referenceSelection s = .next u ∧ u.owl.own = 3 ∧ u.owl.source = c ∧ u.owl.ns = s.owl.ns) ∧
    (s.owl.own = 1 → ∃ u, exec .referenceSelection s = .next u ∧ u.owl.source = c ∧ u.owl.ns = s.owl.ns ∧
      u.owl.frac = s.owl.frac ∧ (134217728 < off → u.owl.own = 1 ∧ u.ef F.TIME_STATE_STEP_PEND = 1) ∧
      (off ≤ 134217728 → u.ef F.TIME_STATE_STEP_PEND = 0 ∧ (u.owl.own = 3 ↔ off ≤ 32768)))) ∧
  (∀ (s : State) (c : Nat), s.owl.ns % 1048576 = 0 → s.candidate = some c → s.owl.own = 0 →
    ∃ u, exec .automaticLoad s = .next u ∧ u.owl.own = 3 ∧ u.owl.source = c ∧ u.ef F.TIME_STATE_STEPPED = 1 ∧
      Claims.CounterAt u (s.owl.time - s.refOffset c) ∧ u.tiles = s.tiles) ∧
  (∀ s : State, s.owl.ns % 1048576 = 0 → s.owl.own = 2 → s.candidate = none →
    (s.ef F.TIME_REF_CFG_HOLD_LIMIT ≤ s.owl.held → ∃ u, exec .holdLimitReached s = .next u ∧
      u.ef F.TIME_STATE_STATE = 1 ∧ u.ef F.TIME_STATE_HOLD_ROUNDS = 0 ∧ u.owl.ns = s.owl.ns) ∧
    (s.owl.held < s.ef F.TIME_REF_CFG_HOLD_LIMIT → exec .holdLimitReached s = .next s))

/-- A Set is captured in UNSYNC or FREE and loads the counter in the next tick, with the fraction 0, and is refused in HOLDOVER and LOCKED;
one with AT_PPS is captured while the PPS input is qualified; CANCEL ends it. STEP_OK is accepted while a step is pending and no
timetable is admitted, and the step then takes the reference time at a round boundary after the tick of the acceptance. -/
def Sys2Proof.Claims.TimeIsSet : Prop :=
  (∀ s : State, 2 ≤ s.owl.own →
    (∃ u, exec .timeSet s = .next u ∧ u.ef F.TIME_STATE_REFUSED = 1 ∧ Claims.HostOnly s u [F.TIME_STATE_REFUSED.reg]) ∧
    (∃ u, exec .timeSetAtPps s = .next u ∧ u.ef F.TIME_STATE_REFUSED = 1 ∧ Claims.HostOnly s u [F.TIME_STATE_REFUSED.reg])) ∧
  (∀ s : State, s.owl.own < 2 → s.owl.own = 1 ∨ s.timeQualified = false →
    ∃ u, exec .timeSet s = .next u ∧ u.owl = { s.owl with setPend := none, setDue := some (s.ef F.TIME_SET_NS_VALUE) } ∧
      u.ef F.TIME_STATE_SET_PEND = 0 ∧ u.tiles = s.tiles) ∧
  (∀ (s : State) (v : Nat), s.pending = [] → s.owl.setDue = some v → v < 2 ^ 64 →
    ∃ u, step s = .next u ∧ u.owl.ns = v ∧ u.owl.frac = 0 ∧ u.owl.setDue = none ∧ u.ef F.TIME_STATE_STATE = 1 ∧
      u.ef F.TIME_STATE_SOURCE = 0 ∧ u.ef F.TIME_STATE_HOPS = 0 ∧ u.ef F.TIME_STATE_STEPPED = 1 ∧
      u.ef F.TIME_STATE_STEP_PEND = 0) ∧
  (∀ s : State, s.owl.own < 2 → s.owl.own = 1 ∨ s.timeQualified = false →
    (s.owl.pps.cond = 3 → ∃ u, exec .timeSetAtPps s = .next u ∧ u.owl.setPend = some (s.ef F.TIME_SET_NS_VALUE, s.round) ∧
      u.ef F.TIME_STATE_SET_PEND = 1 ∧ u.owl.ns = s.owl.ns) ∧
    (s.owl.pps.cond ≠ 3 → ∃ u, exec .timeSetAtPps s = .next u ∧ u.ef F.TIME_STATE_REFUSED = 1 ∧
      Claims.HostOnly s u [F.TIME_STATE_REFUSED.reg])) ∧
  (∀ s : State, ∃ u, exec .timeCancel s = .next u ∧ u.owl = { s.owl with setPend := none } ∧ u.ef F.TIME_STATE_SET_PEND = 0 ∧
    u.tiles = s.tiles) ∧
  (∀ s : State,
    (s.ef F.TIME_STATE_STEP_PEND = 1 → s.tables = [] → exec .stepOk s = .next { s with owl := { s.owl with stepOk := some s.owl.ns } }) ∧
    (s.ef F.TIME_STATE_STEP_PEND = 0 ∨ s.tables ≠ [] → ∃ u, exec .stepOk s = .next u ∧ u.ef F.TIME_STATE_REFUSED = 1 ∧
      Claims.HostOnly s u [F.TIME_STATE_REFUSED.reg])) ∧
  (∀ (s : State) (k : Nat), s.owl.stepOk = some k → s.owl.ns % 1048576 = 0 → s.ef F.TIME_STATE_STEP_PEND = 1 →
    (k < s.owl.ns → ∃ u, exec .timeStep s = .next u ∧ Claims.CounterAt u (s.owl.time - s.owl.offset) ∧
      u.ef F.TIME_STATE_STEP_PEND = 0 ∧ u.ef F.TIME_STATE_STEPPED = 1 ∧ u.owl.stepOk = none ∧ u.tiles = s.tiles) ∧
    (s.owl.ns ≤ k → exec .timeStep s = .next s))

/-- A stretch costs every tile whose clock runs the lost cycles, and one whose clock stands none; it moves no time, and one beyond a bound
of R94 sets DROOP_OVER and is reported over management. The clock realigns at a boundary of 4 ticks; a stretch that ends there after
more than 2,000 ticks is beyond its bound too. -/
def Sys2Proof.Claims.StretchesCostCycles : Prop :=
  (∀ (s : State) (n : BitVec 8) (deep : Bool),
    ∃ u, exec (.droopStretch n deep) s = .next u ∧ u.owl = s.owl ∧ u.mem = s.mem ∧
      (∀ t, t < 10800 → (s.tile t).sleepFrom = none → (s.tile t).clockHold = false → (s.tile t).power ≠ .off →
        (s.tile t).power ≠ .hib → (u.tile t).fld F.STRETCH_CYCLES_LOST = ((s.tile t).fld F.STRETCH_CYCLES_LOST + n.toNat) % 2 ^ 64) ∧
      (∀ t, t < 10800 → (s.tile t).sleepFrom.isSome ∨ (s.tile t).clockHold = true ∨ (s.tile t).power = .off ∨
        (s.tile t).power = .hib → u.tile t = s.tile t) ∧
      (deep = true → u.ef F.TIME_STATE_DROOP_OVER = 1 ∧ u.module.events = s.module.events ++ [.droopOver]) ∧
      (s.stretch = none → s.stretchAt = none → deep = false → n.toNat ≤ 25 * plMult s.plevel → u.regs = s.regs) ∧
      (s.stretch = none → s.stretchAt = none → 25 * plMult s.plevel < n.toNat → u.ef F.TIME_STATE_DROOP_OVER = 1) ∧
      (∀ a, s.stretch = none → s.stretchAt = some a → s.owl.ns < a + 4096 → u.ef F.TIME_STATE_DROOP_OVER = 1)) ∧
  (∀ s : State, (s.owl.ns % 4 = 0 → (∀ x, s.stretch = some x → s.owl.ns < x.1 + 2004) →
      exec .clockRealign s = .next { s with stretch := none }) ∧
    (s.owl.ns % 4 = 0 → ∀ x, s.stretch = some x → x.1 + 2004 ≤ s.owl.ns → ∃ u, exec .clockRealign s = .next u ∧ u.stretch = none ∧
      u.ef F.TIME_STATE_DROOP_OVER = 1 ∧ u.module.events = s.module.events ++ [.droopOver] ∧ u.tiles = s.tiles ∧ u.owl = s.owl) ∧
    (s.owl.ns % 4 ≠ 0 → exec .clockRealign s = .next s))



/-! ## Reset, invariants and isolation -/

namespace Sys2Proof.Claims

/-- The tile on which a command of the scalar, matrix, chain and solver families runs, of those that use no other agent. -/
def ownTile : Instr → Option TileIx
  | .add t _ | .sub t _ | .and t _ | .or t _ | .xor t _ | .shl t _ | .shr t _ | .sar t _ | .slt t _ | .sltu t _ | .min t _
  | .max t _ | .minu t _ | .maxu t _ | .mul t _ | .mulh t _ | .mulhu t _ | .div t _ | .divu t _ | .rem t _ | .remu t _
  | .clz t _ | .ctz t _ | .popc t _ | .addi t _ | .andi t _ | .ori t _ | .xori t _ | .slti t _ | .sltiu t _ | .lsh t _
  | .shli t _ | .shri t _ | .sari t _ | .rotri t _ | .li t _ | .pcrel t _ | .ld8 t _ | .ld8u t _ | .ld16 t _ | .ld16u t _
  | .ld32 t _ | .ld32u t _ | .ld64 t _ | .st8 t _ | .st16 t _ | .st32 t _ | .st64 t _ | .beq t _ | .bne t _ | .blt t _
  | .bge t _ | .bltu t _ | .bgeu t _ | .jal t _ | .jalr t _ | .dld t _ | .dst t _ | .kld t _ | .kst t _ | .squash t _ _ _ _
  | .mmac t _ | .mdrain t _ | .mclear t _ | .mexport t _ | .mimport t _ | .mmom t _ | .mdrmom t _ | .vsetvl t _ | .vmv t _
  | .vbcast t _ | .vextr t _ | .vins t _ | .vidx t _ | .vadd t _ | .vsub t _ | .vmul t _ | .vfma t _ | .vfnma t _ | .vmin t _
  | .vmax t _ | .vabs t _ | .vneg t _ | .vrecip t _ | .vrsqrt t _ | .vexp t _ | .vlog t _ | .vsin t _ | .vcos t _
  | .vtanh t _ | .vceq t _ | .vcne t _ | .vclt t _ | .vcle t _ | .vcgt t _ | .vcge t _ | .vsel t _ | .kand t _ | .kor t _
  | .kxor t _ | .knot t _ | .kpop t _ | .kfirst t _ | .vshl t _ | .vshr t _ | .vsar t _ | .vand t _ | .vor t _ | .vxor t _
  | .vwmul t _ | .vwmulh t _ | .vwfma t _ | .vwfmah t _ | .vdot t _ | .vreddot t _ | .vredsum t _ | .vredmax t _
  | .vredmin t _ | .vredamax t _ | .vrclr t _ | .vrdrain t _ | .vrdrainv t _ | .vrexport t _ | .vrimport t _ | .vld t _
  | .vlds t _ | .vst t _ | .vsts t _ | .vgather t _ | .vscatter t _ | .vrand t _ | .vphilox t _ | .cvt t _ _ | .vchain t _ _
  | .tprog t _ | .vacc t _ _ | .vaccred t _ _ | .vrscale t _ | .mgrp t _ | .sinit t _
  | .sdelta t _ | .ssolve t _ | .ssolvet t _ | .sresid t _ | .sresidt t _ | .sfree t _ | .asyncEventEntry ⟨t, _⟩ | .denCommit t
  | .denPrepareTimeout t => some t
  | _ => none

end Sys2Proof.Claims

/-- After reset every control register of a tile and every host register but BOOT_STATUS holds its Reset value, the scalar registers and
stores are 0, tiles stand in handler mode at address 0, hall time is 0 in UNSYNC, no partition, timetable or trace record exists,
and BOOT_STATUS stands at stage 4 (what the spec's Reset column marks P or — is the model's choice, log entries 2 and 3). -/
def Sys2Proof.Claims.ResetValues : Prop :=
  State.reset.pending = [] ∧ State.reset.owl.ns = 0 ∧ State.reset.owl.frac = 0 ∧ State.reset.ef F.TIME_STATE_STATE = 0 ∧
    State.reset.ef F.TIME_STATE_SOURCE = 0 ∧ State.reset.ef F.TIME_STATE_HOPS = 15 ∧
    State.reset.hostWord F.IRQ_MASK_TIME.reg = 0xFFFF003F ∧ State.reset.ef F.BOOT_STATUS_STAGE = 4 ∧
    State.reset.tables = [] ∧ State.reset.trace = [] ∧ State.reset.mem = [] ∧ State.reset.parts = [] ∧
    (∀ p, p < 16 → State.reset.pstate p = 0) ∧
    (∀ a r, hostReg a = some r → a ≠ F.BOOT_STATUS_STAGE.reg → State.reset.hostWord a = BitVec.ofNat 64 r.reset) ∧
    (∀ t, t < 10800 → (State.reset.tile t).pc = 0 ∧ (State.reset.tile t).fld F.TILE_STATUS_OPSTATE = 1 ∧
      (State.reset.tile t).fld F.TILE_STATUS_MODE = 1 ∧ (∀ n, (State.reset.tile t).sreg n = 0) ∧
      (∀ a, memByte (State.reset.tile t).store a = 0) ∧
      ∀ a r, findReg tileRegs a = some r → (State.reset.tile t).ctlWord a = BitVec.ofNat 64 r.reset)

/-- The canonical form holds after reset. -/
def Sys2Proof.Claims.ResetIsCanonical : Prop := State.reset.Canonical

/-- Every step keeps the canonical form: hall time stays a 64-bit count with a 16-bit fraction, and stacked memory, host memory, the tiles
and the host registers stay in the form in which equal contents are equal data. -/
def Obligations.StepsKeepTheCanonicalForm : Prop :=
  ∀ s t : State, s.Canonical → step s = .next t → t.Canonical

/-- An instruction of the scalar, matrix, chain and solver families acts on its own tile alone, whatever it ends in, an
exception included: no other tile, no memory, no register of the host space and no time changes. -/
def Obligations.InstructionsStayOnTheirTile : Prop :=
  ∀ (c : Instr) (t : TileIx) (s u : State), Claims.ownTile c = some t → exec c s = .next u →
    (∀ t', t' ≠ t.val → u.tile t' = s.tile t') ∧ { u with tiles := s.tiles } = s


/-! ## Statements of several parts -/

/-- A step runs the front command with the rest of the queue; on an empty queue one tick passes (the model's choice, log 1). -/
def Obligations.StepIsExec : Prop :=
  Claims.StepRunsFrontCommand ∧ Claims.EmptyQueueTicks

/-- The scalar ALU computes sA from sB and sC as its table gives, and reserves K, and C where one operand is taken; every other MINOR
is undefined. -/
def Obligations.ScalarAluResults : Prop :=
  Claims.AluResults ∧ Claims.MulDivBitResults ∧ Claims.AluReservedFields ∧ Claims.UndefinedMinors 0x01

/-- Immediate instructions and shifts by immediate complete with their value in sA. -/
def Obligations.ImmediateAndShiftResults : Prop :=
  Claims.ImmediateResults ∧ Claims.ShiftImmediateResults

/-- Loads and stores move exactly the bytes at the computed address. -/
def Obligations.LoadAndStoreResults : Prop :=
  Claims.LoadResults ∧ Claims.StoreResults

/-- Branches and jumps go where the rules say; a squash only wastes slots. -/
def Obligations.ControlFlowResults : Prop :=
  Claims.BranchResults ∧ Claims.JumpResults ∧ Claims.SquashCountsWastedSlots

/-- dld, dst, kld and kst move d and k registers to and from the tile store; every other MINOR is undefined. -/
def Obligations.DescriptorAndMaskTransfers : Prop :=
  Claims.TransferResults ∧ Claims.TransferCauses ∧ Claims.UndefinedMinors 0x35

/-- Synchronous causes, fetch causes and control-space permissions enter the handler, or double fault. -/
def Obligations.SynchronousExceptions : Prop :=
  Claims.SynchronousCauses ∧ Claims.FetchCauses ∧ Claims.ControlSpacePermissions

/-- trap takes its exception; eret returns, or takes a pending FENCED. -/
def Obligations.TrapsAndReturns : Prop :=
  Claims.TrapTakesItsException ∧ Claims.EretReturns

/-- ifence completes; tsync, twait and wait hold dispatch and release it as their rules say; Den prepare and its commit; and an M or C
instruction behind an earlier one waits in its queue. -/
def Obligations.BarriersAndWaits : Prop :=
  Claims.BarrierResults ∧ Claims.TwaitReleasesAtACycleStart ∧ Claims.SleepEntry ∧ Claims.InstructionsWaitInTheirQueue

/-- X instructions enter the X queue with their operands; an atomic whose address has a bad form faults at dispatch. -/
def Obligations.XQueueEntries : Prop :=
  Claims.XInstructionsEnterTheQueue ∧ Claims.AtomicAddressCauses

/-- An atomic is performed at the home of its line; hold and commit follow the reservation. -/
def Obligations.AtomicsActAtTheirHome : Prop :=
  Claims.AtomicsPerformedAtHome ∧ Claims.HoldAndCommitAtHome ∧ Claims.CommitStatusOrder

/-- Reservations end, tags complete by generation, and host timeouts end reads. -/
def Obligations.ReservationsAndCompletions : Prop :=
  Claims.ReservationsEnd ∧ Claims.CompletionsByTag ∧ Claims.HostTimeoutsEndReads

/-- The head of the X queue launches in order, at its beat if stamped, in chunks. -/
def Obligations.LaunchesOfTheXQueue : Prop :=
  Claims.ChunksLaunch ∧ Claims.TheHeadOfTheXQueueLaunches ∧ Claims.StampHoldsTheHead

/-- Errors post records into the ring in order; streams complete with their failed elements. -/
def Obligations.ErrorRecordsAndStreams : Prop :=
  Claims.ErrorRecordsArePosted ∧ Claims.StreamsComplete

/-- Drains round the exact value once; exported records restore it exactly. -/
def Obligations.DrainsAndRecords : Prop :=
  Claims.ClearAndDrainResults ∧ Claims.RecordsCarryExactValues

/-- mmom, mdrmom and mgrp accumulate and drain as their rules give. -/
def Obligations.MomentsAndGroupedAdapters : Prop :=
  Claims.MomentResults ∧ Claims.GroupedAdaptersAccumulate

/-- Lane moves, bit operations, mask operations and vsetvl. -/
def Obligations.ChainLanesAndMasks : Prop :=
  Claims.ChainMovesAndBits ∧ Claims.MasksAndElements ∧ Claims.VsetvlResults

/-- Chain arithmetic, conversions and widening products round the exact value once. -/
def Obligations.ChainArithmetic : Prop :=
  Claims.ChainArithmeticRoundsOnce ∧ Claims.ConversionsAndProducts

/-- Function-stage results lie in the bound of the accuracy table, and tangents follow their rules (enclosure: log 40). -/
def Obligations.ChainFunctionsAndTangents : Prop :=
  Claims.ChainFunctionsAreFaithful ∧ Claims.TangentsFollowTheirRules

/-- Reductions keep the exact sum, or the extreme element, in the root. -/
def Obligations.ReductionsAreExact : Prop :=
  Claims.SumsAreExact ∧ Claims.ReductionsKeepTheWinner

/-- Roots are cleared, drained, exported and imported exactly. -/
def Obligations.RootsKeepTheirValues : Prop :=
  Claims.RootsClearAndDrain ∧ Claims.RootRecordsRestore

/-- Chain loads, stores, gathers and scatters by element; random words by counter. -/
def Obligations.ChainMemoryAndRandomWords : Prop :=
  Claims.ChainMemoryResults ∧ Claims.RandomWords

/-- Configured chains and tile programs run their stages in order (log 41: accumulator instructions as commands). -/
def Obligations.ConfiguredChainsAndPrograms : Prop :=
  Claims.ConfiguredChainPasses ∧ Claims.TilePrograms ∧ Claims.AccumulatorInstructions

/-- Solver instructions check, prepare and complete as their rules give (operation order: log 42). -/
def Obligations.SolverResults : Prop :=
  Claims.WarmSolvesComplete ∧ Claims.SolverInstructions

/-- Command queues fetch, wait and post in order. -/
def Obligations.CommandQueuesRun : Prop :=
  Claims.QueuesFetchAndPost ∧ Claims.WaitingHeads

/-- Queue commands end with their status; DMA copies and RUN places work. -/
def Obligations.QueueCommandResults : Prop :=
  Claims.QueueCommandsEnd ∧ Claims.DmaCopies ∧ Claims.RunPlacesWork

/-- Collective instances complete with their reports; groups change at round boundaries. -/
def Obligations.CollectivesAndGroups : Prop :=
  Claims.CollectivesComplete ∧ Claims.GroupsAndInstances

/-- Refresh, zero-fill, scrub and spares keep the contents of memory. -/
def Obligations.MemoryMaintenance : Prop :=
  Claims.BlocksRefreshAndScrub ∧ Claims.SparesReplaceRowsAndBonds

/-- Frames carry messages in send order and are accepted, or fail and are sent again. -/
def Obligations.FramesLeaveAndArrive : Prop :=
  Claims.FramesLeave ∧ Claims.FramesArrive

/-- Receives and error rings; messages are released to their destinations, or end at the horizon. -/
def Obligations.ReceivesAndReleases : Prop :=
  Claims.RecordRingAndReceives ∧ Claims.MessagesRelease

/-- Links move between their states and replace failed lanes. -/
def Obligations.LinksTrainAndSwap : Prop :=
  Claims.LinkStates ∧ Claims.LanesFailAndSwap

/-- Timetables are admitted, installed and withdrawn, and settlement leaves no overload. -/
def Obligations.TimetablesAndSettlement : Prop :=
  Claims.TimetablesComeAndGo ∧ Claims.SettlementFits

/-- A fence takes effect at its destinations; drains and quiesce limits end work. -/
def Obligations.FencesAndDrains : Prop :=
  Claims.FencesTakeEffect ∧ Claims.DrainAndQuiesce

/-- Context, tile and partition resets leave what the rules say. -/
def Obligations.NarrowResets : Prop :=
  Claims.ContextResets ∧ Claims.TileResets ∧ Claims.PartitionResetsAndCaptures

/-- Engine resets, escalation, host loss and Badgers. -/
def Obligations.WideResets : Prop :=
  Claims.EngineResets ∧ Claims.StepsEscalate ∧ Claims.HostLossAndBadgers

/-- Doze and Den are entered and left, with their wake records. -/
def Obligations.DozeAndDen : Prop :=
  Claims.DozeComesAndGoes ∧ Claims.DenComesAndGoes

/-- Latches take counters into dumps, and samples come from counted events. -/
def Obligations.CountersAreLatchedAndSampled : Prop :=
  Claims.FoxLatchesAndDumps ∧ Claims.SamplesAreTaken

/-- TAP, access frames, halts and trace. -/
def Obligations.DebugAccess : Prop :=
  Claims.AccessFrames ∧ Claims.TapInstructions ∧ Claims.TilesHaltAndResume ∧ Claims.PartitionsHaltAndResume ∧ Claims.TraceRecords

/-- The 48 V domain comes and goes, and thermal protection trips it. -/
def Obligations.ModuleSupplyAndThermal : Prop :=
  Claims.MainSupplyComesAndGoes ∧ Claims.ThermalProtection

/-- Set and step move the counter under their conditions; a stretch costs cycles and moves no time. -/
def Obligations.TimeIsSetAndStretched : Prop :=
  Claims.TimeIsSet ∧ Claims.StretchesCostCycles

/-- What reset leaves, and that it meets the canonical form (values marked P or —: the model's choice, logs 2 and 3). -/
def Obligations.ResetState : Prop :=
  Claims.ResetValues ∧ Claims.ResetIsCanonical

end
end

