-- ==== Sys2Proof/Laws/Maps.lean ====
section
/-!
SUPPORT. Laws of the sparse maps and byte memories: a read after a write, and that every operation keeps the canonical
form.
-/
namespace Sys2Proof.Machine

variable {V : Type}

/-! ## Reading after writing -/

theorem NMap.find_put_same (m : NMap V) (k : Nat) (v : V) : (m.put k v).find k = some v := by
  induction m with
  | nil => simp [NMap.put, NMap.find]
  | cons e m ih =>
    obtain ⟨j, w⟩ := e
    rcases lt_trichotomy k j with h | h | h
    · simp [NMap.put, h, h.ne, NMap.find]
    · simp [NMap.put, h, NMap.find]
    · simp [NMap.put, h.ne', Nat.not_lt.mpr h.le, NMap.find, ih]

theorem NMap.find_put_other (m : NMap V) {k k' : Nat} (v : V) (h : k' ≠ k) : (m.put k v).find k' = m.find k' := by
  induction m with
  | nil => simp [NMap.put, NMap.find, h]
  | cons e m ih =>
    obtain ⟨j, w⟩ := e
    by_cases hkj : k = j
    · subst hkj; simp [NMap.put, NMap.find, h]
    · by_cases hlt : k < j
      · simp [NMap.put, hkj, hlt, NMap.find, h]
      · simp [NMap.put, hkj, hlt, NMap.find, ih]

theorem NMap.find_del_same (m : NMap V) (k : Nat) : (m.del k).find k = none := by
  induction m with
  | nil => rfl
  | cons e m ih =>
    obtain ⟨j, w⟩ := e
    by_cases h : k = j <;> simp [NMap.del, NMap.find, h]
    · subst h; exact ih
    · exact ih

theorem NMap.find_del_other (m : NMap V) {k k' : Nat} (h : k' ≠ k) : (m.del k).find k' = m.find k' := by
  induction m with
  | nil => rfl
  | cons e m ih =>
    obtain ⟨j, w⟩ := e
    by_cases hkj : k = j
    · subst hkj; simp [NMap.del, NMap.find, h, ih]
    · simp [NMap.del, NMap.find, hkj, ih]

variable [DecidableEq V]

@[simp] theorem NMap.get_set_same (d : Nat → V) (m : NMap V) (k : Nat) (v : V) : (m.set d k v).get d k = v := by
  unfold NMap.set NMap.get
  split
  · next h => simp [NMap.find_del_same, h]
  · simp [NMap.find_put_same]

theorem NMap.get_set_other (d : Nat → V) (m : NMap V) {k k' : Nat} (v : V) (h : k' ≠ k) :
    (m.set d k v).get d k' = m.get d k' := by
  unfold NMap.set NMap.get
  split <;> simp [NMap.find_del_other, NMap.find_put_other, h]

theorem NMap.get_set (d : Nat → V) (m : NMap V) (k k' : Nat) (v : V) :
    (m.set d k v).get d k' = if k' = k then v else m.get d k' := by
  split
  · next h => simp [h]
  · next h => exact NMap.get_set_other d m v h

@[simp] theorem NMap.get_nil (d : Nat → V) (k : Nat) : NMap.get d [] k = d k := rfl

/-! ## The canonical form -/

theorem NMap.mem_put {m : NMap V} {k : Nat} {v : V} {e : Nat × V} (h : e ∈ m.put k v) : e = (k, v) ∨ e ∈ m := by
  induction m with
  | nil => simpa [NMap.put] using h
  | cons x m ih =>
    obtain ⟨j, w⟩ := x
    unfold NMap.put at h
    split at h
    · rcases List.mem_cons.mp h with h | h
      · exact .inl h
      · exact .inr (List.mem_cons_of_mem _ h)
    · split at h
      · rcases List.mem_cons.mp h with h | h
        · exact .inl h
        · exact .inr h
      · rcases List.mem_cons.mp h with h | h
        · exact .inr (by simp [h])
        · exact (ih h).imp_right (List.mem_cons_of_mem _)

theorem NMap.mem_del {m : NMap V} {k : Nat} {e : Nat × V} (h : e ∈ m.del k) : e ∈ m := by
  induction m with
  | nil => exact h
  | cons x m ih =>
    obtain ⟨j, w⟩ := x
    unfold NMap.del at h
    split at h
    · exact List.mem_cons_of_mem _ (ih h)
    · rcases List.mem_cons.mp h with h | h
      · simp [h]
      · exact List.mem_cons_of_mem _ (ih h)

theorem NMap.rising_put {m : NMap V} (k : Nat) (v : V) (h : m.Pairwise (fun p q => p.1 < q.1)) :
    (m.put k v).Pairwise (fun p q => p.1 < q.1) := by
  induction m with
  | nil => simp [NMap.put]
  | cons x m ih =>
    obtain ⟨j, w⟩ := x
    rw [List.pairwise_cons] at h
    unfold NMap.put
    split
    · next hk => subst hk; exact List.pairwise_cons.mpr ⟨h.1, h.2⟩
    · next hk =>
      split
      · next hlt =>
        refine List.pairwise_cons.mpr ⟨fun e he => ?_, List.pairwise_cons.mpr h⟩
        rcases List.mem_cons.mp he with rfl | he
        · exact hlt
        · exact lt_trans hlt (h.1 e he)
      · next hge =>
        refine List.pairwise_cons.mpr ⟨fun e he => ?_, ih h.2⟩
        rcases NMap.mem_put he with rfl | he
        · exact lt_of_le_of_ne (Nat.le_of_not_lt hge) (fun q => hk q.symm)
        · exact h.1 e he

theorem NMap.rising_del {m : NMap V} (k : Nat) (h : m.Pairwise (fun p q => p.1 < q.1)) :
    (m.del k).Pairwise (fun p q => p.1 < q.1) := by
  induction m with
  | nil => exact h
  | cons x m ih =>
    obtain ⟨j, w⟩ := x
    rw [List.pairwise_cons] at h
    unfold NMap.del
    split
    · exact ih h.2
    · exact List.pairwise_cons.mpr ⟨fun e he => h.1 e (NMap.mem_del he), ih h.2⟩

theorem NMap.wf_set (d : Nat → V) {m : NMap V} (k : Nat) (v : V) (h : NMap.wf d m) : NMap.wf d (m.set d k v) := by
  unfold NMap.set
  split
  · exact ⟨NMap.rising_del k h.1, fun e he => h.2 e (NMap.mem_del he)⟩
  · next hv =>
    refine ⟨NMap.rising_put k v h.1, fun e he => ?_⟩
    rcases NMap.mem_put he with rfl | he
    · exact hv
    · exact h.2 e he

theorem NMap.wf_upd (d : Nat → V) {m : NMap V} (k : Nat) (f : V → V) (h : NMap.wf d m) : NMap.wf d (m.upd d k f) :=
  NMap.wf_set d k _ h

theorem NMap.wf_nil (d : Nat → V) : NMap.wf d ([] : NMap V) := ⟨List.Pairwise.nil, by simp⟩

theorem NMap.wf_filter (d : Nat → V) {m : NMap V} (p : Nat × V → Bool) (h : NMap.wf d m) : NMap.wf d (m.filter p) :=
  ⟨h.1.filter p, fun e he => h.2 e (List.mem_filter.mp he).1⟩

theorem NMap.wf_keep (d : Nat → V) {m : NMap V} (p : Nat → Bool) (h : NMap.wf d m) : NMap.wf d (m.keep p) :=
  NMap.wf_filter d _ h

theorem NMap.wf_mapv (d : Nat → V) (f : Nat → V → V) (m : NMap V) : NMap.wf d (m.mapv d f) := by
  induction m with
  | nil => exact NMap.wf_nil d
  | cons e m ih => exact NMap.wf_set d _ _ ih

/-- Applying a function to the listed values applies it to every value, if it keeps the defaults. -/
theorem NMap.get_mapv (d : Nat → V) (f : Nat → V → V) (m : NMap V) (h : ∀ k, f k (d k) = d k) (k : Nat) :
    (m.mapv d f).get d k = f k (m.get d k) := by
  induction m with
  | nil => simp [NMap.mapv, h]
  | cons e m ih =>
    obtain ⟨j, v⟩ := e
    show ((NMap.mapv d f m).set d j (f j v)).get d k = _
    rw [NMap.get_set, ih]
    by_cases hk : k = j <;> simp [NMap.get, NMap.find, hk]

theorem NMap.wf_tabulate (d : Nat → V) (n : Nat) (f : Nat → V) : NMap.wf d (NMap.tabulate d n f) := by
  refine ⟨?_, fun e he => ?_⟩
  · refine List.Pairwise.filter _ (List.pairwise_map.mpr ?_)
    exact List.pairwise_lt_range
  · simpa using (List.mem_filter.mp he).2

/-! ## Byte memories -/

theorem memWrite_wf {m : NMap Byte} (n a v : Nat) (h : Memory.wf m) : Memory.wf (memWrite m a n v) := by
  induction n generalizing m a v with
  | zero => exact h
  | succ n ih => exact ih (a + 1) (v / 256) (NMap.wf_set byteZero a _ h)

theorem memWriteBytes_wf {m : NMap Byte} (bs : List Byte) (a : Nat) (h : Memory.wf m) :
    Memory.wf (memWriteBytes m a bs) := by
  induction bs generalizing m a with
  | nil => exact h
  | cons b bs ih => exact ih (a + 1) (NMap.wf_set byteZero a b h)

theorem memZero_wf {m : NMap Byte} (a n : Nat) (h : Memory.wf m) : Memory.wf (memZero m a n) :=
  NMap.wf_keep byteZero _ h

/-- Byte `b` after `n` bytes of `v` are stored at `a`. -/
theorem memByte_memWrite (m : NMap Byte) (n a v b : Nat) :
    memByte (memWrite m a n v) b =
      if a ≤ b ∧ b < a + n then BitVec.ofNat 8 (v / 256 ^ (b - a)) else memByte m b := by
  induction n generalizing m a v with
  | zero => rw [memWrite, if_neg (by omega)]
  | succ n ih =>
    rw [memWrite, ih]
    by_cases h1 : a + 1 ≤ b ∧ b < a + 1 + n
    · rw [if_pos h1, if_pos (by omega), Nat.div_div_eq_div_mul, ← Nat.pow_succ', show (b - (a + 1)).succ = b - a by omega]
    · rw [if_neg h1]
      by_cases h2 : b = a
      · subst h2
        simp [memByte]
      · rw [if_neg (by omega)]
        exact NMap.get_set_other _ _ _ h2

/-- What was stored is read back. -/
theorem memRead_memWrite (m : NMap Byte) (n a v : Nat) : memRead (memWrite m a n v) a n = v % 256 ^ n := by
  have key : ∀ (k i : Nat), i + k = n → memRead (memWrite m a n v) (a + i) k = v / 256 ^ i % 256 ^ k := by
    intro k
    induction k with
    | zero => intro i _; simp [memRead, Nat.mod_one]
    | succ k ih =>
      intro i hi
      rw [memRead, memByte_memWrite, if_pos (by omega), show a + i + 1 = a + (i + 1) by omega, ih (i + 1) (by omega)]
      rw [show a + i - a = i by omega, BitVec.toNat_ofNat, Nat.pow_succ' (n := k), Nat.mod_mul, Nat.div_div_eq_div_mul, ← Nat.pow_succ]
  simpa using key n 0 (by omega)

theorem memByte_memZero (m : NMap Byte) (a n b : Nat) :
    memByte (memZero m a n) b = if a ≤ b ∧ b < a + n then 0 else memByte m b := by
  unfold memByte memZero NMap.keep NMap.get
  induction m with
  | nil => simp [NMap.find, byteZero]
  | cons e m ih =>
    obtain ⟨j, w⟩ := e
    by_cases hj : j < a ∨ a + n ≤ j
    · rw [List.filter_cons_of_pos (by simpa using hj)]
      simp only [NMap.find]
      by_cases hb : b = j
      · subst hb; simp; omega
      · simp only [hb, if_false]; exact ih
    · rw [List.filter_cons_of_neg (by simpa using hj)]
      rw [ih]
      simp only [NMap.find]
      by_cases hb : b = j
      · subst hb; rw [if_pos (by omega), if_pos (by omega)]
      · simp [hb]

end Sys2Proof.Machine
end

