-- ==== Sys2Proof/Laws/State.lean ====
section
/-!
SUPPORT. Laws of the state's accessors: what reads what, after which write.
-/
namespace Sys2Proof.Machine

/-! ## Tiles in the state -/

@[simp] theorem State.tile_setTile_same (s : State) (t : Nat) (T : Tile) : (s.setTile t T).tile t = T :=
  NMap.get_set_same _ _ _ _

theorem State.tile_setTile_other (s : State) {t t' : Nat} (T : Tile) (h : t' ≠ t) : (s.setTile t T).tile t' = s.tile t' :=
  NMap.get_set_other _ _ _ h

@[simp] theorem State.tile_onTile_same (s : State) (t : Nat) (f : Tile → Tile) : (s.onTile t f).tile t = f (s.tile t) :=
  State.tile_setTile_same _ _ _

theorem State.tile_onTile_other (s : State) {t t' : Nat} (f : Tile → Tile) (h : t' ≠ t) :
    (s.onTile t f).tile t' = s.tile t' :=
  State.tile_setTile_other _ _ h

theorem OnlyTile.setTile (s : State) (t : Nat) (T : Tile) : OnlyTile s t (s.setTile t T) T :=
  ⟨State.tile_setTile_same s t T, fun _ h => State.tile_setTile_other s T h, rfl⟩

theorem OnlyTile.onTile (s : State) (t : Nat) (f : Tile → Tile) : OnlyTile s t (s.onTile t f) (f (s.tile t)) :=
  OnlyTile.setTile s t _

theorem OnlyTile.again {s u : State} {t : Nat} {T : Tile} (h : OnlyTile s t u T) (T' : Tile) : OnlyTile s t (u.setTile t T') T' :=
  ⟨State.tile_setTile_same u t T', fun t' ht => (State.tile_setTile_other u T' ht).trans (h.others t' ht), h.rest⟩

theorem OnlyTile.then {s u : State} {t : Nat} {T : Tile} (h : OnlyTile s t u T) (f : Tile → Tile) :
    OnlyTile s t (u.onTile t f) (f T) := by
  have e := h.again (f (u.tile t))
  exact ⟨by rw [State.tile_onTile_same, h.tile], e.others, e.rest⟩

/-! ## Control registers -/

@[simp] theorem Tile.ctlWord_setCtl_same (T : Tile) (a : Nat) (w : Word) : (T.setCtl a w).ctlWord a = w :=
  NMap.get_set_same _ _ _ _

theorem Tile.ctlWord_setCtl_other (T : Tile) {a b : Nat} (w : Word) (h : b ≠ a) : (T.setCtl a w).ctlWord b = T.ctlWord b :=
  NMap.get_set_other _ _ _ h

theorem Tile.ctlWord_setFld_other (T : Tile) {f : Fld} {b : Nat} (v : Nat) (h : b ≠ f.reg) :
    (T.setFld f v).ctlWord b = T.ctlWord b :=
  Tile.ctlWord_setCtl_other _ _ h

theorem Tile.fld_setFld_otherReg (T : Tile) {f g : Fld} (v : Nat) (h : g.reg ≠ f.reg) : (T.setFld f v).fld g = T.fld g := by
  simp [Tile.fld, Tile.ctlWord_setFld_other T v h]

theorem Tile.fld_setCtl_otherReg (T : Tile) {a : Nat} {g : Fld} (w : Word) (h : g.reg ≠ a) : (T.setCtl a w).fld g = T.fld g := by
  simp [Tile.fld, Tile.ctlWord_setCtl_other T w h]

/-! ## Bit fields -/

theorem bitsOf_eq (x lo w : Nat) : bitsOf x lo w = x / 2 ^ lo % 2 ^ w := rfl

theorem bitsOf_setBits_same (x lo w v : Nat) : bitsOf (setBits x lo w v) lo w = v % 2 ^ w := by
  unfold bitsOf setBits
  have hl : x % 2 ^ lo < 2 ^ lo := Nat.mod_lt _ (by positivity)
  rw [show x % 2 ^ lo + 2 ^ lo * (v % 2 ^ w) + 2 ^ (lo + w) * (x / 2 ^ (lo + w)) =
    x % 2 ^ lo + 2 ^ lo * (v % 2 ^ w + 2 ^ w * (x / 2 ^ (lo + w))) by rw [Nat.pow_add]; ring]
  rw [Nat.add_mul_div_left _ _ (by positivity), Nat.div_eq_of_lt hl, Nat.zero_add, Nat.add_mul_mod_self_left, Nat.mod_mod]

/-- A field below the replaced one keeps its value. -/
theorem bitsOf_setBits_below (x lo w v lo' w' : Nat) (h : lo' + w' ≤ lo) : bitsOf (setBits x lo w v) lo' w' = bitsOf x lo' w' := by
  unfold bitsOf
  have e : setBits x lo w v % 2 ^ lo = x % 2 ^ lo := by
    unfold setBits
    rw [show x % 2 ^ lo + 2 ^ lo * (v % 2 ^ w) + 2 ^ (lo + w) * (x / 2 ^ (lo + w)) =
      x % 2 ^ lo + 2 ^ lo * (v % 2 ^ w + 2 ^ w * (x / 2 ^ (lo + w))) by rw [Nat.pow_add]; ring]
    rw [Nat.add_mul_mod_self_left, Nat.mod_mod]
  have key : ∀ y : Nat, y / 2 ^ lo' % 2 ^ w' = y % 2 ^ lo / 2 ^ lo' % 2 ^ w' := by
    intro y
    obtain ⟨d, rfl⟩ := Nat.exists_eq_add_of_le h
    rw [show lo' + w' + d = lo' + (w' + d) by omega, Nat.pow_add, Nat.mod_mul_right_div_self, Nat.pow_add,
      Nat.mod_mul_right_mod]
  rw [key, key x, e]

/-- A field above the replaced one keeps its value. -/
theorem bitsOf_setBits_above (x lo w v lo' w' : Nat) (h : lo + w ≤ lo') : bitsOf (setBits x lo w v) lo' w' = bitsOf x lo' w' := by
  unfold bitsOf
  have e : setBits x lo w v / 2 ^ (lo + w) = x / 2 ^ (lo + w) := by
    unfold setBits
    have h1 : x % 2 ^ lo + 2 ^ lo * (v % 2 ^ w) < 2 ^ (lo + w) := by
      have a := Nat.mod_lt x (show 0 < 2 ^ lo by positivity)
      have b := Nat.mod_lt v (show 0 < 2 ^ w by positivity)
      rw [Nat.pow_add]
      calc x % 2 ^ lo + 2 ^ lo * (v % 2 ^ w) < 2 ^ lo + 2 ^ lo * (v % 2 ^ w) := by omega
        _ = 2 ^ lo * (v % 2 ^ w + 1) := by ring
        _ ≤ 2 ^ lo * 2 ^ w := Nat.mul_le_mul_left _ b
    rw [Nat.add_mul_div_left _ _ (by positivity), Nat.div_eq_of_lt h1, Nat.zero_add]
  obtain ⟨d, rfl⟩ := Nat.exists_eq_add_of_le h
  rw [Nat.pow_add, ← Nat.div_div_eq_div_mul, e, Nat.div_div_eq_div_mul]

theorem setBits_lt {x lo w v n : Nat} (hx : x < 2 ^ n) (h : lo + w ≤ n) : setBits x lo w v < 2 ^ n := by
  have e : setBits x lo w v / 2 ^ (lo + w) = x / 2 ^ (lo + w) := by
    have := bitsOf_setBits_above x lo w v (lo + w) n (le_refl _)
    unfold setBits
    have h1 : x % 2 ^ lo + 2 ^ lo * (v % 2 ^ w) < 2 ^ (lo + w) := by
      have a := Nat.mod_lt x (show 0 < 2 ^ lo by positivity)
      have b := Nat.mod_lt v (show 0 < 2 ^ w by positivity)
      rw [Nat.pow_add]
      calc x % 2 ^ lo + 2 ^ lo * (v % 2 ^ w) < 2 ^ lo + 2 ^ lo * (v % 2 ^ w) := by omega
        _ = 2 ^ lo * (v % 2 ^ w + 1) := by ring
        _ ≤ 2 ^ lo * 2 ^ w := Nat.mul_le_mul_left _ b
    rw [Nat.add_mul_div_left _ _ (by positivity), Nat.div_eq_of_lt h1, Nat.zero_add]
  obtain ⟨d, rfl⟩ := Nat.exists_eq_add_of_le h
  have hd : x / 2 ^ (lo + w) < 2 ^ d := by
    rw [Nat.div_lt_iff_lt_mul (by positivity), ← Nat.pow_add, Nat.add_comm d]
    exact hx
  have := (Nat.div_lt_iff_lt_mul (show 0 < 2 ^ (lo + w) by positivity)).mp (e ▸ hd)
  rwa [← Nat.pow_add, Nat.add_comm d] at this

theorem wordField_setWordField_same (w : Word) (lo n v : Nat) (h : lo + n ≤ 64) :
    wordField (setWordField w lo n v) lo n = v % 2 ^ n := by
  unfold wordField setWordField
  rw [BitVec.toNat_ofNat, Nat.mod_eq_of_lt (setBits_lt w.isLt h), bitsOf_setBits_same]

theorem wordField_setWordField_other (w : Word) (lo n v lo' n' : Nat) (h : lo + n ≤ 64)
    (hd : lo' + n' ≤ lo ∨ lo + n ≤ lo') : wordField (setWordField w lo n v) lo' n' = wordField w lo' n' := by
  unfold wordField setWordField
  rw [BitVec.toNat_ofNat, Nat.mod_eq_of_lt (setBits_lt w.isLt h)]
  rcases hd with hd | hd
  · exact bitsOf_setBits_below _ _ _ _ _ _ hd
  · exact bitsOf_setBits_above _ _ _ _ _ _ hd

theorem Tile.fld_setFld_same (T : Tile) (f : Fld) (v : Nat) (h : f.lo + f.width ≤ 64) : (T.setFld f v).fld f = v % 2 ^ f.width := by
  simp only [Tile.fld, Tile.setFld, Tile.ctlWord_setCtl_same]
  exact wordField_setWordField_same _ _ _ _ h

theorem Tile.fld_setFld_sameReg (T : Tile) (f g : Fld) (v : Nat) (hr : g.reg = f.reg) (h : f.lo + f.width ≤ 64)
    (hd : g.lo + g.width ≤ f.lo ∨ f.lo + f.width ≤ g.lo) : (T.setFld f v).fld g = T.fld g := by
  simp only [Tile.fld, Tile.setFld, hr, Tile.ctlWord_setCtl_same]
  exact wordField_setWordField_other _ _ _ _ _ _ h hd

/-! ## Register files -/

@[simp] theorem Tile.sreg_zero (T : Tile) : T.sreg 0 = 0 := rfl

theorem Tile.sreg_setS (T : Tile) (r r' : Nat) (w : Word) :
    (T.setS r w).sreg r' = if r' = r ∧ r ≠ 0 then w else T.sreg r' := by
  unfold Tile.setS Tile.sreg
  by_cases hr : r = 0
  · simp [hr]
  · by_cases h : r' = r
    · subst h; simp [hr]
    · by_cases h0 : r' = 0
      · simp [h0, hr, Ne.symm hr]
      · simp [hr, h, h0, NMap.get_set_other]

@[simp] theorem Tile.kreg_zero (T : Tile) : T.kreg 0 = BitVec.allOnes 512 := rfl

theorem Tile.kreg_setK (T : Tile) (r r' : Nat) (w : Line) :
    (T.setK r w).kreg r' = if r' = r ∧ r ≠ 0 then w else T.kreg r' := by
  unfold Tile.setK Tile.kreg
  by_cases hr : r = 0
  · simp [hr]
  · by_cases h : r' = r
    · subst h; simp [hr]
    · by_cases h0 : r' = 0
      · simp [h0, hr, Ne.symm hr]
      · simp [hr, h, h0, NMap.get_set_other]

theorem Tile.vreg_setV (T : Tile) (r r' : Nat) (w : Vec) : (T.setV r w).vreg r' = if r' = r then w else T.vreg r' :=
  NMap.get_set _ _ _ _ _

theorem Tile.dreg_setD (T : Tile) (r r' : Nat) (w : Line) : (T.setD r w).dreg r' = if r' = r then w else T.dreg r' :=
  NMap.get_set _ _ _ _ _

theorem Tile.setS_ctl (T : Tile) (r : Nat) (w : Word) : (T.setS r w).ctl = T.ctl := by
  unfold Tile.setS; split <;> rfl
theorem Tile.setS_store (T : Tile) (r : Nat) (w : Word) : (T.setS r w).store = T.store := by
  unfold Tile.setS; split <;> rfl
theorem Tile.setS_v (T : Tile) (r : Nat) (w : Word) : (T.setS r w).v = T.v := by
  unfold Tile.setS; split <;> rfl
theorem Tile.setS_k (T : Tile) (r : Nat) (w : Word) : (T.setS r w).k = T.k := by
  unfold Tile.setS; split <;> rfl
theorem Tile.setS_d (T : Tile) (r : Nat) (w : Word) : (T.setS r w).d = T.d := by
  unfold Tile.setS; split <;> rfl

end Sys2Proof.Machine
end

