-- ==== Sys2Proof/Laws/Frames.lean ====
section
/-!
SUPPORT. What each update of the state leaves as it was, one theorem for each update, so that no proof unfolds a record
update. The parts of a conjunction are rewrite rules of their own.
-/
namespace Sys2Proof.Machine

/-! ## Updates of the whole state -/

@[simp] theorem State.setTile_rest (s : State) (t : Nat) (T : Tile) :
    (s.setTile t T).pending = s.pending ∧ (s.setTile t T).free = s.free ∧ (s.setTile t T).owl = s.owl ∧
    (s.setTile t T).regs = s.regs ∧ (s.setTile t T).prior = s.prior ∧ (s.setTile t T).rejNow = s.rejNow ∧
    (s.setTile t T).mem = s.mem ∧ (s.setTile t T).memUE = s.memUE ∧ (s.setTile t T).memPoison = s.memPoison ∧
    (s.setTile t T).homes = s.homes ∧ (s.setTile t T).blocks = s.blocks ∧ (s.setTile t T).host = s.host ∧
    (s.setTile t T).linkUp = s.linkUp ∧ (s.setTile t T).vfs = s.vfs ∧ (s.setTile t T).master = s.master ∧
    (s.setTile t T).d3 = s.d3 ∧ (s.setTile t T).msix = s.msix ∧ (s.setTile t T).links = s.links ∧
    (s.setTile t T).flows = s.flows ∧ (s.setTile t T).tables = s.tables ∧ (s.setTile t T).shares = s.shares ∧
    (s.setTile t T).spareBlocks = s.spareBlocks ∧ (s.setTile t T).spareTiles = s.spareTiles ∧
    (s.setTile t T).spareTook = s.spareTook ∧ (s.setTile t T).markCols = s.markCols ∧
    (s.setTile t T).spentCols = s.spentCols ∧ (s.setTile t T).admCount = s.admCount ∧
    (s.setTile t T).queues = s.queues ∧ (s.setTile t T).colls = s.colls ∧ (s.setTile t T).posted = s.posted ∧
    (s.setTile t T).windows = s.windows ∧ (s.setTile t T).granules = s.granules ∧ (s.setTile t T).parts = s.parts ∧
    (s.setTile t T).ctxs = s.ctxs ∧ (s.setTile t T).captures = s.captures ∧ (s.setTile t T).engReset = s.engReset ∧
    (s.setTile t T).changes = s.changes ∧ (s.setTile t T).map = s.map ∧ (s.setTile t T).saved = s.saved ∧
    (s.setTile t T).trace = s.trace ∧ (s.setTile t T).dropped = s.dropped ∧ (s.setTile t T).tap = s.tap ∧
    (s.setTile t T).module = s.module ∧ (s.setTile t T).stretch = s.stretch ∧
    (s.setTile t T).stretchAt = s.stretchAt ∧ (s.setTile t T).reply = s.reply ∧
    (s.setTile t T).dbgEvents = s.dbgEvents ∧ (s.setTile t T).svn = s.svn :=
  ⟨rfl, rfl, rfl, rfl, rfl, rfl, rfl, rfl, rfl, rfl, rfl, rfl, rfl, rfl, rfl, rfl, rfl, rfl, rfl, rfl, rfl, rfl, rfl,
    rfl, rfl, rfl, rfl, rfl, rfl, rfl, rfl, rfl, rfl, rfl, rfl, rfl, rfl, rfl, rfl, rfl, rfl, rfl, rfl, rfl, rfl,
    rfl, rfl, rfl⟩

@[simp] theorem State.onTile_rest (s : State) (t : Nat) (f : Tile → Tile) :
    (s.onTile t f).pending = s.pending ∧ (s.onTile t f).free = s.free ∧ (s.onTile t f).owl = s.owl ∧
    (s.onTile t f).regs = s.regs ∧ (s.onTile t f).prior = s.prior ∧ (s.onTile t f).rejNow = s.rejNow ∧
    (s.onTile t f).mem = s.mem ∧ (s.onTile t f).memUE = s.memUE ∧ (s.onTile t f).memPoison = s.memPoison ∧
    (s.onTile t f).homes = s.homes ∧ (s.onTile t f).blocks = s.blocks ∧ (s.onTile t f).host = s.host ∧
    (s.onTile t f).linkUp = s.linkUp ∧ (s.onTile t f).vfs = s.vfs ∧ (s.onTile t f).master = s.master ∧
    (s.onTile t f).d3 = s.d3 ∧ (s.onTile t f).msix = s.msix ∧ (s.onTile t f).links = s.links ∧
    (s.onTile t f).flows = s.flows ∧ (s.onTile t f).tables = s.tables ∧ (s.onTile t f).shares = s.shares ∧
    (s.onTile t f).spareBlocks = s.spareBlocks ∧ (s.onTile t f).spareTiles = s.spareTiles ∧
    (s.onTile t f).spareTook = s.spareTook ∧ (s.onTile t f).markCols = s.markCols ∧
    (s.onTile t f).spentCols = s.spentCols ∧ (s.onTile t f).admCount = s.admCount ∧ (s.onTile t f).queues = s.queues ∧
    (s.onTile t f).colls = s.colls ∧ (s.onTile t f).posted = s.posted ∧ (s.onTile t f).windows = s.windows ∧
    (s.onTile t f).granules = s.granules ∧ (s.onTile t f).parts = s.parts ∧ (s.onTile t f).ctxs = s.ctxs ∧
    (s.onTile t f).captures = s.captures ∧ (s.onTile t f).engReset = s.engReset ∧ (s.onTile t f).changes = s.changes ∧
    (s.onTile t f).map = s.map ∧ (s.onTile t f).saved = s.saved ∧ (s.onTile t f).trace = s.trace ∧
    (s.onTile t f).dropped = s.dropped ∧ (s.onTile t f).tap = s.tap ∧ (s.onTile t f).module = s.module ∧
    (s.onTile t f).stretch = s.stretch ∧ (s.onTile t f).stretchAt = s.stretchAt ∧ (s.onTile t f).reply = s.reply ∧
    (s.onTile t f).dbgEvents = s.dbgEvents ∧ (s.onTile t f).svn = s.svn :=
  ⟨rfl, rfl, rfl, rfl, rfl, rfl, rfl, rfl, rfl, rfl, rfl, rfl, rfl, rfl, rfl, rfl, rfl, rfl, rfl, rfl, rfl, rfl, rfl,
    rfl, rfl, rfl, rfl, rfl, rfl, rfl, rfl, rfl, rfl, rfl, rfl, rfl, rfl, rfl, rfl, rfl, rfl, rfl, rfl, rfl, rfl,
    rfl, rfl, rfl⟩

@[simp] theorem State.setHost_rest (s : State) (a : Nat) (w : Word) :
    (s.setHost a w).pending = s.pending ∧ (s.setHost a w).free = s.free ∧ (s.setHost a w).owl = s.owl ∧
    (s.setHost a w).prior = s.prior ∧ (s.setHost a w).rejNow = s.rejNow ∧ (s.setHost a w).tiles = s.tiles ∧
    (s.setHost a w).mem = s.mem ∧ (s.setHost a w).memUE = s.memUE ∧ (s.setHost a w).memPoison = s.memPoison ∧
    (s.setHost a w).homes = s.homes ∧ (s.setHost a w).blocks = s.blocks ∧ (s.setHost a w).host = s.host ∧
    (s.setHost a w).linkUp = s.linkUp ∧ (s.setHost a w).vfs = s.vfs ∧ (s.setHost a w).master = s.master ∧
    (s.setHost a w).d3 = s.d3 ∧ (s.setHost a w).msix = s.msix ∧ (s.setHost a w).links = s.links ∧
    (s.setHost a w).flows = s.flows ∧ (s.setHost a w).tables = s.tables ∧ (s.setHost a w).shares = s.shares ∧
    (s.setHost a w).spareBlocks = s.spareBlocks ∧ (s.setHost a w).spareTiles = s.spareTiles ∧
    (s.setHost a w).spareTook = s.spareTook ∧ (s.setHost a w).markCols = s.markCols ∧
    (s.setHost a w).spentCols = s.spentCols ∧ (s.setHost a w).admCount = s.admCount ∧
    (s.setHost a w).queues = s.queues ∧ (s.setHost a w).colls = s.colls ∧ (s.setHost a w).posted = s.posted ∧
    (s.setHost a w).windows = s.windows ∧ (s.setHost a w).granules = s.granules ∧ (s.setHost a w).parts = s.parts ∧
    (s.setHost a w).ctxs = s.ctxs ∧ (s.setHost a w).captures = s.captures ∧ (s.setHost a w).engReset = s.engReset ∧
    (s.setHost a w).changes = s.changes ∧ (s.setHost a w).map = s.map ∧ (s.setHost a w).saved = s.saved ∧
    (s.setHost a w).trace = s.trace ∧ (s.setHost a w).dropped = s.dropped ∧ (s.setHost a w).tap = s.tap ∧
    (s.setHost a w).module = s.module ∧ (s.setHost a w).stretch = s.stretch ∧
    (s.setHost a w).stretchAt = s.stretchAt ∧ (s.setHost a w).reply = s.reply ∧
    (s.setHost a w).dbgEvents = s.dbgEvents ∧ (s.setHost a w).svn = s.svn :=
  ⟨rfl, rfl, rfl, rfl, rfl, rfl, rfl, rfl, rfl, rfl, rfl, rfl, rfl, rfl, rfl, rfl, rfl, rfl, rfl, rfl, rfl, rfl, rfl,
    rfl, rfl, rfl, rfl, rfl, rfl, rfl, rfl, rfl, rfl, rfl, rfl, rfl, rfl, rfl, rfl, rfl, rfl, rfl, rfl, rfl, rfl,
    rfl, rfl, rfl⟩

@[simp] theorem State.setHf_rest (s : State) (b : Nat) (f : Fld) (v : Nat) :
    (s.setHf b f v).pending = s.pending ∧ (s.setHf b f v).free = s.free ∧ (s.setHf b f v).owl = s.owl ∧
    (s.setHf b f v).prior = s.prior ∧ (s.setHf b f v).rejNow = s.rejNow ∧ (s.setHf b f v).tiles = s.tiles ∧
    (s.setHf b f v).mem = s.mem ∧ (s.setHf b f v).memUE = s.memUE ∧ (s.setHf b f v).memPoison = s.memPoison ∧
    (s.setHf b f v).homes = s.homes ∧ (s.setHf b f v).blocks = s.blocks ∧ (s.setHf b f v).host = s.host ∧
    (s.setHf b f v).linkUp = s.linkUp ∧ (s.setHf b f v).vfs = s.vfs ∧ (s.setHf b f v).master = s.master ∧
    (s.setHf b f v).d3 = s.d3 ∧ (s.setHf b f v).msix = s.msix ∧ (s.setHf b f v).links = s.links ∧
    (s.setHf b f v).flows = s.flows ∧ (s.setHf b f v).tables = s.tables ∧ (s.setHf b f v).shares = s.shares ∧
    (s.setHf b f v).spareBlocks = s.spareBlocks ∧ (s.setHf b f v).spareTiles = s.spareTiles ∧
    (s.setHf b f v).spareTook = s.spareTook ∧ (s.setHf b f v).markCols = s.markCols ∧
    (s.setHf b f v).spentCols = s.spentCols ∧ (s.setHf b f v).admCount = s.admCount ∧
    (s.setHf b f v).queues = s.queues ∧ (s.setHf b f v).colls = s.colls ∧ (s.setHf b f v).posted = s.posted ∧
    (s.setHf b f v).windows = s.windows ∧ (s.setHf b f v).granules = s.granules ∧ (s.setHf b f v).parts = s.parts ∧
    (s.setHf b f v).ctxs = s.ctxs ∧ (s.setHf b f v).captures = s.captures ∧ (s.setHf b f v).engReset = s.engReset ∧
    (s.setHf b f v).changes = s.changes ∧ (s.setHf b f v).map = s.map ∧ (s.setHf b f v).saved = s.saved ∧
    (s.setHf b f v).trace = s.trace ∧ (s.setHf b f v).dropped = s.dropped ∧ (s.setHf b f v).tap = s.tap ∧
    (s.setHf b f v).module = s.module ∧ (s.setHf b f v).stretch = s.stretch ∧
    (s.setHf b f v).stretchAt = s.stretchAt ∧ (s.setHf b f v).reply = s.reply ∧
    (s.setHf b f v).dbgEvents = s.dbgEvents ∧ (s.setHf b f v).svn = s.svn :=
  ⟨rfl, rfl, rfl, rfl, rfl, rfl, rfl, rfl, rfl, rfl, rfl, rfl, rfl, rfl, rfl, rfl, rfl, rfl, rfl, rfl, rfl, rfl, rfl,
    rfl, rfl, rfl, rfl, rfl, rfl, rfl, rfl, rfl, rfl, rfl, rfl, rfl, rfl, rfl, rfl, rfl, rfl, rfl, rfl, rfl, rfl,
    rfl, rfl, rfl⟩

@[simp] theorem State.satHf_rest (s : State) (b : Nat) (f : Fld) (v : Nat) :
    (s.satHf b f v).pending = s.pending ∧ (s.satHf b f v).free = s.free ∧ (s.satHf b f v).owl = s.owl ∧
    (s.satHf b f v).prior = s.prior ∧ (s.satHf b f v).rejNow = s.rejNow ∧ (s.satHf b f v).tiles = s.tiles ∧
    (s.satHf b f v).mem = s.mem ∧ (s.satHf b f v).memUE = s.memUE ∧ (s.satHf b f v).memPoison = s.memPoison ∧
    (s.satHf b f v).homes = s.homes ∧ (s.satHf b f v).blocks = s.blocks ∧ (s.satHf b f v).host = s.host ∧
    (s.satHf b f v).linkUp = s.linkUp ∧ (s.satHf b f v).vfs = s.vfs ∧ (s.satHf b f v).master = s.master ∧
    (s.satHf b f v).d3 = s.d3 ∧ (s.satHf b f v).msix = s.msix ∧ (s.satHf b f v).links = s.links ∧
    (s.satHf b f v).flows = s.flows ∧ (s.satHf b f v).tables = s.tables ∧ (s.satHf b f v).shares = s.shares ∧
    (s.satHf b f v).spareBlocks = s.spareBlocks ∧ (s.satHf b f v).spareTiles = s.spareTiles ∧
    (s.satHf b f v).spareTook = s.spareTook ∧ (s.satHf b f v).markCols = s.markCols ∧
    (s.satHf b f v).spentCols = s.spentCols ∧ (s.satHf b f v).admCount = s.admCount ∧
    (s.satHf b f v).queues = s.queues ∧ (s.satHf b f v).colls = s.colls ∧ (s.satHf b f v).posted = s.posted ∧
    (s.satHf b f v).windows = s.windows ∧ (s.satHf b f v).granules = s.granules ∧ (s.satHf b f v).parts = s.parts ∧
    (s.satHf b f v).ctxs = s.ctxs ∧ (s.satHf b f v).captures = s.captures ∧ (s.satHf b f v).engReset = s.engReset ∧
    (s.satHf b f v).changes = s.changes ∧ (s.satHf b f v).map = s.map ∧ (s.satHf b f v).saved = s.saved ∧
    (s.satHf b f v).trace = s.trace ∧ (s.satHf b f v).dropped = s.dropped ∧ (s.satHf b f v).tap = s.tap ∧
    (s.satHf b f v).module = s.module ∧ (s.satHf b f v).stretch = s.stretch ∧
    (s.satHf b f v).stretchAt = s.stretchAt ∧ (s.satHf b f v).reply = s.reply ∧
    (s.satHf b f v).dbgEvents = s.dbgEvents ∧ (s.satHf b f v).svn = s.svn :=
  ⟨rfl, rfl, rfl, rfl, rfl, rfl, rfl, rfl, rfl, rfl, rfl, rfl, rfl, rfl, rfl, rfl, rfl, rfl, rfl, rfl, rfl, rfl, rfl,
    rfl, rfl, rfl, rfl, rfl, rfl, rfl, rfl, rfl, rfl, rfl, rfl, rfl, rfl, rfl, rfl, rfl, rfl, rfl, rfl, rfl, rfl,
    rfl, rfl, rfl⟩

@[simp] theorem State.setEf_rest (s : State) (f : Fld) (v : Nat) :
    (s.setEf f v).pending = s.pending ∧ (s.setEf f v).free = s.free ∧ (s.setEf f v).owl = s.owl ∧
    (s.setEf f v).prior = s.prior ∧ (s.setEf f v).rejNow = s.rejNow ∧ (s.setEf f v).tiles = s.tiles ∧
    (s.setEf f v).mem = s.mem ∧ (s.setEf f v).memUE = s.memUE ∧ (s.setEf f v).memPoison = s.memPoison ∧
    (s.setEf f v).homes = s.homes ∧ (s.setEf f v).blocks = s.blocks ∧ (s.setEf f v).host = s.host ∧
    (s.setEf f v).linkUp = s.linkUp ∧ (s.setEf f v).vfs = s.vfs ∧ (s.setEf f v).master = s.master ∧
    (s.setEf f v).d3 = s.d3 ∧ (s.setEf f v).msix = s.msix ∧ (s.setEf f v).links = s.links ∧
    (s.setEf f v).flows = s.flows ∧ (s.setEf f v).tables = s.tables ∧ (s.setEf f v).shares = s.shares ∧
    (s.setEf f v).spareBlocks = s.spareBlocks ∧ (s.setEf f v).spareTiles = s.spareTiles ∧
    (s.setEf f v).spareTook = s.spareTook ∧ (s.setEf f v).markCols = s.markCols ∧
    (s.setEf f v).spentCols = s.spentCols ∧ (s.setEf f v).admCount = s.admCount ∧ (s.setEf f v).queues = s.queues ∧
    (s.setEf f v).colls = s.colls ∧ (s.setEf f v).posted = s.posted ∧ (s.setEf f v).windows = s.windows ∧
    (s.setEf f v).granules = s.granules ∧ (s.setEf f v).parts = s.parts ∧ (s.setEf f v).ctxs = s.ctxs ∧
    (s.setEf f v).captures = s.captures ∧ (s.setEf f v).engReset = s.engReset ∧ (s.setEf f v).changes = s.changes ∧
    (s.setEf f v).map = s.map ∧ (s.setEf f v).saved = s.saved ∧ (s.setEf f v).trace = s.trace ∧
    (s.setEf f v).dropped = s.dropped ∧ (s.setEf f v).tap = s.tap ∧ (s.setEf f v).module = s.module ∧
    (s.setEf f v).stretch = s.stretch ∧ (s.setEf f v).stretchAt = s.stretchAt ∧ (s.setEf f v).reply = s.reply ∧
    (s.setEf f v).dbgEvents = s.dbgEvents ∧ (s.setEf f v).svn = s.svn :=
  ⟨rfl, rfl, rfl, rfl, rfl, rfl, rfl, rfl, rfl, rfl, rfl, rfl, rfl, rfl, rfl, rfl, rfl, rfl, rfl, rfl, rfl, rfl, rfl,
    rfl, rfl, rfl, rfl, rfl, rfl, rfl, rfl, rfl, rfl, rfl, rfl, rfl, rfl, rfl, rfl, rfl, rfl, rfl, rfl, rfl, rfl,
    rfl, rfl, rfl⟩

@[simp] theorem State.setPf_rest (s : State) (p : Nat) (f : Fld) (v : Nat) :
    (s.setPf p f v).pending = s.pending ∧ (s.setPf p f v).free = s.free ∧ (s.setPf p f v).owl = s.owl ∧
    (s.setPf p f v).prior = s.prior ∧ (s.setPf p f v).rejNow = s.rejNow ∧ (s.setPf p f v).tiles = s.tiles ∧
    (s.setPf p f v).mem = s.mem ∧ (s.setPf p f v).memUE = s.memUE ∧ (s.setPf p f v).memPoison = s.memPoison ∧
    (s.setPf p f v).homes = s.homes ∧ (s.setPf p f v).blocks = s.blocks ∧ (s.setPf p f v).host = s.host ∧
    (s.setPf p f v).linkUp = s.linkUp ∧ (s.setPf p f v).vfs = s.vfs ∧ (s.setPf p f v).master = s.master ∧
    (s.setPf p f v).d3 = s.d3 ∧ (s.setPf p f v).msix = s.msix ∧ (s.setPf p f v).links = s.links ∧
    (s.setPf p f v).flows = s.flows ∧ (s.setPf p f v).tables = s.tables ∧ (s.setPf p f v).shares = s.shares ∧
    (s.setPf p f v).spareBlocks = s.spareBlocks ∧ (s.setPf p f v).spareTiles = s.spareTiles ∧
    (s.setPf p f v).spareTook = s.spareTook ∧ (s.setPf p f v).markCols = s.markCols ∧
    (s.setPf p f v).spentCols = s.spentCols ∧ (s.setPf p f v).admCount = s.admCount ∧
    (s.setPf p f v).queues = s.queues ∧ (s.setPf p f v).colls = s.colls ∧ (s.setPf p f v).posted = s.posted ∧
    (s.setPf p f v).windows = s.windows ∧ (s.setPf p f v).granules = s.granules ∧ (s.setPf p f v).parts = s.parts ∧
    (s.setPf p f v).ctxs = s.ctxs ∧ (s.setPf p f v).captures = s.captures ∧ (s.setPf p f v).engReset = s.engReset ∧
    (s.setPf p f v).changes = s.changes ∧ (s.setPf p f v).map = s.map ∧ (s.setPf p f v).saved = s.saved ∧
    (s.setPf p f v).trace = s.trace ∧ (s.setPf p f v).dropped = s.dropped ∧ (s.setPf p f v).tap = s.tap ∧
    (s.setPf p f v).module = s.module ∧ (s.setPf p f v).stretch = s.stretch ∧
    (s.setPf p f v).stretchAt = s.stretchAt ∧ (s.setPf p f v).reply = s.reply ∧
    (s.setPf p f v).dbgEvents = s.dbgEvents ∧ (s.setPf p f v).svn = s.svn :=
  ⟨rfl, rfl, rfl, rfl, rfl, rfl, rfl, rfl, rfl, rfl, rfl, rfl, rfl, rfl, rfl, rfl, rfl, rfl, rfl, rfl, rfl, rfl, rfl,
    rfl, rfl, rfl, rfl, rfl, rfl, rfl, rfl, rfl, rfl, rfl, rfl, rfl, rfl, rfl, rfl, rfl, rfl, rfl, rfl, rfl, rfl,
    rfl, rfl, rfl⟩

@[simp] theorem State.setCf_rest (s : State) (c : Nat) (f : Fld) (v : Nat) :
    (s.setCf c f v).pending = s.pending ∧ (s.setCf c f v).free = s.free ∧ (s.setCf c f v).owl = s.owl ∧
    (s.setCf c f v).prior = s.prior ∧ (s.setCf c f v).rejNow = s.rejNow ∧ (s.setCf c f v).tiles = s.tiles ∧
    (s.setCf c f v).mem = s.mem ∧ (s.setCf c f v).memUE = s.memUE ∧ (s.setCf c f v).memPoison = s.memPoison ∧
    (s.setCf c f v).homes = s.homes ∧ (s.setCf c f v).blocks = s.blocks ∧ (s.setCf c f v).host = s.host ∧
    (s.setCf c f v).linkUp = s.linkUp ∧ (s.setCf c f v).vfs = s.vfs ∧ (s.setCf c f v).master = s.master ∧
    (s.setCf c f v).d3 = s.d3 ∧ (s.setCf c f v).msix = s.msix ∧ (s.setCf c f v).links = s.links ∧
    (s.setCf c f v).flows = s.flows ∧ (s.setCf c f v).tables = s.tables ∧ (s.setCf c f v).shares = s.shares ∧
    (s.setCf c f v).spareBlocks = s.spareBlocks ∧ (s.setCf c f v).spareTiles = s.spareTiles ∧
    (s.setCf c f v).spareTook = s.spareTook ∧ (s.setCf c f v).markCols = s.markCols ∧
    (s.setCf c f v).spentCols = s.spentCols ∧ (s.setCf c f v).admCount = s.admCount ∧
    (s.setCf c f v).queues = s.queues ∧ (s.setCf c f v).colls = s.colls ∧ (s.setCf c f v).posted = s.posted ∧
    (s.setCf c f v).windows = s.windows ∧ (s.setCf c f v).granules = s.granules ∧ (s.setCf c f v).parts = s.parts ∧
    (s.setCf c f v).ctxs = s.ctxs ∧ (s.setCf c f v).captures = s.captures ∧ (s.setCf c f v).engReset = s.engReset ∧
    (s.setCf c f v).changes = s.changes ∧ (s.setCf c f v).map = s.map ∧ (s.setCf c f v).saved = s.saved ∧
    (s.setCf c f v).trace = s.trace ∧ (s.setCf c f v).dropped = s.dropped ∧ (s.setCf c f v).tap = s.tap ∧
    (s.setCf c f v).module = s.module ∧ (s.setCf c f v).stretch = s.stretch ∧
    (s.setCf c f v).stretchAt = s.stretchAt ∧ (s.setCf c f v).reply = s.reply ∧
    (s.setCf c f v).dbgEvents = s.dbgEvents ∧ (s.setCf c f v).svn = s.svn :=
  ⟨rfl, rfl, rfl, rfl, rfl, rfl, rfl, rfl, rfl, rfl, rfl, rfl, rfl, rfl, rfl, rfl, rfl, rfl, rfl, rfl, rfl, rfl, rfl,
    rfl, rfl, rfl, rfl, rfl, rfl, rfl, rfl, rfl, rfl, rfl, rfl, rfl, rfl, rfl, rfl, rfl, rfl, rfl, rfl, rfl, rfl,
    rfl, rfl, rfl⟩

@[simp] theorem State.onPart_rest (s : State) (p : Nat) (f : PartSt → PartSt) :
    (s.onPart p f).pending = s.pending ∧ (s.onPart p f).free = s.free ∧ (s.onPart p f).owl = s.owl ∧
    (s.onPart p f).regs = s.regs ∧ (s.onPart p f).prior = s.prior ∧ (s.onPart p f).rejNow = s.rejNow ∧
    (s.onPart p f).tiles = s.tiles ∧ (s.onPart p f).mem = s.mem ∧ (s.onPart p f).memUE = s.memUE ∧
    (s.onPart p f).memPoison = s.memPoison ∧ (s.onPart p f).homes = s.homes ∧ (s.onPart p f).blocks = s.blocks ∧
    (s.onPart p f).host = s.host ∧ (s.onPart p f).linkUp = s.linkUp ∧ (s.onPart p f).vfs = s.vfs ∧
    (s.onPart p f).master = s.master ∧ (s.onPart p f).d3 = s.d3 ∧ (s.onPart p f).msix = s.msix ∧
    (s.onPart p f).links = s.links ∧ (s.onPart p f).flows = s.flows ∧ (s.onPart p f).tables = s.tables ∧
    (s.onPart p f).shares = s.shares ∧ (s.onPart p f).spareBlocks = s.spareBlocks ∧
    (s.onPart p f).spareTiles = s.spareTiles ∧ (s.onPart p f).spareTook = s.spareTook ∧
    (s.onPart p f).markCols = s.markCols ∧ (s.onPart p f).spentCols = s.spentCols ∧
    (s.onPart p f).admCount = s.admCount ∧ (s.onPart p f).queues = s.queues ∧ (s.onPart p f).colls = s.colls ∧
    (s.onPart p f).posted = s.posted ∧ (s.onPart p f).windows = s.windows ∧ (s.onPart p f).granules = s.granules ∧
    (s.onPart p f).ctxs = s.ctxs ∧ (s.onPart p f).captures = s.captures ∧ (s.onPart p f).engReset = s.engReset ∧
    (s.onPart p f).changes = s.changes ∧ (s.onPart p f).map = s.map ∧ (s.onPart p f).saved = s.saved ∧
    (s.onPart p f).trace = s.trace ∧ (s.onPart p f).dropped = s.dropped ∧ (s.onPart p f).tap = s.tap ∧
    (s.onPart p f).module = s.module ∧ (s.onPart p f).stretch = s.stretch ∧ (s.onPart p f).stretchAt = s.stretchAt ∧
    (s.onPart p f).reply = s.reply ∧ (s.onPart p f).dbgEvents = s.dbgEvents ∧ (s.onPart p f).svn = s.svn :=
  ⟨rfl, rfl, rfl, rfl, rfl, rfl, rfl, rfl, rfl, rfl, rfl, rfl, rfl, rfl, rfl, rfl, rfl, rfl, rfl, rfl, rfl, rfl, rfl,
    rfl, rfl, rfl, rfl, rfl, rfl, rfl, rfl, rfl, rfl, rfl, rfl, rfl, rfl, rfl, rfl, rfl, rfl, rfl, rfl, rfl, rfl,
    rfl, rfl, rfl⟩

@[simp] theorem State.onBlock_rest (s : State) (b : Nat) (f : BlockSt → BlockSt) :
    (s.onBlock b f).pending = s.pending ∧ (s.onBlock b f).free = s.free ∧ (s.onBlock b f).owl = s.owl ∧
    (s.onBlock b f).regs = s.regs ∧ (s.onBlock b f).prior = s.prior ∧ (s.onBlock b f).rejNow = s.rejNow ∧
    (s.onBlock b f).tiles = s.tiles ∧ (s.onBlock b f).mem = s.mem ∧ (s.onBlock b f).memUE = s.memUE ∧
    (s.onBlock b f).memPoison = s.memPoison ∧ (s.onBlock b f).homes = s.homes ∧ (s.onBlock b f).host = s.host ∧
    (s.onBlock b f).linkUp = s.linkUp ∧ (s.onBlock b f).vfs = s.vfs ∧ (s.onBlock b f).master = s.master ∧
    (s.onBlock b f).d3 = s.d3 ∧ (s.onBlock b f).msix = s.msix ∧ (s.onBlock b f).links = s.links ∧
    (s.onBlock b f).flows = s.flows ∧ (s.onBlock b f).tables = s.tables ∧ (s.onBlock b f).shares = s.shares ∧
    (s.onBlock b f).spareBlocks = s.spareBlocks ∧ (s.onBlock b f).spareTiles = s.spareTiles ∧
    (s.onBlock b f).spareTook = s.spareTook ∧ (s.onBlock b f).markCols = s.markCols ∧
    (s.onBlock b f).spentCols = s.spentCols ∧ (s.onBlock b f).admCount = s.admCount ∧
    (s.onBlock b f).queues = s.queues ∧ (s.onBlock b f).colls = s.colls ∧ (s.onBlock b f).posted = s.posted ∧
    (s.onBlock b f).windows = s.windows ∧ (s.onBlock b f).granules = s.granules ∧ (s.onBlock b f).parts = s.parts ∧
    (s.onBlock b f).ctxs = s.ctxs ∧ (s.onBlock b f).captures = s.captures ∧ (s.onBlock b f).engReset = s.engReset ∧
    (s.onBlock b f).changes = s.changes ∧ (s.onBlock b f).map = s.map ∧ (s.onBlock b f).saved = s.saved ∧
    (s.onBlock b f).trace = s.trace ∧ (s.onBlock b f).dropped = s.dropped ∧ (s.onBlock b f).tap = s.tap ∧
    (s.onBlock b f).module = s.module ∧ (s.onBlock b f).stretch = s.stretch ∧
    (s.onBlock b f).stretchAt = s.stretchAt ∧ (s.onBlock b f).reply = s.reply ∧
    (s.onBlock b f).dbgEvents = s.dbgEvents ∧ (s.onBlock b f).svn = s.svn :=
  ⟨rfl, rfl, rfl, rfl, rfl, rfl, rfl, rfl, rfl, rfl, rfl, rfl, rfl, rfl, rfl, rfl, rfl, rfl, rfl, rfl, rfl, rfl, rfl,
    rfl, rfl, rfl, rfl, rfl, rfl, rfl, rfl, rfl, rfl, rfl, rfl, rfl, rfl, rfl, rfl, rfl, rfl, rfl, rfl, rfl, rfl,
    rfl, rfl, rfl⟩

@[simp] theorem State.onLink_rest (s : State) (l : Nat) (f : LinkSt → LinkSt) :
    (s.onLink l f).pending = s.pending ∧ (s.onLink l f).free = s.free ∧ (s.onLink l f).owl = s.owl ∧
    (s.onLink l f).regs = s.regs ∧ (s.onLink l f).prior = s.prior ∧ (s.onLink l f).rejNow = s.rejNow ∧
    (s.onLink l f).tiles = s.tiles ∧ (s.onLink l f).mem = s.mem ∧ (s.onLink l f).memUE = s.memUE ∧
    (s.onLink l f).memPoison = s.memPoison ∧ (s.onLink l f).homes = s.homes ∧ (s.onLink l f).blocks = s.blocks ∧
    (s.onLink l f).host = s.host ∧ (s.onLink l f).linkUp = s.linkUp ∧ (s.onLink l f).vfs = s.vfs ∧
    (s.onLink l f).master = s.master ∧ (s.onLink l f).d3 = s.d3 ∧ (s.onLink l f).msix = s.msix ∧
    (s.onLink l f).flows = s.flows ∧ (s.onLink l f).tables = s.tables ∧ (s.onLink l f).shares = s.shares ∧
    (s.onLink l f).spareBlocks = s.spareBlocks ∧ (s.onLink l f).spareTiles = s.spareTiles ∧
    (s.onLink l f).spareTook = s.spareTook ∧ (s.onLink l f).markCols = s.markCols ∧
    (s.onLink l f).spentCols = s.spentCols ∧ (s.onLink l f).admCount = s.admCount ∧ (s.onLink l f).queues = s.queues ∧
    (s.onLink l f).colls = s.colls ∧ (s.onLink l f).posted = s.posted ∧ (s.onLink l f).windows = s.windows ∧
    (s.onLink l f).granules = s.granules ∧ (s.onLink l f).parts = s.parts ∧ (s.onLink l f).ctxs = s.ctxs ∧
    (s.onLink l f).captures = s.captures ∧ (s.onLink l f).engReset = s.engReset ∧ (s.onLink l f).changes = s.changes ∧
    (s.onLink l f).map = s.map ∧ (s.onLink l f).saved = s.saved ∧ (s.onLink l f).trace = s.trace ∧
    (s.onLink l f).dropped = s.dropped ∧ (s.onLink l f).tap = s.tap ∧ (s.onLink l f).module = s.module ∧
    (s.onLink l f).stretch = s.stretch ∧ (s.onLink l f).stretchAt = s.stretchAt ∧ (s.onLink l f).reply = s.reply ∧
    (s.onLink l f).dbgEvents = s.dbgEvents ∧ (s.onLink l f).svn = s.svn :=
  ⟨rfl, rfl, rfl, rfl, rfl, rfl, rfl, rfl, rfl, rfl, rfl, rfl, rfl, rfl, rfl, rfl, rfl, rfl, rfl, rfl, rfl, rfl, rfl,
    rfl, rfl, rfl, rfl, rfl, rfl, rfl, rfl, rfl, rfl, rfl, rfl, rfl, rfl, rfl, rfl, rfl, rfl, rfl, rfl, rfl, rfl,
    rfl, rfl, rfl⟩

@[simp] theorem State.onFlow_rest (s : State) (k : Nat) (f : FlowSt → FlowSt) :
    (s.onFlow k f).pending = s.pending ∧ (s.onFlow k f).free = s.free ∧ (s.onFlow k f).owl = s.owl ∧
    (s.onFlow k f).regs = s.regs ∧ (s.onFlow k f).prior = s.prior ∧ (s.onFlow k f).rejNow = s.rejNow ∧
    (s.onFlow k f).tiles = s.tiles ∧ (s.onFlow k f).mem = s.mem ∧ (s.onFlow k f).memUE = s.memUE ∧
    (s.onFlow k f).memPoison = s.memPoison ∧ (s.onFlow k f).homes = s.homes ∧ (s.onFlow k f).blocks = s.blocks ∧
    (s.onFlow k f).host = s.host ∧ (s.onFlow k f).linkUp = s.linkUp ∧ (s.onFlow k f).vfs = s.vfs ∧
    (s.onFlow k f).master = s.master ∧ (s.onFlow k f).d3 = s.d3 ∧ (s.onFlow k f).msix = s.msix ∧
    (s.onFlow k f).links = s.links ∧ (s.onFlow k f).tables = s.tables ∧ (s.onFlow k f).shares = s.shares ∧
    (s.onFlow k f).spareBlocks = s.spareBlocks ∧ (s.onFlow k f).spareTiles = s.spareTiles ∧
    (s.onFlow k f).spareTook = s.spareTook ∧ (s.onFlow k f).markCols = s.markCols ∧
    (s.onFlow k f).spentCols = s.spentCols ∧ (s.onFlow k f).admCount = s.admCount ∧ (s.onFlow k f).queues = s.queues ∧
    (s.onFlow k f).colls = s.colls ∧ (s.onFlow k f).posted = s.posted ∧ (s.onFlow k f).windows = s.windows ∧
    (s.onFlow k f).granules = s.granules ∧ (s.onFlow k f).parts = s.parts ∧ (s.onFlow k f).ctxs = s.ctxs ∧
    (s.onFlow k f).captures = s.captures ∧ (s.onFlow k f).engReset = s.engReset ∧ (s.onFlow k f).changes = s.changes ∧
    (s.onFlow k f).map = s.map ∧ (s.onFlow k f).saved = s.saved ∧ (s.onFlow k f).trace = s.trace ∧
    (s.onFlow k f).dropped = s.dropped ∧ (s.onFlow k f).tap = s.tap ∧ (s.onFlow k f).module = s.module ∧
    (s.onFlow k f).stretch = s.stretch ∧ (s.onFlow k f).stretchAt = s.stretchAt ∧ (s.onFlow k f).reply = s.reply ∧
    (s.onFlow k f).dbgEvents = s.dbgEvents ∧ (s.onFlow k f).svn = s.svn :=
  ⟨rfl, rfl, rfl, rfl, rfl, rfl, rfl, rfl, rfl, rfl, rfl, rfl, rfl, rfl, rfl, rfl, rfl, rfl, rfl, rfl, rfl, rfl, rfl,
    rfl, rfl, rfl, rfl, rfl, rfl, rfl, rfl, rfl, rfl, rfl, rfl, rfl, rfl, rfl, rfl, rfl, rfl, rfl, rfl, rfl, rfl,
    rfl, rfl, rfl⟩

@[simp] theorem State.onQueue_rest (s : State) (c q : Nat) (f : HostQ → HostQ) :
    (s.onQueue c q f).pending = s.pending ∧ (s.onQueue c q f).free = s.free ∧ (s.onQueue c q f).owl = s.owl ∧
    (s.onQueue c q f).regs = s.regs ∧ (s.onQueue c q f).prior = s.prior ∧ (s.onQueue c q f).rejNow = s.rejNow ∧
    (s.onQueue c q f).tiles = s.tiles ∧ (s.onQueue c q f).mem = s.mem ∧ (s.onQueue c q f).memUE = s.memUE ∧
    (s.onQueue c q f).memPoison = s.memPoison ∧ (s.onQueue c q f).homes = s.homes ∧
    (s.onQueue c q f).blocks = s.blocks ∧ (s.onQueue c q f).host = s.host ∧ (s.onQueue c q f).linkUp = s.linkUp ∧
    (s.onQueue c q f).vfs = s.vfs ∧ (s.onQueue c q f).master = s.master ∧ (s.onQueue c q f).d3 = s.d3 ∧
    (s.onQueue c q f).msix = s.msix ∧ (s.onQueue c q f).links = s.links ∧ (s.onQueue c q f).flows = s.flows ∧
    (s.onQueue c q f).tables = s.tables ∧ (s.onQueue c q f).shares = s.shares ∧
    (s.onQueue c q f).spareBlocks = s.spareBlocks ∧ (s.onQueue c q f).spareTiles = s.spareTiles ∧
    (s.onQueue c q f).spareTook = s.spareTook ∧ (s.onQueue c q f).markCols = s.markCols ∧
    (s.onQueue c q f).spentCols = s.spentCols ∧ (s.onQueue c q f).admCount = s.admCount ∧
    (s.onQueue c q f).colls = s.colls ∧ (s.onQueue c q f).posted = s.posted ∧ (s.onQueue c q f).windows = s.windows ∧
    (s.onQueue c q f).granules = s.granules ∧ (s.onQueue c q f).parts = s.parts ∧ (s.onQueue c q f).ctxs = s.ctxs ∧
    (s.onQueue c q f).captures = s.captures ∧ (s.onQueue c q f).engReset = s.engReset ∧
    (s.onQueue c q f).changes = s.changes ∧ (s.onQueue c q f).map = s.map ∧ (s.onQueue c q f).saved = s.saved ∧
    (s.onQueue c q f).trace = s.trace ∧ (s.onQueue c q f).dropped = s.dropped ∧ (s.onQueue c q f).tap = s.tap ∧
    (s.onQueue c q f).module = s.module ∧ (s.onQueue c q f).stretch = s.stretch ∧
    (s.onQueue c q f).stretchAt = s.stretchAt ∧ (s.onQueue c q f).reply = s.reply ∧
    (s.onQueue c q f).dbgEvents = s.dbgEvents ∧ (s.onQueue c q f).svn = s.svn :=
  ⟨rfl, rfl, rfl, rfl, rfl, rfl, rfl, rfl, rfl, rfl, rfl, rfl, rfl, rfl, rfl, rfl, rfl, rfl, rfl, rfl, rfl, rfl, rfl,
    rfl, rfl, rfl, rfl, rfl, rfl, rfl, rfl, rfl, rfl, rfl, rfl, rfl, rfl, rfl, rfl, rfl, rfl, rfl, rfl, rfl, rfl,
    rfl, rfl, rfl⟩

@[simp] theorem State.onCtx_rest (s : State) (c : Nat) (f : CtxSt → CtxSt) :
    (s.onCtx c f).pending = s.pending ∧ (s.onCtx c f).free = s.free ∧ (s.onCtx c f).owl = s.owl ∧
    (s.onCtx c f).regs = s.regs ∧ (s.onCtx c f).prior = s.prior ∧ (s.onCtx c f).rejNow = s.rejNow ∧
    (s.onCtx c f).tiles = s.tiles ∧ (s.onCtx c f).mem = s.mem ∧ (s.onCtx c f).memUE = s.memUE ∧
    (s.onCtx c f).memPoison = s.memPoison ∧ (s.onCtx c f).homes = s.homes ∧ (s.onCtx c f).blocks = s.blocks ∧
    (s.onCtx c f).host = s.host ∧ (s.onCtx c f).linkUp = s.linkUp ∧ (s.onCtx c f).vfs = s.vfs ∧
    (s.onCtx c f).master = s.master ∧ (s.onCtx c f).d3 = s.d3 ∧ (s.onCtx c f).msix = s.msix ∧
    (s.onCtx c f).links = s.links ∧ (s.onCtx c f).flows = s.flows ∧ (s.onCtx c f).tables = s.tables ∧
    (s.onCtx c f).shares = s.shares ∧ (s.onCtx c f).spareBlocks = s.spareBlocks ∧
    (s.onCtx c f).spareTiles = s.spareTiles ∧ (s.onCtx c f).spareTook = s.spareTook ∧
    (s.onCtx c f).markCols = s.markCols ∧ (s.onCtx c f).spentCols = s.spentCols ∧
    (s.onCtx c f).admCount = s.admCount ∧ (s.onCtx c f).queues = s.queues ∧ (s.onCtx c f).colls = s.colls ∧
    (s.onCtx c f).posted = s.posted ∧ (s.onCtx c f).windows = s.windows ∧ (s.onCtx c f).granules = s.granules ∧
    (s.onCtx c f).parts = s.parts ∧ (s.onCtx c f).captures = s.captures ∧ (s.onCtx c f).engReset = s.engReset ∧
    (s.onCtx c f).changes = s.changes ∧ (s.onCtx c f).map = s.map ∧ (s.onCtx c f).saved = s.saved ∧
    (s.onCtx c f).trace = s.trace ∧ (s.onCtx c f).dropped = s.dropped ∧ (s.onCtx c f).tap = s.tap ∧
    (s.onCtx c f).module = s.module ∧ (s.onCtx c f).stretch = s.stretch ∧ (s.onCtx c f).stretchAt = s.stretchAt ∧
    (s.onCtx c f).reply = s.reply ∧ (s.onCtx c f).dbgEvents = s.dbgEvents ∧ (s.onCtx c f).svn = s.svn :=
  ⟨rfl, rfl, rfl, rfl, rfl, rfl, rfl, rfl, rfl, rfl, rfl, rfl, rfl, rfl, rfl, rfl, rfl, rfl, rfl, rfl, rfl, rfl, rfl,
    rfl, rfl, rfl, rfl, rfl, rfl, rfl, rfl, rfl, rfl, rfl, rfl, rfl, rfl, rfl, rfl, rfl, rfl, rfl, rfl, rfl, rfl,
    rfl, rfl, rfl⟩

@[simp] theorem State.vector_rest (s : State) (f v : Nat) :
    (s.vector f v).pending = s.pending ∧ (s.vector f v).free = s.free ∧ (s.vector f v).owl = s.owl ∧
    (s.vector f v).regs = s.regs ∧ (s.vector f v).prior = s.prior ∧ (s.vector f v).rejNow = s.rejNow ∧
    (s.vector f v).tiles = s.tiles ∧ (s.vector f v).mem = s.mem ∧ (s.vector f v).memUE = s.memUE ∧
    (s.vector f v).memPoison = s.memPoison ∧ (s.vector f v).homes = s.homes ∧ (s.vector f v).blocks = s.blocks ∧
    (s.vector f v).host = s.host ∧ (s.vector f v).linkUp = s.linkUp ∧ (s.vector f v).vfs = s.vfs ∧
    (s.vector f v).master = s.master ∧ (s.vector f v).d3 = s.d3 ∧ (s.vector f v).links = s.links ∧
    (s.vector f v).flows = s.flows ∧ (s.vector f v).tables = s.tables ∧ (s.vector f v).shares = s.shares ∧
    (s.vector f v).spareBlocks = s.spareBlocks ∧ (s.vector f v).spareTiles = s.spareTiles ∧
    (s.vector f v).spareTook = s.spareTook ∧ (s.vector f v).markCols = s.markCols ∧
    (s.vector f v).spentCols = s.spentCols ∧ (s.vector f v).admCount = s.admCount ∧ (s.vector f v).queues = s.queues ∧
    (s.vector f v).colls = s.colls ∧ (s.vector f v).posted = s.posted ∧ (s.vector f v).windows = s.windows ∧
    (s.vector f v).granules = s.granules ∧ (s.vector f v).parts = s.parts ∧ (s.vector f v).ctxs = s.ctxs ∧
    (s.vector f v).captures = s.captures ∧ (s.vector f v).engReset = s.engReset ∧ (s.vector f v).changes = s.changes ∧
    (s.vector f v).map = s.map ∧ (s.vector f v).saved = s.saved ∧ (s.vector f v).trace = s.trace ∧
    (s.vector f v).dropped = s.dropped ∧ (s.vector f v).tap = s.tap ∧ (s.vector f v).module = s.module ∧
    (s.vector f v).stretch = s.stretch ∧ (s.vector f v).stretchAt = s.stretchAt ∧ (s.vector f v).reply = s.reply ∧
    (s.vector f v).dbgEvents = s.dbgEvents ∧ (s.vector f v).svn = s.svn :=
  ⟨rfl, rfl, rfl, rfl, rfl, rfl, rfl, rfl, rfl, rfl, rfl, rfl, rfl, rfl, rfl, rfl, rfl, rfl, rfl, rfl, rfl, rfl, rfl,
    rfl, rfl, rfl, rfl, rfl, rfl, rfl, rfl, rfl, rfl, rfl, rfl, rfl, rfl, rfl, rfl, rfl, rfl, rfl, rfl, rfl, rfl,
    rfl, rfl, rfl⟩

@[simp] theorem State.hostWrite_rest (s : State) (a n v : Nat) :
    (s.hostWrite a n v).pending = s.pending ∧ (s.hostWrite a n v).free = s.free ∧ (s.hostWrite a n v).owl = s.owl ∧
    (s.hostWrite a n v).regs = s.regs ∧ (s.hostWrite a n v).prior = s.prior ∧ (s.hostWrite a n v).rejNow = s.rejNow ∧
    (s.hostWrite a n v).tiles = s.tiles ∧ (s.hostWrite a n v).mem = s.mem ∧ (s.hostWrite a n v).memUE = s.memUE ∧
    (s.hostWrite a n v).memPoison = s.memPoison ∧ (s.hostWrite a n v).homes = s.homes ∧
    (s.hostWrite a n v).blocks = s.blocks ∧ (s.hostWrite a n v).linkUp = s.linkUp ∧ (s.hostWrite a n v).vfs = s.vfs ∧
    (s.hostWrite a n v).master = s.master ∧ (s.hostWrite a n v).d3 = s.d3 ∧ (s.hostWrite a n v).msix = s.msix ∧
    (s.hostWrite a n v).links = s.links ∧ (s.hostWrite a n v).flows = s.flows ∧
    (s.hostWrite a n v).tables = s.tables ∧ (s.hostWrite a n v).shares = s.shares ∧
    (s.hostWrite a n v).spareBlocks = s.spareBlocks ∧ (s.hostWrite a n v).spareTiles = s.spareTiles ∧
    (s.hostWrite a n v).spareTook = s.spareTook ∧ (s.hostWrite a n v).markCols = s.markCols ∧
    (s.hostWrite a n v).spentCols = s.spentCols ∧ (s.hostWrite a n v).admCount = s.admCount ∧
    (s.hostWrite a n v).queues = s.queues ∧ (s.hostWrite a n v).colls = s.colls ∧
    (s.hostWrite a n v).posted = s.posted ∧ (s.hostWrite a n v).windows = s.windows ∧
    (s.hostWrite a n v).granules = s.granules ∧ (s.hostWrite a n v).parts = s.parts ∧
    (s.hostWrite a n v).ctxs = s.ctxs ∧ (s.hostWrite a n v).captures = s.captures ∧
    (s.hostWrite a n v).engReset = s.engReset ∧ (s.hostWrite a n v).changes = s.changes ∧
    (s.hostWrite a n v).map = s.map ∧ (s.hostWrite a n v).saved = s.saved ∧ (s.hostWrite a n v).trace = s.trace ∧
    (s.hostWrite a n v).dropped = s.dropped ∧ (s.hostWrite a n v).tap = s.tap ∧
    (s.hostWrite a n v).module = s.module ∧ (s.hostWrite a n v).stretch = s.stretch ∧
    (s.hostWrite a n v).stretchAt = s.stretchAt ∧ (s.hostWrite a n v).reply = s.reply ∧
    (s.hostWrite a n v).dbgEvents = s.dbgEvents ∧ (s.hostWrite a n v).svn = s.svn :=
  ⟨rfl, rfl, rfl, rfl, rfl, rfl, rfl, rfl, rfl, rfl, rfl, rfl, rfl, rfl, rfl, rfl, rfl, rfl, rfl, rfl, rfl, rfl, rfl,
    rfl, rfl, rfl, rfl, rfl, rfl, rfl, rfl, rfl, rfl, rfl, rfl, rfl, rfl, rfl, rfl, rfl, rfl, rfl, rfl, rfl, rfl,
    rfl, rfl, rfl⟩

/-! ## Updates of a tile -/

@[simp] theorem Tile.setCtl_rest (T : Tile) (a : Nat) (w : Word) :
    (T.setCtl a w).pc = T.pc ∧ (T.setCtl a w).s = T.s ∧ (T.setCtl a w).v = T.v ∧ (T.setCtl a w).k = T.k ∧
    (T.setCtl a w).d = T.d ∧ (T.setCtl a w).store = T.store ∧ (T.setCtl a w).ue = T.ue ∧
    (T.setCtl a w).barrier = T.barrier ∧ (T.setCtl a w).mq = T.mq ∧ (T.setCtl a w).cq = T.cq ∧
    (T.setCtl a w).xq = T.xq ∧ (T.setCtl a w).ages = T.ages ∧ (T.setCtl a w).sWait = T.sWait ∧
    (T.setCtl a w).resv = T.resv ∧ (T.setCtl a w).homes = T.homes ∧ (T.setCtl a w).power = T.power ∧
    (T.setCtl a w).lacc = T.lacc ∧ (T.setCtl a w).mLast = T.mLast ∧ (T.setCtl a w).mCarry = T.mCarry ∧
    (T.setCtl a w).mDone = T.mDone ∧ (T.setCtl a w).root0 = T.root0 ∧ (T.setCtl a w).root1 = T.root1 ∧
    (T.setCtl a w).cPre = T.cPre ∧ (T.setCtl a w).checkedEpi = T.checkedEpi ∧ (T.setCtl a w).checkedTp = T.checkedTp ∧
    (T.setCtl a w).trapSlot = T.trapSlot ∧ (T.setCtl a w).run = T.run ∧ (T.setCtl a w).marked = T.marked ∧
    (T.setCtl a w).stepping = T.stepping ∧ (T.setCtl a w).sleepFrom = T.sleepFrom ∧
    (T.setCtl a w).clockHold = T.clockHold ∧ (T.setCtl a w).lateAt = T.lateAt ∧ (T.setCtl a w).flagsNow = T.flagsNow ∧
    (T.setCtl a w).rejNow = T.rejNow ∧ (T.setCtl a w).gens = T.gens ∧ (T.setCtl a w).reqs = T.reqs ∧
    (T.setCtl a w).orders = T.orders ∧ (T.setCtl a w).stampAt = T.stampAt ∧ (T.setCtl a w).boundIn = T.boundIn ∧
    (T.setCtl a w).events = T.events ∧ (T.setCtl a w).skid = T.skid ∧ (T.setCtl a w).den = T.den ∧
    (T.setCtl a w).waking = T.waking ∧ (T.setCtl a w).dozing = T.dozing ∧ (T.setCtl a w).padsHeld = T.padsHeld ∧
    (T.setCtl a w).haltReq = T.haltReq ∧ (T.setCtl a w).fresh = T.fresh ∧ (T.setCtl a w).haltFrom = T.haltFrom ∧
    (T.setCtl a w).resets = T.resets ∧ (T.setCtl a w).work = T.work ∧ (T.setCtl a w).ending = T.ending ∧
    (T.setCtl a w).inReset = T.inReset ∧ (T.setCtl a w).out = T.out ∧ (T.setCtl a w).hibHold = T.hibHold ∧
    (T.setCtl a w).resetAt = T.resetAt :=
  ⟨rfl, rfl, rfl, rfl, rfl, rfl, rfl, rfl, rfl, rfl, rfl, rfl, rfl, rfl, rfl, rfl, rfl, rfl, rfl, rfl, rfl, rfl, rfl,
    rfl, rfl, rfl, rfl, rfl, rfl, rfl, rfl, rfl, rfl, rfl, rfl, rfl, rfl, rfl, rfl, rfl, rfl, rfl, rfl, rfl, rfl,
    rfl, rfl, rfl, rfl, rfl, rfl, rfl, rfl, rfl, rfl⟩

@[simp] theorem Tile.setFld_rest (T : Tile) (f : Fld) (v : Nat) :
    (T.setFld f v).pc = T.pc ∧ (T.setFld f v).s = T.s ∧ (T.setFld f v).v = T.v ∧ (T.setFld f v).k = T.k ∧
    (T.setFld f v).d = T.d ∧ (T.setFld f v).store = T.store ∧ (T.setFld f v).ue = T.ue ∧
    (T.setFld f v).barrier = T.barrier ∧ (T.setFld f v).mq = T.mq ∧ (T.setFld f v).cq = T.cq ∧
    (T.setFld f v).xq = T.xq ∧ (T.setFld f v).ages = T.ages ∧ (T.setFld f v).sWait = T.sWait ∧
    (T.setFld f v).resv = T.resv ∧ (T.setFld f v).homes = T.homes ∧ (T.setFld f v).power = T.power ∧
    (T.setFld f v).lacc = T.lacc ∧ (T.setFld f v).mLast = T.mLast ∧ (T.setFld f v).mCarry = T.mCarry ∧
    (T.setFld f v).mDone = T.mDone ∧ (T.setFld f v).root0 = T.root0 ∧ (T.setFld f v).root1 = T.root1 ∧
    (T.setFld f v).cPre = T.cPre ∧ (T.setFld f v).checkedEpi = T.checkedEpi ∧ (T.setFld f v).checkedTp = T.checkedTp ∧
    (T.setFld f v).trapSlot = T.trapSlot ∧ (T.setFld f v).run = T.run ∧ (T.setFld f v).marked = T.marked ∧
    (T.setFld f v).stepping = T.stepping ∧ (T.setFld f v).sleepFrom = T.sleepFrom ∧
    (T.setFld f v).clockHold = T.clockHold ∧ (T.setFld f v).lateAt = T.lateAt ∧ (T.setFld f v).flagsNow = T.flagsNow ∧
    (T.setFld f v).rejNow = T.rejNow ∧ (T.setFld f v).gens = T.gens ∧ (T.setFld f v).reqs = T.reqs ∧
    (T.setFld f v).orders = T.orders ∧ (T.setFld f v).stampAt = T.stampAt ∧ (T.setFld f v).boundIn = T.boundIn ∧
    (T.setFld f v).events = T.events ∧ (T.setFld f v).skid = T.skid ∧ (T.setFld f v).den = T.den ∧
    (T.setFld f v).waking = T.waking ∧ (T.setFld f v).dozing = T.dozing ∧ (T.setFld f v).padsHeld = T.padsHeld ∧
    (T.setFld f v).haltReq = T.haltReq ∧ (T.setFld f v).fresh = T.fresh ∧ (T.setFld f v).haltFrom = T.haltFrom ∧
    (T.setFld f v).resets = T.resets ∧ (T.setFld f v).work = T.work ∧ (T.setFld f v).ending = T.ending ∧
    (T.setFld f v).inReset = T.inReset ∧ (T.setFld f v).out = T.out ∧ (T.setFld f v).hibHold = T.hibHold ∧
    (T.setFld f v).resetAt = T.resetAt :=
  ⟨rfl, rfl, rfl, rfl, rfl, rfl, rfl, rfl, rfl, rfl, rfl, rfl, rfl, rfl, rfl, rfl, rfl, rfl, rfl, rfl, rfl, rfl, rfl,
    rfl, rfl, rfl, rfl, rfl, rfl, rfl, rfl, rfl, rfl, rfl, rfl, rfl, rfl, rfl, rfl, rfl, rfl, rfl, rfl, rfl, rfl,
    rfl, rfl, rfl, rfl, rfl, rfl, rfl, rfl, rfl, rfl⟩

@[simp] theorem Tile.addFld_rest (T : Tile) (f : Fld) (n : Nat) :
    (T.addFld f n).pc = T.pc ∧ (T.addFld f n).s = T.s ∧ (T.addFld f n).v = T.v ∧ (T.addFld f n).k = T.k ∧
    (T.addFld f n).d = T.d ∧ (T.addFld f n).store = T.store ∧ (T.addFld f n).ue = T.ue ∧
    (T.addFld f n).barrier = T.barrier ∧ (T.addFld f n).mq = T.mq ∧ (T.addFld f n).cq = T.cq ∧
    (T.addFld f n).xq = T.xq ∧ (T.addFld f n).ages = T.ages ∧ (T.addFld f n).sWait = T.sWait ∧
    (T.addFld f n).resv = T.resv ∧ (T.addFld f n).homes = T.homes ∧ (T.addFld f n).power = T.power ∧
    (T.addFld f n).lacc = T.lacc ∧ (T.addFld f n).mLast = T.mLast ∧ (T.addFld f n).mCarry = T.mCarry ∧
    (T.addFld f n).mDone = T.mDone ∧ (T.addFld f n).root0 = T.root0 ∧ (T.addFld f n).root1 = T.root1 ∧
    (T.addFld f n).cPre = T.cPre ∧ (T.addFld f n).checkedEpi = T.checkedEpi ∧ (T.addFld f n).checkedTp = T.checkedTp ∧
    (T.addFld f n).trapSlot = T.trapSlot ∧ (T.addFld f n).run = T.run ∧ (T.addFld f n).marked = T.marked ∧
    (T.addFld f n).stepping = T.stepping ∧ (T.addFld f n).sleepFrom = T.sleepFrom ∧
    (T.addFld f n).clockHold = T.clockHold ∧ (T.addFld f n).lateAt = T.lateAt ∧ (T.addFld f n).flagsNow = T.flagsNow ∧
    (T.addFld f n).rejNow = T.rejNow ∧ (T.addFld f n).gens = T.gens ∧ (T.addFld f n).reqs = T.reqs ∧
    (T.addFld f n).orders = T.orders ∧ (T.addFld f n).stampAt = T.stampAt ∧ (T.addFld f n).boundIn = T.boundIn ∧
    (T.addFld f n).events = T.events ∧ (T.addFld f n).skid = T.skid ∧ (T.addFld f n).den = T.den ∧
    (T.addFld f n).waking = T.waking ∧ (T.addFld f n).dozing = T.dozing ∧ (T.addFld f n).padsHeld = T.padsHeld ∧
    (T.addFld f n).haltReq = T.haltReq ∧ (T.addFld f n).fresh = T.fresh ∧ (T.addFld f n).haltFrom = T.haltFrom ∧
    (T.addFld f n).resets = T.resets ∧ (T.addFld f n).work = T.work ∧ (T.addFld f n).ending = T.ending ∧
    (T.addFld f n).inReset = T.inReset ∧ (T.addFld f n).out = T.out ∧ (T.addFld f n).hibHold = T.hibHold ∧
    (T.addFld f n).resetAt = T.resetAt :=
  ⟨rfl, rfl, rfl, rfl, rfl, rfl, rfl, rfl, rfl, rfl, rfl, rfl, rfl, rfl, rfl, rfl, rfl, rfl, rfl, rfl, rfl, rfl, rfl,
    rfl, rfl, rfl, rfl, rfl, rfl, rfl, rfl, rfl, rfl, rfl, rfl, rfl, rfl, rfl, rfl, rfl, rfl, rfl, rfl, rfl, rfl,
    rfl, rfl, rfl, rfl, rfl, rfl, rfl, rfl, rfl, rfl⟩

@[simp] theorem Tile.satFld_rest (T : Tile) (f : Fld) (n : Nat) :
    (T.satFld f n).pc = T.pc ∧ (T.satFld f n).s = T.s ∧ (T.satFld f n).v = T.v ∧ (T.satFld f n).k = T.k ∧
    (T.satFld f n).d = T.d ∧ (T.satFld f n).store = T.store ∧ (T.satFld f n).ue = T.ue ∧
    (T.satFld f n).barrier = T.barrier ∧ (T.satFld f n).mq = T.mq ∧ (T.satFld f n).cq = T.cq ∧
    (T.satFld f n).xq = T.xq ∧ (T.satFld f n).ages = T.ages ∧ (T.satFld f n).sWait = T.sWait ∧
    (T.satFld f n).resv = T.resv ∧ (T.satFld f n).homes = T.homes ∧ (T.satFld f n).power = T.power ∧
    (T.satFld f n).lacc = T.lacc ∧ (T.satFld f n).mLast = T.mLast ∧ (T.satFld f n).mCarry = T.mCarry ∧
    (T.satFld f n).mDone = T.mDone ∧ (T.satFld f n).root0 = T.root0 ∧ (T.satFld f n).root1 = T.root1 ∧
    (T.satFld f n).cPre = T.cPre ∧ (T.satFld f n).checkedEpi = T.checkedEpi ∧ (T.satFld f n).checkedTp = T.checkedTp ∧
    (T.satFld f n).trapSlot = T.trapSlot ∧ (T.satFld f n).run = T.run ∧ (T.satFld f n).marked = T.marked ∧
    (T.satFld f n).stepping = T.stepping ∧ (T.satFld f n).sleepFrom = T.sleepFrom ∧
    (T.satFld f n).clockHold = T.clockHold ∧ (T.satFld f n).lateAt = T.lateAt ∧ (T.satFld f n).flagsNow = T.flagsNow ∧
    (T.satFld f n).rejNow = T.rejNow ∧ (T.satFld f n).gens = T.gens ∧ (T.satFld f n).reqs = T.reqs ∧
    (T.satFld f n).orders = T.orders ∧ (T.satFld f n).stampAt = T.stampAt ∧ (T.satFld f n).boundIn = T.boundIn ∧
    (T.satFld f n).events = T.events ∧ (T.satFld f n).skid = T.skid ∧ (T.satFld f n).den = T.den ∧
    (T.satFld f n).waking = T.waking ∧ (T.satFld f n).dozing = T.dozing ∧ (T.satFld f n).padsHeld = T.padsHeld ∧
    (T.satFld f n).haltReq = T.haltReq ∧ (T.satFld f n).fresh = T.fresh ∧ (T.satFld f n).haltFrom = T.haltFrom ∧
    (T.satFld f n).resets = T.resets ∧ (T.satFld f n).work = T.work ∧ (T.satFld f n).ending = T.ending ∧
    (T.satFld f n).inReset = T.inReset ∧ (T.satFld f n).out = T.out ∧ (T.satFld f n).hibHold = T.hibHold ∧
    (T.satFld f n).resetAt = T.resetAt :=
  ⟨rfl, rfl, rfl, rfl, rfl, rfl, rfl, rfl, rfl, rfl, rfl, rfl, rfl, rfl, rfl, rfl, rfl, rfl, rfl, rfl, rfl, rfl, rfl,
    rfl, rfl, rfl, rfl, rfl, rfl, rfl, rfl, rfl, rfl, rfl, rfl, rfl, rfl, rfl, rfl, rfl, rfl, rfl, rfl, rfl, rfl,
    rfl, rfl, rfl, rfl, rfl, rfl, rfl, rfl, rfl, rfl⟩

@[simp] theorem Tile.setV_rest (T : Tile) (r : Nat) (w : Vec) :
    (T.setV r w).ctl = T.ctl ∧ (T.setV r w).pc = T.pc ∧ (T.setV r w).s = T.s ∧ (T.setV r w).k = T.k ∧
    (T.setV r w).d = T.d ∧ (T.setV r w).store = T.store ∧ (T.setV r w).ue = T.ue ∧ (T.setV r w).barrier = T.barrier ∧
    (T.setV r w).mq = T.mq ∧ (T.setV r w).cq = T.cq ∧ (T.setV r w).xq = T.xq ∧ (T.setV r w).ages = T.ages ∧
    (T.setV r w).sWait = T.sWait ∧ (T.setV r w).resv = T.resv ∧ (T.setV r w).homes = T.homes ∧
    (T.setV r w).power = T.power ∧ (T.setV r w).lacc = T.lacc ∧ (T.setV r w).mLast = T.mLast ∧
    (T.setV r w).mCarry = T.mCarry ∧ (T.setV r w).mDone = T.mDone ∧ (T.setV r w).root0 = T.root0 ∧
    (T.setV r w).root1 = T.root1 ∧ (T.setV r w).cPre = T.cPre ∧ (T.setV r w).checkedEpi = T.checkedEpi ∧
    (T.setV r w).checkedTp = T.checkedTp ∧ (T.setV r w).trapSlot = T.trapSlot ∧ (T.setV r w).run = T.run ∧
    (T.setV r w).marked = T.marked ∧ (T.setV r w).stepping = T.stepping ∧ (T.setV r w).sleepFrom = T.sleepFrom ∧
    (T.setV r w).clockHold = T.clockHold ∧ (T.setV r w).lateAt = T.lateAt ∧ (T.setV r w).flagsNow = T.flagsNow ∧
    (T.setV r w).rejNow = T.rejNow ∧ (T.setV r w).gens = T.gens ∧ (T.setV r w).reqs = T.reqs ∧
    (T.setV r w).orders = T.orders ∧ (T.setV r w).stampAt = T.stampAt ∧ (T.setV r w).boundIn = T.boundIn ∧
    (T.setV r w).events = T.events ∧ (T.setV r w).skid = T.skid ∧ (T.setV r w).den = T.den ∧
    (T.setV r w).waking = T.waking ∧ (T.setV r w).dozing = T.dozing ∧ (T.setV r w).padsHeld = T.padsHeld ∧
    (T.setV r w).haltReq = T.haltReq ∧ (T.setV r w).fresh = T.fresh ∧ (T.setV r w).haltFrom = T.haltFrom ∧
    (T.setV r w).resets = T.resets ∧ (T.setV r w).work = T.work ∧ (T.setV r w).ending = T.ending ∧
    (T.setV r w).inReset = T.inReset ∧ (T.setV r w).out = T.out ∧ (T.setV r w).hibHold = T.hibHold ∧
    (T.setV r w).resetAt = T.resetAt :=
  ⟨rfl, rfl, rfl, rfl, rfl, rfl, rfl, rfl, rfl, rfl, rfl, rfl, rfl, rfl, rfl, rfl, rfl, rfl, rfl, rfl, rfl, rfl, rfl,
    rfl, rfl, rfl, rfl, rfl, rfl, rfl, rfl, rfl, rfl, rfl, rfl, rfl, rfl, rfl, rfl, rfl, rfl, rfl, rfl, rfl, rfl,
    rfl, rfl, rfl, rfl, rfl, rfl, rfl, rfl, rfl, rfl⟩

@[simp] theorem Tile.setD_rest (T : Tile) (r : Nat) (w : Line) :
    (T.setD r w).ctl = T.ctl ∧ (T.setD r w).pc = T.pc ∧ (T.setD r w).s = T.s ∧ (T.setD r w).v = T.v ∧
    (T.setD r w).k = T.k ∧ (T.setD r w).store = T.store ∧ (T.setD r w).ue = T.ue ∧ (T.setD r w).barrier = T.barrier ∧
    (T.setD r w).mq = T.mq ∧ (T.setD r w).cq = T.cq ∧ (T.setD r w).xq = T.xq ∧ (T.setD r w).ages = T.ages ∧
    (T.setD r w).sWait = T.sWait ∧ (T.setD r w).resv = T.resv ∧ (T.setD r w).homes = T.homes ∧
    (T.setD r w).power = T.power ∧ (T.setD r w).lacc = T.lacc ∧ (T.setD r w).mLast = T.mLast ∧
    (T.setD r w).mCarry = T.mCarry ∧ (T.setD r w).mDone = T.mDone ∧ (T.setD r w).root0 = T.root0 ∧
    (T.setD r w).root1 = T.root1 ∧ (T.setD r w).cPre = T.cPre ∧ (T.setD r w).checkedEpi = T.checkedEpi ∧
    (T.setD r w).checkedTp = T.checkedTp ∧ (T.setD r w).trapSlot = T.trapSlot ∧ (T.setD r w).run = T.run ∧
    (T.setD r w).marked = T.marked ∧ (T.setD r w).stepping = T.stepping ∧ (T.setD r w).sleepFrom = T.sleepFrom ∧
    (T.setD r w).clockHold = T.clockHold ∧ (T.setD r w).lateAt = T.lateAt ∧ (T.setD r w).flagsNow = T.flagsNow ∧
    (T.setD r w).rejNow = T.rejNow ∧ (T.setD r w).gens = T.gens ∧ (T.setD r w).reqs = T.reqs ∧
    (T.setD r w).orders = T.orders ∧ (T.setD r w).stampAt = T.stampAt ∧ (T.setD r w).boundIn = T.boundIn ∧
    (T.setD r w).events = T.events ∧ (T.setD r w).skid = T.skid ∧ (T.setD r w).den = T.den ∧
    (T.setD r w).waking = T.waking ∧ (T.setD r w).dozing = T.dozing ∧ (T.setD r w).padsHeld = T.padsHeld ∧
    (T.setD r w).haltReq = T.haltReq ∧ (T.setD r w).fresh = T.fresh ∧ (T.setD r w).haltFrom = T.haltFrom ∧
    (T.setD r w).resets = T.resets ∧ (T.setD r w).work = T.work ∧ (T.setD r w).ending = T.ending ∧
    (T.setD r w).inReset = T.inReset ∧ (T.setD r w).out = T.out ∧ (T.setD r w).hibHold = T.hibHold ∧
    (T.setD r w).resetAt = T.resetAt :=
  ⟨rfl, rfl, rfl, rfl, rfl, rfl, rfl, rfl, rfl, rfl, rfl, rfl, rfl, rfl, rfl, rfl, rfl, rfl, rfl, rfl, rfl, rfl, rfl,
    rfl, rfl, rfl, rfl, rfl, rfl, rfl, rfl, rfl, rfl, rfl, rfl, rfl, rfl, rfl, rfl, rfl, rfl, rfl, rfl, rfl, rfl,
    rfl, rfl, rfl, rfl, rfl, rfl, rfl, rfl, rfl, rfl⟩

@[simp] theorem Tile.orFlags_rest (T : Tile) (reg fl : Nat) :
    (T.orFlags reg fl).pc = T.pc ∧ (T.orFlags reg fl).s = T.s ∧ (T.orFlags reg fl).v = T.v ∧
    (T.orFlags reg fl).k = T.k ∧ (T.orFlags reg fl).d = T.d ∧ (T.orFlags reg fl).store = T.store ∧
    (T.orFlags reg fl).ue = T.ue ∧ (T.orFlags reg fl).barrier = T.barrier ∧ (T.orFlags reg fl).mq = T.mq ∧
    (T.orFlags reg fl).cq = T.cq ∧ (T.orFlags reg fl).xq = T.xq ∧ (T.orFlags reg fl).ages = T.ages ∧
    (T.orFlags reg fl).sWait = T.sWait ∧ (T.orFlags reg fl).resv = T.resv ∧ (T.orFlags reg fl).homes = T.homes ∧
    (T.orFlags reg fl).power = T.power ∧ (T.orFlags reg fl).lacc = T.lacc ∧ (T.orFlags reg fl).mLast = T.mLast ∧
    (T.orFlags reg fl).mCarry = T.mCarry ∧ (T.orFlags reg fl).mDone = T.mDone ∧ (T.orFlags reg fl).root0 = T.root0 ∧
    (T.orFlags reg fl).root1 = T.root1 ∧ (T.orFlags reg fl).cPre = T.cPre ∧
    (T.orFlags reg fl).checkedEpi = T.checkedEpi ∧ (T.orFlags reg fl).checkedTp = T.checkedTp ∧
    (T.orFlags reg fl).trapSlot = T.trapSlot ∧ (T.orFlags reg fl).run = T.run ∧ (T.orFlags reg fl).marked = T.marked ∧
    (T.orFlags reg fl).stepping = T.stepping ∧ (T.orFlags reg fl).sleepFrom = T.sleepFrom ∧
    (T.orFlags reg fl).clockHold = T.clockHold ∧ (T.orFlags reg fl).lateAt = T.lateAt ∧
    (T.orFlags reg fl).rejNow = T.rejNow ∧ (T.orFlags reg fl).gens = T.gens ∧ (T.orFlags reg fl).reqs = T.reqs ∧
    (T.orFlags reg fl).orders = T.orders ∧ (T.orFlags reg fl).stampAt = T.stampAt ∧
    (T.orFlags reg fl).boundIn = T.boundIn ∧ (T.orFlags reg fl).events = T.events ∧ (T.orFlags reg fl).skid = T.skid ∧
    (T.orFlags reg fl).den = T.den ∧ (T.orFlags reg fl).waking = T.waking ∧ (T.orFlags reg fl).dozing = T.dozing ∧
    (T.orFlags reg fl).padsHeld = T.padsHeld ∧ (T.orFlags reg fl).haltReq = T.haltReq ∧
    (T.orFlags reg fl).fresh = T.fresh ∧ (T.orFlags reg fl).haltFrom = T.haltFrom ∧
    (T.orFlags reg fl).resets = T.resets ∧ (T.orFlags reg fl).work = T.work ∧ (T.orFlags reg fl).ending = T.ending ∧
    (T.orFlags reg fl).inReset = T.inReset ∧ (T.orFlags reg fl).out = T.out ∧ (T.orFlags reg fl).hibHold = T.hibHold ∧
    (T.orFlags reg fl).resetAt = T.resetAt :=
  ⟨rfl, rfl, rfl, rfl, rfl, rfl, rfl, rfl, rfl, rfl, rfl, rfl, rfl, rfl, rfl, rfl, rfl, rfl, rfl, rfl, rfl, rfl, rfl,
    rfl, rfl, rfl, rfl, rfl, rfl, rfl, rfl, rfl, rfl, rfl, rfl, rfl, rfl, rfl, rfl, rfl, rfl, rfl, rfl, rfl, rfl,
    rfl, rfl, rfl, rfl, rfl, rfl, rfl, rfl, rfl⟩

@[simp] theorem Tile.breakResv_rest (T : Tile) (n : Nat) :
    (T.breakResv n).ctl = T.ctl ∧ (T.breakResv n).pc = T.pc ∧ (T.breakResv n).s = T.s ∧ (T.breakResv n).v = T.v ∧
    (T.breakResv n).k = T.k ∧ (T.breakResv n).d = T.d ∧ (T.breakResv n).store = T.store ∧ (T.breakResv n).ue = T.ue ∧
    (T.breakResv n).barrier = T.barrier ∧ (T.breakResv n).mq = T.mq ∧ (T.breakResv n).cq = T.cq ∧
    (T.breakResv n).xq = T.xq ∧ (T.breakResv n).ages = T.ages ∧ (T.breakResv n).sWait = T.sWait ∧
    (T.breakResv n).homes = T.homes ∧ (T.breakResv n).power = T.power ∧ (T.breakResv n).lacc = T.lacc ∧
    (T.breakResv n).mLast = T.mLast ∧ (T.breakResv n).mCarry = T.mCarry ∧ (T.breakResv n).mDone = T.mDone ∧
    (T.breakResv n).root0 = T.root0 ∧ (T.breakResv n).root1 = T.root1 ∧ (T.breakResv n).cPre = T.cPre ∧
    (T.breakResv n).checkedEpi = T.checkedEpi ∧ (T.breakResv n).checkedTp = T.checkedTp ∧
    (T.breakResv n).trapSlot = T.trapSlot ∧ (T.breakResv n).run = T.run ∧ (T.breakResv n).marked = T.marked ∧
    (T.breakResv n).stepping = T.stepping ∧ (T.breakResv n).sleepFrom = T.sleepFrom ∧
    (T.breakResv n).clockHold = T.clockHold ∧ (T.breakResv n).lateAt = T.lateAt ∧
    (T.breakResv n).flagsNow = T.flagsNow ∧ (T.breakResv n).rejNow = T.rejNow ∧ (T.breakResv n).gens = T.gens ∧
    (T.breakResv n).reqs = T.reqs ∧ (T.breakResv n).orders = T.orders ∧ (T.breakResv n).stampAt = T.stampAt ∧
    (T.breakResv n).boundIn = T.boundIn ∧ (T.breakResv n).events = T.events ∧ (T.breakResv n).skid = T.skid ∧
    (T.breakResv n).den = T.den ∧ (T.breakResv n).waking = T.waking ∧ (T.breakResv n).dozing = T.dozing ∧
    (T.breakResv n).padsHeld = T.padsHeld ∧ (T.breakResv n).haltReq = T.haltReq ∧ (T.breakResv n).fresh = T.fresh ∧
    (T.breakResv n).haltFrom = T.haltFrom ∧ (T.breakResv n).resets = T.resets ∧ (T.breakResv n).work = T.work ∧
    (T.breakResv n).ending = T.ending ∧ (T.breakResv n).inReset = T.inReset ∧ (T.breakResv n).out = T.out ∧
    (T.breakResv n).hibHold = T.hibHold ∧ (T.breakResv n).resetAt = T.resetAt :=
  ⟨rfl, rfl, rfl, rfl, rfl, rfl, rfl, rfl, rfl, rfl, rfl, rfl, rfl, rfl, rfl, rfl, rfl, rfl, rfl, rfl, rfl, rfl, rfl,
    rfl, rfl, rfl, rfl, rfl, rfl, rfl, rfl, rfl, rfl, rfl, rfl, rfl, rfl, rfl, rfl, rfl, rfl, rfl, rfl, rfl, rfl,
    rfl, rfl, rfl, rfl, rfl, rfl, rfl, rfl, rfl, rfl⟩

@[simp] theorem Tile.exception_rest (T : Tile) (code queue sub : Nat) (async : Bool) (pc qpc info : Word) :
    (T.exception code queue sub async pc qpc info).s = T.s ∧ (T.exception code queue sub async pc qpc info).v = T.v ∧
    (T.exception code queue sub async pc qpc info).k = T.k ∧ (T.exception code queue sub async pc qpc info).d = T.d ∧
    (T.exception code queue sub async pc qpc info).store = T.store ∧
    (T.exception code queue sub async pc qpc info).ue = T.ue ∧
    (T.exception code queue sub async pc qpc info).mq = T.mq ∧
    (T.exception code queue sub async pc qpc info).cq = T.cq ∧
    (T.exception code queue sub async pc qpc info).xq = T.xq ∧
    (T.exception code queue sub async pc qpc info).ages = T.ages ∧
    (T.exception code queue sub async pc qpc info).sWait = T.sWait ∧
    (T.exception code queue sub async pc qpc info).homes = T.homes ∧
    (T.exception code queue sub async pc qpc info).power = T.power ∧
    (T.exception code queue sub async pc qpc info).lacc = T.lacc ∧
    (T.exception code queue sub async pc qpc info).mLast = T.mLast ∧
    (T.exception code queue sub async pc qpc info).mCarry = T.mCarry ∧
    (T.exception code queue sub async pc qpc info).mDone = T.mDone ∧
    (T.exception code queue sub async pc qpc info).root0 = T.root0 ∧
    (T.exception code queue sub async pc qpc info).root1 = T.root1 ∧
    (T.exception code queue sub async pc qpc info).cPre = T.cPre ∧
    (T.exception code queue sub async pc qpc info).checkedEpi = T.checkedEpi ∧
    (T.exception code queue sub async pc qpc info).checkedTp = T.checkedTp ∧
    (T.exception code queue sub async pc qpc info).trapSlot = T.trapSlot ∧
    (T.exception code queue sub async pc qpc info).run = T.run ∧
    (T.exception code queue sub async pc qpc info).marked = T.marked ∧
    (T.exception code queue sub async pc qpc info).stepping = T.stepping ∧
    (T.exception code queue sub async pc qpc info).sleepFrom = T.sleepFrom ∧
    (T.exception code queue sub async pc qpc info).clockHold = T.clockHold ∧
    (T.exception code queue sub async pc qpc info).lateAt = T.lateAt ∧
    (T.exception code queue sub async pc qpc info).flagsNow = T.flagsNow ∧
    (T.exception code queue sub async pc qpc info).rejNow = T.rejNow ∧
    (T.exception code queue sub async pc qpc info).gens = T.gens ∧
    (T.exception code queue sub async pc qpc info).reqs = T.reqs ∧
    (T.exception code queue sub async pc qpc info).orders = T.orders ∧
    (T.exception code queue sub async pc qpc info).stampAt = T.stampAt ∧
    (T.exception code queue sub async pc qpc info).boundIn = T.boundIn ∧
    (T.exception code queue sub async pc qpc info).events = T.events ∧
    (T.exception code queue sub async pc qpc info).den = T.den ∧
    (T.exception code queue sub async pc qpc info).waking = T.waking ∧
    (T.exception code queue sub async pc qpc info).dozing = T.dozing ∧
    (T.exception code queue sub async pc qpc info).padsHeld = T.padsHeld ∧
    (T.exception code queue sub async pc qpc info).haltReq = T.haltReq ∧
    (T.exception code queue sub async pc qpc info).fresh = T.fresh ∧
    (T.exception code queue sub async pc qpc info).haltFrom = T.haltFrom ∧
    (T.exception code queue sub async pc qpc info).resets = T.resets ∧
    (T.exception code queue sub async pc qpc info).work = T.work ∧
    (T.exception code queue sub async pc qpc info).ending = T.ending ∧
    (T.exception code queue sub async pc qpc info).inReset = T.inReset ∧
    (T.exception code queue sub async pc qpc info).out = T.out ∧
    (T.exception code queue sub async pc qpc info).hibHold = T.hibHold ∧
    (T.exception code queue sub async pc qpc info).resetAt = T.resetAt :=
  ⟨rfl, rfl, rfl, rfl, rfl, rfl, rfl, rfl, rfl, rfl, rfl, rfl, rfl, rfl, rfl, rfl, rfl, rfl, rfl, rfl, rfl, rfl, rfl,
    rfl, rfl, rfl, rfl, rfl, rfl, rfl, rfl, rfl, rfl, rfl, rfl, rfl, rfl, rfl, rfl, rfl, rfl, rfl, rfl, rfl, rfl,
    rfl, rfl, rfl, rfl, rfl, rfl⟩

end Sys2Proof.Machine
end

