-- ==== Sys2Proof/Laws/Canonical.lean ====
section
/-!
SUPPORT. The canonical form of a state is kept by every shared operation on it.
-/
namespace Sys2Proof.Machine

/-- A state is canonical when another has the same time and canonical parts. -/
theorem State.Canonical.of {s u : State} (h : s.Canonical) (ht : u.owl = s.owl) (hm : Memory.wf u.mem)
    (hh : Memory.wf u.host) (hT : NMap.wf tileDflt u.tiles) (hr : NMap.wf hostDflt u.regs) : u.Canonical :=
  ⟨ht ▸ h.ticks, ht ▸ h.frac, hm, hh, hT, hr⟩

/-- An update of other parts keeps the canonical form. -/
theorem State.Canonical.same {s u : State} (h : s.Canonical) (ho : u.owl = s.owl) (hm : u.mem = s.mem)
    (hh : u.host = s.host) (hT : u.tiles = s.tiles) (hr : u.regs = s.regs) : u.Canonical :=
  h.of ho (hm ▸ h.mem) (hh ▸ h.host) (hT ▸ h.tiles) (hr ▸ h.regs)

theorem State.Canonical.setTile {s : State} (h : s.Canonical) (t : Nat) (T : Tile) : (s.setTile t T).Canonical :=
  h.of rfl h.mem h.host (NMap.wf_set _ _ _ h.tiles) h.regs

theorem State.Canonical.onTile {s : State} (h : s.Canonical) (t : Nat) (f : Tile → Tile) : (s.onTile t f).Canonical :=
  h.setTile t _

theorem State.Canonical.setHost {s : State} (h : s.Canonical) (a : Nat) (w : Word) : (s.setHost a w).Canonical :=
  h.of rfl h.mem h.host h.tiles (NMap.wf_set _ _ _ h.regs)

theorem State.Canonical.setHf {s : State} (h : s.Canonical) (b : Nat) (f : Fld) (v : Nat) : (s.setHf b f v).Canonical :=
  h.setHost _ _

theorem State.Canonical.satHf {s : State} (h : s.Canonical) (b : Nat) (f : Fld) (v : Nat) : (s.satHf b f v).Canonical :=
  h.setHf _ _ _

theorem State.Canonical.setEf {s : State} (h : s.Canonical) (f : Fld) (v : Nat) : (s.setEf f v).Canonical := h.setHf _ _ _

theorem State.Canonical.setPf {s : State} (h : s.Canonical) (p : Nat) (f : Fld) (v : Nat) : (s.setPf p f v).Canonical :=
  h.setHf _ _ _

theorem State.Canonical.setCf {s : State} (h : s.Canonical) (c : Nat) (f : Fld) (v : Nat) : (s.setCf c f v).Canonical :=
  h.setHf _ _ _

theorem State.Canonical.onPart {s : State} (h : s.Canonical) (p : Nat) (f : PartSt → PartSt) : (s.onPart p f).Canonical :=
  h.same rfl rfl rfl rfl rfl

theorem State.Canonical.onBlock {s : State} (h : s.Canonical) (b : Nat) (f : BlockSt → BlockSt) :
    (s.onBlock b f).Canonical := h.same rfl rfl rfl rfl rfl

theorem State.Canonical.onLink {s : State} (h : s.Canonical) (l : Nat) (f : LinkSt → LinkSt) : (s.onLink l f).Canonical :=
  h.same rfl rfl rfl rfl rfl

theorem State.Canonical.onFlow {s : State} (h : s.Canonical) (k : Nat) (f : FlowSt → FlowSt) : (s.onFlow k f).Canonical :=
  h.same rfl rfl rfl rfl rfl

theorem State.Canonical.onQueue {s : State} (h : s.Canonical) (c q : Nat) (f : HostQ → HostQ) :
    (s.onQueue c q f).Canonical := h.same rfl rfl rfl rfl rfl

theorem State.Canonical.onCtx {s : State} (h : s.Canonical) (c : Nat) (f : CtxSt → CtxSt) : (s.onCtx c f).Canonical :=
  h.same rfl rfl rfl rfl rfl

theorem State.Canonical.vector {s : State} (h : s.Canonical) (f v : Nat) : (s.vector f v).Canonical :=
  h.same rfl rfl rfl rfl rfl

theorem State.Canonical.hostWrite {s : State} (h : s.Canonical) (a n v : Nat) : (s.hostWrite a n v).Canonical :=
  h.of rfl h.mem (memWrite_wf n a v h.host) h.tiles h.regs

theorem State.Canonical.irq {s : State} (h : s.Canonical) (f : Fld) : (s.irq f).Canonical := by
  unfold State.irq
  dsimp only
  split
  · exact h.setEf _ _
  · exact (h.setEf _ _).vector _ _

theorem State.Canonical.ctxVector {s : State} (h : s.Canonical) (c v : Nat) : (s.ctxVector c v).Canonical := by
  unfold State.ctxVector
  split <;> exact h.vector _ _

theorem State.Canonical.ctxEvent {s : State} (h : s.Canonical) (c : Nat) (f : Fld) : (s.ctxEvent c f).Canonical := by
  unfold State.ctxEvent
  dsimp only
  split
  · exact (h.setCf _ _ _).ctxVector _ _
  · exact h.setCf _ _ _

theorem State.Canonical.ite {s u : State} {c : Prop} [Decidable c] (h : s.Canonical) (k : u.Canonical) :
    (if c then s else u).Canonical := by split <;> assumption

theorem State.Canonical.hostReject {s : State} (h : s.Canonical) (a src : Nat) : (s.hostReject a src).Canonical := by
  unfold State.hostReject
  dsimp only
  split
  · refine State.Canonical.ite (State.Canonical.setEf (State.Canonical.setEf ?_ _ _) _ _) ?_ <;>
      exact State.Canonical.ite ((h.setEf _ _).setEf _ _) (h.setEf _ _)
  · exact ((((h.setEf _ _).setEf _ _).setEf _ _).irq _).same rfl rfl rfl rfl rfl

theorem State.Canonical.notePrior {s : State} (h : s.Canonical) (a : Nat) : (s.notePrior a).Canonical := by
  unfold State.notePrior
  split
  · exact h
  · exact h.same rfl rfl rfl rfl rfl

theorem State.Canonical.writeHost {s : State} (h : s.Canonical) (a w src : Nat) (bad : Fld → Bool) :
    (s.writeHost a w src bad).Canonical := by
  unfold State.writeHost
  split
  · exact h.hostReject _ _
  · dsimp only
    split
    · exact ((h.notePrior a).setHost _ _).hostReject _ _
    · exact (h.notePrior a).setHost _ _

/-! ## Stacked memory -/

theorem State.Canonical.uncache {s : State} (h : s.Canonical) (a n : Nat) : (s.uncache a n).Canonical := by
  unfold State.uncache
  split
  · exact h
  · split
    · exact h
    · exact (h.onPart _ _).setPf _ _ _

theorem State.Canonical.writeMem {s : State} (h : s.Canonical) (a n v : Nat) : (s.writeMem a n v).Canonical := by
  unfold State.writeMem
  refine State.Canonical.uncache ?_ a n
  exact ⟨h.ticks, h.frac, memWrite_wf n a v h.mem, h.host, h.tiles, h.regs⟩

theorem State.Canonical.writeLine {s : State} (h : s.Canonical) (a v : Nat) : (s.writeLine a v).Canonical :=
  (h.writeMem a 64 v).same rfl rfl rfl rfl rfl

theorem State.Canonical.zeroMem {s : State} (h : s.Canonical) (a n : Nat) : (s.zeroMem a n).Canonical :=
  h.of rfl (memZero_wf a n h.mem) h.host h.tiles h.regs

theorem State.Canonical.logUE {s : State} (h : s.Canonical) (a src : Nat) : (s.logUE a src).Canonical := by
  unfold State.logUE
  dsimp only
  split
  · exact h.setHf _ _ _
  · exact ((h.setHf _ _ _).setHf _ _ _).setHf _ _ _

theorem State.Canonical.rowBad {s : State} (h : s.Canonical) (a : Nat) (ue : Bool) : (s.rowBad a ue).Canonical := by
  unfold State.rowBad
  dsimp only
  split
  · split
    · exact ((h.onBlock _ _).setHf _ _ _).setEf _ _
    · exact h
  · split
    · exact h
    · exact h.onBlock _ _

theorem State.Canonical.slotMem {s : State} (h : s.Canonical) (b cls n : Nat) : (s.slotMem b cls n).Canonical :=
  h.onBlock _ _

theorem State.Canonical.corrected {s : State} (h : s.Canonical) (a : Nat) : (s.corrected a).Canonical := by
  unfold State.corrected
  dsimp only
  refine State.Canonical.ite (State.Canonical.rowBad ?_ _ _) ?_ <;>
    exact State.Canonical.ite (((h.satHf _ _ _).onBlock _ _).slotMem _ _ _) ((h.satHf _ _ _).onBlock _ _)

theorem State.Canonical.xorLine {s : State} (h : s.Canonical) (a v : Nat) :
    ({ s with mem := memWrite s.mem a 64 v } : State).Canonical :=
  ⟨h.ticks, h.frac, memWrite_wf 64 a v h.mem, h.host, h.tiles, h.regs⟩

theorem State.Canonical.readLine {s : State} (h : s.Canonical) (a src : Nat) (err : LineErr) (marks : Bool) :
    (s.readLine a err src marks).1.Canonical := by
  unfold State.readLine
  dsimp only
  split
  · split
    · exact h
    · exact (h.logUE a src).same rfl rfl rfl rfl rfl
  · split
    · split <;> exact (((h.satHf _ _ _).logUE a src).rowBad a true).same rfl rfl rfl rfl rfl
    · split
      · dsimp only
        refine State.Canonical.ite ?_ (State.Canonical.corrected ?_ a) <;> exact State.Canonical.ite h (h.xorLine a _)
      · exact h

theorem State.Canonical.readStacked {s : State} (h : s.Canonical) (g n : Nat) (err : LineErr) (marks : Bool) (src cls : Nat) :
    (s.readStacked g n err marks src cls).1.Canonical :=
  (h.slotMem _ _ _).readLine _ _ _ _

theorem State.Canonical.writeStacked {s : State} (h : s.Canonical) (g n v : Nat) (err : LineErr) (cls : Nat) :
    (s.writeStacked g n v err cls).1.Canonical := by
  unfold State.writeStacked
  dsimp only
  split
  · exact (h.slotMem _ _ _).writeLine _ _
  · have hr := (h.slotMem (blockOf (g % 2 ^ 48)) cls 2).readLine (g % 2 ^ 48 / 64 * 64) 2 err true
    split
    · exact hr.writeMem _ _ _
    · exact hr

end Sys2Proof.Machine
end

