-- ==== Sys2Proof/Laws/Dispatch.lean ====
section
/-!
SUPPORT. Laws of dispatch: what retiring an instruction writes, and what the shapes of S-queue instructions answer.
-/
namespace Sys2Proof.Machine

/-! ## Retiring -/

theorem Tile.slot_rest (T : Tile) (f : Fld) (n : Nat) : T.slot f n = { T with ctl := (T.slot f n).ctl, skid := T.skidAfter f n } := by
  unfold Tile.slot; dsimp only; split <;> rfl

theorem Tile.slot_ctl (T : Tile) (f : Fld) (n a : Nat) (h : a ≠ f.reg) (h' : a ≠ F.SLOT_HANDLER_COUNT.reg) :
    (T.slot f n).ctlWord a = T.ctlWord a := by
  unfold Tile.slot
  dsimp only
  split
  · exact (Tile.ctlWord_setFld_other _ _ h').trans (Tile.ctlWord_setFld_other T _ h)
  · exact Tile.ctlWord_setFld_other T _ h

theorem Tile.slot_counted (T : Tile) (f : Fld) (n : Nat) (h : f.reg ≠ F.SLOT_HANDLER_COUNT.reg) (hw : f.lo + f.width ≤ 64) :
    (T.slot f n).fld f = (T.fld f + n) % 2 ^ f.width := by
  unfold Tile.slot
  dsimp only
  split
  · exact (Tile.fld_setFld_otherReg _ _ h).trans (Tile.fld_setFld_same T f _ hw)
  · exact Tile.fld_setFld_same T f _ hw

theorem Tile.afterStep_rest (T : Tile) : T.afterStep = { T with ctl := T.afterStep.ctl, stepping := T.afterStep.stepping, fresh := T.afterStep.fresh } := by
  unfold Tile.afterStep; split
  · rfl
  · split <;> rfl

theorem Tile.afterStep_ctl (T : Tile) (a : Nat) (h : a ≠ F.DBG_STATUS_HALTED.reg) : T.afterStep.ctlWord a = T.ctlWord a := by
  unfold Tile.afterStep; split
  · show ((T.setFld F.DBG_STATUS_STOPPING 1).setFld F.DBG_STATUS_HALT_WHY 4).ctlWord a = T.ctlWord a
    rw [Tile.ctlWord_setFld_other (T.setFld F.DBG_STATUS_STOPPING 1) (f := F.DBG_STATUS_HALT_WHY) 4 h,
      Tile.ctlWord_setFld_other T (f := F.DBG_STATUS_STOPPING) 1 h]
  · split <;> rfl

theorem Tile.goto_fetchable (T : Tile) {a : Word} (h : fetchable a) : T.goto a = { T with pc := a } := if_pos h

theorem retFld_width (q : Nat) : (retFld q).lo + (retFld q).width ≤ 64 := by
  simp [retFld, Fld.at, F.RET_S_COUNT]

theorem retFld_ne_slotHandler {q : Nat} (h : q ≤ 4) : (retFld q).reg ≠ F.SLOT_HANDLER_COUNT.reg := by
  interval_cases q <;> decide

theorem retFld_ne_debug {q : Nat} (h : q ≤ 4) : (retFld q).reg ≠ F.DBG_STATUS_HALTED.reg := by
  interval_cases q <;> decide

/-- An instruction whose slot is counted and which goes on at `next` has retired. -/
theorem Tile.retired (U : Tile) {q : Nat} {next : Word} (hq : q ≤ 4) (hn : fetchable next) :
    Tile.Retired U (((U.slot (retFld q) 1).goto next).afterStep) q next := by
  rw [Tile.goto_fetchable _ hn]
  refine ⟨?_, ?_, fun a ha => ?_, ?_⟩
  · rw [Tile.afterStep_rest]
  · rw [Tile.fld, Tile.afterStep_ctl _ _ (retFld_ne_debug hq)]
    exact Tile.slot_counted U _ 1 (retFld_ne_slotHandler hq) (retFld_width q)
  · simp only [retireRegs, List.mem_cons, List.not_mem_nil, or_false, not_or] at ha
    rw [Tile.afterStep_ctl _ _ ha.2.2]
    exact Tile.slot_ctl U _ 1 a ha.1 ha.2.1
  · have e := Tile.slot_rest U (retFld q) 1
    rw [Tile.afterStep_rest]
    congr 1 <;> rw [e]

/-! ## S-queue instructions -/

theorem Tile.preFault_none (T : Tile) {q len w0 w1 : Nat} (hf : T.fetchFault len = none) (hq : q < 2 ∨ T.frozen q = false) :
    T.preFault q len w0 w1 none = none := by
  unfold Tile.fetchFault at hf
  split at hf
  · cases hf
  · split at hf
    · cases hf
    · rename_i h1 h2
      unfold Tile.preFault
      rcases hq with hq | hq
      · simp [h1, h2, Nat.not_le.mpr hq]
      · simp [h1, h2, hq]

/-- An S-queue instruction whose execution succeeds retires. -/
theorem Tile.scalar_ok (T U : Tile) {w0 : Nat} {regs : List Nat} {body : Tile → SRes} {next : Word}
    (hr : T.ready regs = true) (hf : T.fetchFault 4 = none) (hb : body T = .ok U next) :
    T.scalar w0 regs none body = ((U.slot (retFld 1) 1).goto next).afterStep := by
  unfold Tile.scalar
  rw [if_pos hr, Tile.preFault_none T hf (.inl (by decide)), hb]

/-- An S-queue instruction with a reserved field raises ILLEGAL at dispatch. -/
theorem Tile.scalar_illegal (T : Tile) {w0 sub : Nat} {regs : List Nat} {body : Tile → SRes}
    (hr : T.ready regs = true) (hf : T.fetchFault 4 = none) :
    T.scalar w0 regs (some sub) body = (T.syncExc 1 1 sub (illegalInfo w0 0)).afterStep := by
  unfold Tile.fetchFault at hf
  split at hf
  · cases hf
  · split at hf
    · cases hf
    · rename_i h2
      simp [Tile.scalar, Tile.preFault, hr, h2]

/-- An S-queue instruction whose execution raises a synchronous cause. -/
theorem Tile.scalar_sync (T : Tile) {w0 code sub : Nat} {info : Word} {regs : List Nat} {body : Tile → SRes}
    (hr : T.ready regs = true) (hf : T.fetchFault 4 = none) (hb : body T = .sync code sub info) :
    T.scalar w0 regs none body = (T.syncExc 1 code sub info).afterStep := by
  unfold Tile.scalar
  rw [if_pos hr, Tile.preFault_none T hf (.inl (by decide)), hb]

/-- An S-queue instruction that a tile cannot dispatch leaves the tile as it is. -/
theorem Tile.scalar_held (T : Tile) {w0 : Nat} {regs : List Nat} {bad : Option Nat} {body : Tile → SRes}
    (hr : T.ready regs = false) : T.scalar w0 regs bad body = T := by
  simp [Tile.scalar, hr]

/-- An M or C instruction that is dispatched with its queue empty, and may start, executes at once and retires. -/
theorem Tile.queueOp_ok (T U V : Tile) {q len : Nat} {regs : List Nat} {e : QEntry} {gate : Bool}
    {check : Tile → Tile × Option (Nat × Nat × Word)} {body : Tile → QEntry → QRes}
    (hr : T.ready (e.dest :: regs) = true) (hg : gate = false) (hl : (T.queue q).length < queueDepth q)
    (hm : T.tableRoom e.ranges e.trigger = true) (hf : T.fetchFault len = none) (hz : q < 2 ∨ T.frozen q = false)
    (hc : check T = (U, none)) (hq : (U.slot (retFld q) 1).queue q = []) (hs : (U.slot (retFld q) 1).startable q e = true)
    (ho : body (U.slot (retFld q) 1) e = .ok V) :
    T.queueOp q len regs e gate none check body = (V.goto (U.pc + BitVec.ofNat 64 len)).afterStep := by
  unfold Tile.queueOp
  rw [if_pos hr, Tile.preFault_none T hf hz]
  simp only [hg, hm, Nat.not_le.mpr hl, decide_false, Bool.or_self, Bool.not_true, Bool.false_eq_true, if_false, hc]
  rw [if_pos ⟨hq, hs⟩, ho]

/-- An M or C instruction that may not start yet enters its queue with its operands, and dispatch goes on (R103). -/
theorem Tile.queueOp_queued (T U : Tile) {q len : Nat} {regs : List Nat} {e : QEntry} {gate : Bool}
    {check : Tile → Tile × Option (Nat × Nat × Word)} {body : Tile → QEntry → QRes}
    (hr : T.ready (e.dest :: regs) = true) (hg : gate = false) (hl : (T.queue q).length < queueDepth q)
    (hm : T.tableRoom e.ranges e.trigger = true) (hf : T.fetchFault len = none) (hz : q < 2 ∨ T.frozen q = false)
    (hc : check T = (U, none))
    (hs : ¬ ((U.slot (retFld q) 1).queue q = [] ∧ (U.slot (retFld q) 1).startable q e = true)) :
    T.queueOp q len regs e gate none check body =
      (((U.slot (retFld q) 1).enqueue q e).goto (U.pc + BitVec.ofNat 64 len)).afterStep := by
  unfold Tile.queueOp
  rw [if_pos hr, Tile.preFault_none T hf hz]
  simp only [hg, hm, Nat.not_le.mpr hl, decide_false, Bool.or_self, Bool.not_true, Bool.false_eq_true, if_false, hc]
  rw [if_neg hs]

end Sys2Proof.Machine
end

