-- ==== Sys2Proof/WellFormed.lean ====
section
/-!
DEFINITION. Which commands are well formed: the operands a word of the instruction, a frame or a message can carry.
An index of a tile, partition, context, link, group, block or queue is bounded by its type.
-/
namespace Sys2Proof

/-- Is the command one that the outside world can send? -/
def Instr.wf : Instr → Bool
  | .standbyPowerApplied => true
  | .standbyPowerLost => true
  | .warmUpDone => true
  | .ptpSyncMeasurement _ _ _ _ => true
  | .ppsEdge _ _ => true
  | .referenceLoss _ => true
  | .roundBoundary _ => true
  | .referenceSelection => true
  | .automaticLoad => true
  | .holdLimitReached => true
  | .timeSet => true
  | .timeSetAtPps => true
  | .timeCancel => true
  | .stepOk => true
  | .timeStep => true
  | .droopStretch _ _ => true
  | .clockRealign => true
  | .registerWrite _ _ _ => true
  | .squash _ _ _ _ _ => true
  | .add _ _ => true
  | .sub _ _ => true
  | .and _ _ => true
  | .or _ _ => true
  | .xor _ _ => true
  | .shl _ _ => true
  | .shr _ _ => true
  | .sar _ _ => true
  | .slt _ _ => true
  | .sltu _ _ => true
  | .min _ _ => true
  | .max _ _ => true
  | .minu _ _ => true
  | .maxu _ _ => true
  | .mul _ _ => true
  | .mulh _ _ => true
  | .mulhu _ _ => true
  | .div _ _ => true
  | .divu _ _ => true
  | .rem _ _ => true
  | .remu _ _ => true
  | .clz _ _ => true
  | .ctz _ _ => true
  | .popc _ _ => true
  | .addi _ _ => true
  | .andi _ _ => true
  | .ori _ _ => true
  | .xori _ _ => true
  | .shli _ f => f.imm.toNat / 64 % 4 == 0
  | .shri _ f => f.imm.toNat / 64 % 4 == 1
  | .sari _ f => f.imm.toNat / 64 % 4 == 2
  | .rotri _ f => f.imm.toNat / 64 % 4 == 3
  | .slti _ _ => true
  | .sltiu _ _ => true
  | .li _ _ => true
  | .lsh _ _ => true
  | .pcrel _ _ => true
  | .ld8 _ _ => true
  | .ld8u _ _ => true
  | .ld16 _ _ => true
  | .ld16u _ _ => true
  | .ld32 _ _ => true
  | .ld32u _ _ => true
  | .ld64 _ _ => true
  | .st8 _ _ => true
  | .st16 _ _ => true
  | .st32 _ _ => true
  | .st64 _ _ => true
  | .beq _ _ => true
  | .bne _ _ => true
  | .blt _ _ => true
  | .bge _ _ => true
  | .bltu _ _ => true
  | .bgeu _ _ => true
  | .jal _ _ => true
  | .jalr _ _ => true
  | .fence _ => true
  | .tsync _ _ => true
  | .ifence _ => true
  | .trap _ _ => true
  | .wait _ => true
  | .denCommit _ => true
  | .eret _ => true
  | .asyncEventEntry _ => true
  | .twait _ _ => true
  | .twaitRelease _ => true
  | .csrr _ f => f.imm.toNat / 4096 == 0
  | .csrw _ f => f.imm.toNat / 4096 == 1
  | .csrs _ f => f.imm.toNat / 4096 == 2
  | .csrc _ f => f.imm.toNat / 4096 == 3
  | .dld _ _ => true
  | .dst _ _ => true
  | .kld _ _ => true
  | .kst _ _ => true
  | .hold _ _ => true
  | .commit _ _ => true
  | .amoadd _ _ => true
  | .amoand _ _ => true
  | .amoor _ _ => true
  | .amoxor _ _ => true
  | .amomin _ _ => true
  | .amomax _ _ => true
  | .amominu _ _ => true
  | .amomaxu _ _ => true
  | .amoswap _ _ => true
  | .amofadd64 _ _ => true
  | .amofadd32 _ _ => true
  | .atomicAtHome _ _ _ => true
  | .holdServed _ _ => true
  | .reservationLapse _ => true
  | .haltDeferExpiry _ => true
  | .stampLaunch _ => true
  | .mmac _ _ => true
  | .mdrain _ _ => true
  | .mclear _ _ => true
  | .mexport _ _ => true
  | .mimport _ _ => true
  | .mmom _ _ => true
  | .mdrmom _ _ => true
  | .mgrp _ _ => true
  | .vsetvl _ _ => true
  | .vmv _ _ => true
  | .vbcast _ _ => true
  | .vextr _ _ => true
  | .vins _ _ => true
  | .vidx _ _ => true
  | .vadd _ _ => true
  | .vsub _ _ => true
  | .vmul _ _ => true
  | .vfma _ _ => true
  | .vfnma _ _ => true
  | .vmin _ _ => true
  | .vmax _ _ => true
  | .vabs _ _ => true
  | .vneg _ _ => true
  | .vrecip _ _ => true
  | .vrsqrt _ _ => true
  | .vexp _ _ => true
  | .vlog _ _ => true
  | .vsin _ _ => true
  | .vcos _ _ => true
  | .vtanh _ _ => true
  | .vceq _ _ => true
  | .vcne _ _ => true
  | .vclt _ _ => true
  | .vcle _ _ => true
  | .vcgt _ _ => true
  | .vcge _ _ => true
  | .vsel _ _ => true
  | .kand _ _ => true
  | .kor _ _ => true
  | .kxor _ _ => true
  | .knot _ _ => true
  | .kpop _ _ => true
  | .kfirst _ _ => true
  | .vshl _ _ => true
  | .vshr _ _ => true
  | .vsar _ _ => true
  | .vand _ _ => true
  | .vor _ _ => true
  | .vxor _ _ => true
  | .cvt _ _ _ => true
  | .vwmul _ _ => true
  | .vwmulh _ _ => true
  | .vwfma _ _ => true
  | .vwfmah _ _ => true
  | .vdot _ _ => true
  | .vreddot _ _ => true
  | .vredsum _ _ => true
  | .vredmax _ _ => true
  | .vredmin _ _ => true
  | .vredamax _ _ => true
  | .vrclr _ _ => true
  | .vrdrain _ _ => true
  | .vrdrainv _ _ => true
  | .vrexport _ _ => true
  | .vrimport _ _ => true
  | .vld _ _ => true
  | .vlds _ _ => true
  | .vst _ _ => true
  | .vsts _ _ => true
  | .vgather _ _ => true
  | .vscatter _ _ => true
  | .vrand _ _ => true
  | .vphilox _ _ => true
  | .vchain _ _ _ => true
  | .mvStream _ _ => true
  | .streamCompletion _ _ => true
  | .tprog _ _ => true
  | .tileProgramRun _ => true
  | .vacc _ _ _ => true
  | .vaccred _ _ _ => true
  | .vrscale _ _ => true
  | .vaccrel _ _ _ => true
  | .sinit _ _ => true
  | .sdelta _ _ => true
  | .ssolve _ _ => true
  | .ssolvet _ _ => true
  | .sresid _ _ => true
  | .sresidt _ _ => true
  | .sfree _ _ => true
  | .solverFenceStop _ _ _ _ _ => true
  | .solvBaseWrite _ _ _ => true
  | .solvRegionWrite _ _ _ => true
  | .alternateStart _ _ _ _ => true
  | .peerEventResume _ _ => true
  | .mvDma _ _ => true
  | .chunkLaunch _ _ => true
  | .tagCompletion _ _ _ _ => true
  | .errorRecordPost _ => true
  | .memoryRequest _ _ _ _ => true
  | .refreshBeat _ _ => true
  | .zeroFill _ _ => true
  | .scrubRead _ _ => true
  | .scrubNow _ => true
  | .rowReplace _ _ => true
  | .bondSwap _ _ => true
  | .mvErrqCfgWrite _ _ _ => true
  | .mvSend _ _ => true
  | .mvRecv _ _ => true
  | .recvCompletion _ _ => true
  | .frameSend _ => true
  | .frameReceive _ _ _ _ _ _ => true
  | .frameFailed _ _ => true
  | .messageRelease _ _ => true
  | .transferHorizonExpiry _ _ _ => true
  | .laneFailure _ _ => true
  | .laneSwap _ => true
  | .linkSyncEntry _ => true
  | .linkServiceEntry _ => true
  | .linkDown _ => true
  | .linkEnable _ => true
  | .linkDisable _ => true
  | .linkRetrain _ => true
  | .linkClearCounters _ => true
  | .coll _ _ => true
  | .collCompletion _ _ => true
  | .grpCtrlWrite _ _ _ => true
  | .groupChangeSubmit _ _ => true
  | .membershipChange _ => true
  | .create _ _ => true
  | .destroy _ _ => true
  | .ctxCfgWrite _ _ _ => true
  | .timetableSubmit _ => true
  | .timetableWithdraw _ _ => true
  | .timetableInstall _ _ => true
  | .withdrawalEffect _ _ => true
  | .admissionSettlement => true
  | .contextFence _ _ _ => true
  | .drainBound _ => true
  | .quiesceLimit _ => true
  | .contextReset _ _ _ => true
  | .treset _ _ _ => true
  | .tileReset _ => true
  | .partitionResetCmd _ _ => true
  | .partitionReset _ _ => true
  | .captureWrite => true
  | .escalation _ => true
  | .engineReset _ _ _ => true
  | .powerCycleRequest => true
  | .badgerFire _ => true
  | .pcieLinkDown => true
  | .pcieHotReset => true
  | .pfFlr => true
  | .vfFlr _ => true
  | .perst _ => true
  | .prov _ _ => true
  | .provCacheClear _ => true
  | .plevelRequest _ _ => true
  | .plevelChange => true
  | .dozeEntry _ => true
  | .dozeWake _ _ => true
  | .denAlarm _ => true
  | .denWake _ _ => true
  | .wakeStepTimeout _ => true
  | .hibEnter _ => true
  | .hibBlockStop _ => true
  | .hibAbort _ => true
  | .hibCommit _ => true
  | .hibWake _ => true
  | .hibAlarm _ => true
  | .hibWakeDone _ _ => true
  | .hibWakeFail _ => true
  | .padRelease _ => true
  | .foxLatch _ => true
  | .dumpWritten _ => true
  | .foxLatchAtWrite _ _ _ => true
  | .foxDumpBaseWrite _ _ _ => true
  | .sampleTrigger _ => true
  | .foxSampleWrite _ _ => true
  | .debugNop f => f.toNat / 2 ^ 104 % 8 == 0 || 4 ≤ f.toNat / 2 ^ 104 % 8
  | .debugPeek f => f.toNat / 2 ^ 104 % 8 == 1
  | .debugTake f => f.toNat / 2 ^ 104 % 8 == 2
  | .debugWrite f => f.toNat / 2 ^ 104 % 8 == 3
  | .extest => true
  | .idcode => true
  | .samplePreload => true
  | .bypass code => !([0x00, 0x01, 0x02, 0x10, 0x20] : List Nat).contains code.toNat
  | .scanPhys => true
  | .debugHalt _ => true
  | .tileHalted _ => true
  | .debugResume _ => true
  | .debugStep _ => true
  | .breakpointMatch _ => true
  | .partitionHalt _ => true
  | .partitionResume _ => true
  | .traceRecord _ _ _ => true
  | .traceData1Read => true
  | .qDbWrite _ _ _ _ => true
  | .commandFetch _ _ _ _ => true
  | .cmdNop _ _ => true
  | .run _ _ => true
  | .cmdDma _ _ _ _ => true
  | .memAlloc _ _ => true
  | .memFree _ _ => true
  | .completionPost _ _ => true
  | .irqMaskWrite _ _ => true
  | .mapImgWrite _ _ => true
  | .pfApertureAccess _ n _ data _ => 1 ≤ n.toNat && n.toNat ≤ 4096 && data < 2 ^ (8 * n.toNat)
  | .vfApertureAccess _ _ n _ data _ => 1 ≤ n.toNat && n.toNat ≤ 4096 && data < 2 ^ (8 * n.toNat)
  | .hostRegisterAccess _ _ _ _ _ => true
  | .mgmtRegRead _ => true
  | .mgmtRegWrite _ _ => true
  | .partWake _ => true
  | .mgmtEngineReset => true
  | .mgmtPowerCycle => true
  | .debugChallenge => true
  | .debugUnlock _ => true
  | .debugLock => true
  | .svnCommit => true
  | .bringUp _ _ _ _ => true
  | .timeStageEnd => true
  | .mainEnHigh _ _ => true
  | .mainPowerGood => true
  | .mainEnLow => true
  | .mainPowerLoss => true
  | .panelFault _ => true
  | .undervoltageRestart _ => true
  | .thermalSample _ _ _ _ => true
  | .ptpAnnounce _ _ _ => true
  | .inboundRequest _ _ _ => true
  | .pcieLinkUp => true
  | .pcieConfigWrite _ => true
  | .pcieCompletionTimeout _ _ => true
  | .panelSoftStart _ _ => true
  | .denPrepareTimeout _ => true

/-- Well-formed, as a proposition. -/
abbrev Instr.WellFormed (i : Instr) : Prop := i.wf = true

end Sys2Proof
end

