-- ==== Sys2Proof/Tests/Slice0.lean ====
section
/-!
SUPPORT. The package's own tests: ill-formed commands are refused; for each statement a witness, a concrete state and operands
that meet the hypotheses of its clauses; and worked examples of the spec.
-/
namespace Sys2Proof.Tests
open Sys2Proof Sys2Proof.Machine Sys2Proof.Claims

set_option Elab.async false

/-! ## Small states -/

/-- The state after reset with a tile in place of tile 0. -/
def at0 (T : Tile) : State := State.reset.setTile 0 T

/-- A tile in user mode that runs at 0x10000. -/
def user : Tile := { Tile.reset.setFld F.TILE_STATUS_MODE 0 with pc := 0x10000 }

/-- The same in handler mode. -/
def handler : Tile := { Tile.reset.setFld F.TILE_STATUS_MODE 1 with pc := 0x10000 }

/-- Fields of an instruction. -/
def abc : F3 := ⟨1, 2, 3, 0⟩
def abi : FI := ⟨1, 2, 64⟩

/-- A descriptor, or a command, from its words. -/
def desc (ws : List Nat) : Line := BitVec.ofNat 512 (ws.foldr (fun w n => w + n * 2 ^ 64) 0)

/-! ## Witnesses: scalar instructions -/

theorem witness_stepRunsFrontCommand : ({ State.reset with pending := [.warmUpDone] } : State).pending = .warmUpDone :: [] := rfl
theorem witness_emptyQueueTicks : State.reset.pending = [] := rfl

theorem witness_scalar_forms :
    (∃ op, aluValue (.add 0 abc) = some (0, abc, op)) ∧ (∃ op, mulValue (.div 0 abc) = some (0, abc, op)) ∧
    (∃ op, mulValue (.clz 0 ⟨1, 2, 0, 0⟩) = some (0, ⟨1, 2, 0, 0⟩, op)) ∧
    (∃ v, immValue (.addi 0 abi) = some (0, 1, [1, 2], v)) ∧ (∃ op, shiftValue (.shli 0 abi) = some (0, abi, op)) ∧
    loadForm (.ld64 0 abi) = some (0, abi, 8, false) ∧ storeForm (.st64 0 abi) = some (0, abi, 8) :=
  ⟨⟨_, rfl⟩, ⟨_, rfl⟩, ⟨_, rfl⟩, ⟨_, rfl⟩, ⟨_, rfl⟩, rfl, rfl⟩

theorem witness_scalar :
    Dispatches ((at0 user).tile 0) [1, 2, 3] ∧ Dispatches ((at0 user).tile 0) [1, 2] ∧ Dispatches ((at0 user).tile 0) [1] ∧
    Dispatches ((at0 user).tile 0) [1, 2, 0] ∧
    fetchable (((at0 user).tile 0).pc + 4) ∧ abc.k = 0 ∧ abi.imm.toNat < 256 ∧
    (accessAddr ((at0 user).tile 0) abi).toNat % 8 = 0 ∧ (accessAddr ((at0 user).tile 0) abi).toNat + 8 ≤ 0x300000 ∧
    ((at0 user).tile 0).waits (accessAddr ((at0 user).tile 0) abi).toNat 8 false = false ∧
    ((at0 user).tile 0).waits (accessAddr ((at0 user).tile 0) abi).toNat 8 true = false ∧
    ((at0 user).tile 0).hasUE (accessAddr ((at0 user).tile 0) abi).toNat 8 = false := by
  unfold Dispatches fetchable
  decide +kernel

/-- The hypotheses of BranchResults, taken (beq s1, s2 with both 0) and not taken (bne), and of JumpResults. -/
theorem witness_branch :
    (∃ p, branchTaken (.beq 0 abi) = some (0, abi, p) ∧ p (user.sreg 1) (user.sreg 2)) ∧
    (∃ p, branchTaken (.bne 0 abi) = some (0, abi, p) ∧ ¬ p (user.sreg 1) (user.sreg 2)) :=
  ⟨⟨_, rfl, rfl⟩, ⟨_, rfl, fun h => h rfl⟩⟩

theorem witness_jump :
    Dispatches ((at0 user).tile 0) [1, 2] ∧ fetchable (target ((at0 user).tile 0) 64) ∧ fetchable (accessAddr ((at0 user).tile 0) abi) := by
  unfold Dispatches fetchable
  decide +kernel

theorem witness_transfer :
    Dispatches ((at0 user).tile 0) [2] ∧ fetchable (((at0 user).tile 0).pc + 4) ∧ (user.sreg 2).toNat % 64 = 0 ∧
    (user.sreg 2).toNat + 64 ≤ 0x300000 ∧ user.waits (user.sreg 2).toNat 64 false = false ∧
    user.waits (user.sreg 2).toNat 64 true = false ∧ user.hasUE (user.sreg 2).toNat 64 = false := by
  unfold Dispatches fetchable
  decide +kernel

/-! ## Witnesses: exceptions -/

theorem witness_synchronousCauses :
    cause ((at0 user).tile 0) (.add 0 ⟨1, 2, 3, 5⟩) = some ([1, 2, 3], 1, 2, wordInfo (F3w ⟨1, 2, 3, 5⟩ 1 0)) ∧
    Dispatches ((at0 user).tile 0) [1, 2, 3] ∧ user.fld F.TILE_STATUS_MODE = 0 ∧
    cause ((at0 handler).tile 0) (.ld64 0 ⟨1, 2, 3⟩) = some ([1, 2], 3, 0, 3) ∧
    Dispatches ((at0 handler).tile 0) [1, 2] ∧ handler.fld F.TILE_STATUS_MODE = 1 ∧ user.events.fenced = none ∧
    Dispatches ((at0 { user with events := ⟨some 5, none, false⟩ }).tile 0) [1, 2, 3] := by
  unfold Dispatches
  decide +kernel

theorem witness_reservedFields :
    aluMinor (.popc 0 abc) = some (0, abc, 0x1A) ∧ (0x18 ≤ 0x1A ∧ abc.c ≠ 0) ∧
    transferForm (.kld 0 ⟨9, 2, 0, 0⟩) = some (0, ⟨9, 2, 0, 0⟩, 2, 8, 3) ∧ 8 ≤ (9 : BitVec 5).toNat ∧
    transferForm (.kld 0 ⟨1, 2, 3, 0⟩) = some (0, ⟨1, 2, 3, 0⟩, 2, 8, 3) ∧ abc.c ≠ 0 ∧
    Dispatches ((at0 (user.setS 2 32)).tile 0) [2] ∧ (((at0 (user.setS 2 32)).tile 0).sreg 2).toNat % 64 ≠ 0 := by
  unfold Dispatches
  decide +kernel

theorem witness_undefinedMinors :
    (0x01, List.range 14 ++ [0x10, 0x11, 0x12, 0x14, 0x15, 0x16, 0x17, 0x18, 0x19, 0x1A]) ∈ listedMinors ∧
    (∀ m : BitVec 8, m ∈ [0x0E#8, 0x13#8, 0x1B#8] →
      m.toNat ∉ List.range 14 ++ [0x10, 0x11, 0x12, 0x14, 0x15, 0x16, 0x17, 0x18, 0x19, 0x1A]) ∧
    (0x35, [0, 1, 2, 3]) ∈ listedMinors ∧ (4 : BitVec 8).toNat ∉ [0, 1, 2, 3] ∧
    ((at0 user).tile 0).ready [] = true ∧ user.fld F.TILE_STATUS_MODE = 0 ∧ user.events.fenced = none ∧
    user.hasUE user.pc.toNat 4 = false := by
  decide +kernel

theorem witness_fetchCauses :
    Tile.ready ((at0 { user with pc := 0x2FFFFC }).tile 0) [1, 2, 3] = true ∧
    ((at0 { user with pc := 0x2FFFFC }).tile 0).fld F.TILE_STATUS_MODE = 0 ∧
    0x300000 < ((at0 { user with pc := 0x2FFFFC }).tile 0).pc.toNat + 8 ∧ user.frozen 4 = false ∧ user.ue = [] ∧ user.events.fenced = none ∧
    Tile.ready ((at0 { user with ue := [0x10002] }).tile 0) [1, 2, 3] = true ∧ user.pc.toNat + 4 ≤ 0x300000 ∧
    user.pc.toNat ≤ 0x10002 ∧ 0x10002 < user.pc.toNat + 4 := by
  decide +kernel

/-- Tile 0 running the work of a RUN in queue 0 of context 1, whose TRAP_VEC is `vec`. -/
def trapping (vec : Nat) : State :=
  (at0 { user with work := some (1, 0) }).onQueue 1 0 (fun q => { q with cmd := BitVec.ofNat 512 (vec * 2 ^ 448) })

/-- Each clause of TrapTakesItsException: no work; an entry that is 0; CODE 0; an entry; handler mode. -/
theorem witness_trap :
    (Dispatches ((at0 user).tile 0) [] ∧ user.fld F.TILE_STATUS_MODE = 0 ∧ user.events.fenced = none ∧ ((at0 user).tile 0).work = none) ∧
    (Dispatches ((trapping 0).tile 0) [] ∧ ((trapping 0).tile 0).work = some (1, 0) ∧
      ((trapping 0).queue 1 0).word 7 % 2 ^ 22 = 0) ∧
    (Dispatches ((trapping 0x2000).tile 0) [] ∧ ((trapping 0x2000).tile 0).work = some (1, 0) ∧
      ((trapping 0x2000).tile 0).fld F.TILE_STATUS_MODE = 0 ∧
      ((trapping 0x2000).queue 1 0).word 7 % 2 ^ 22 = 0x2000 ∧ ((trapping 0x2000).tile 0).events.fenced = none ∧
      ((trapping 0x2000).tile 0).pc.toNat % 4 = 0 ∧
      (((trapping 0x2000).tile 0).ctlWord F.EXC_PC_PC.reg).toNat % 4 = 0) ∧
    Dispatches ((at0 handler).tile 0) [] ∧ handler.fld F.TILE_STATUS_MODE = 1 := by
  unfold Dispatches
  decide +kernel

theorem witness_eret :
    (Dispatches ((at0 handler).tile 0) [] ∧ handler.fld F.TILE_STATUS_MODE = 1 ∧ handler.events.fenced = none ∧
      fetchable (handler.ctlWord F.EXC_PC_PC.reg)) ∧
    (Dispatches ((at0 { handler with events := ⟨some 5, none, false⟩ }).tile 0) [] ∧
      ((at0 { handler with events := ⟨some 5, none, false⟩ }).tile 0).events.fenced = some 5) := by
  unfold Dispatches fetchable
  decide +kernel

theorem witness_asynchronousEvents :
    (∀ e ∈ ([⟨some 5, some 3, true⟩, ⟨none, some 3, true⟩, ⟨none, none, true⟩] : List Events),
      ((at0 { user with events := e }).tile 0).takesEvents = true ∧ ((at0 { user with events := e }).tile 0).stepping = false ∧
        ((at0 { user with events := e }).tile 0).skid ≤ 8) ∧
    (undefinedSub 0 0 = some 0 ∧ undefinedSub (packWord 0x01 0 0 0 0 0x3F) 0 = some 1 ∧ undefinedSub (F3w abc 1 0) 0 = none ∧
      ((at0 user).tile 0).ready [] = true ∧ user.fld F.TILE_STATUS_MODE = 0 ∧ user.hasUE user.pc.toNat 4 = false) := by
  decide +kernel

/-! ## Witnesses: barriers, sleep and the control space -/

/-- An X instruction in the queue: `fence`. -/
def queued : QEntry := { instr := .fence ⟨0, noF⟩, pc := 0x10000, sa := 0, sb := 0, sc := 0, desc := 0 }

theorem witness_barriers :
    (Dispatches ((at0 user).tile 0) [2] ∧ fetchable (user.pc + 4) ∧ ∀ q ∈ [2, 3, 4], user.queueDone q = true) ∧
    (Dispatches ((at0 { user with xq := [queued] }).tile 0) [] ∧
      ¬ ∀ q ∈ [2, 3, 4], (4 : BitVec 5).getLsbD (q - 2) = true → ({ user with xq := [queued] } : Tile).queueDone q = true) ∧
    (Tile.ready { user with barrier := .none } [] = true ∧ Tile.ready { user with barrier := .none, fresh := true } [] = true) ∧
    (∀ q ∈ [2, 3, 4], (7 : Nat).testBit (q - 2) = true → ({ user with barrier := .tsync 7 } : Tile).queueDone q = true) ∧
    (user.sreg 2).toNat * [1, 256, 1048576].getD 0 1 / 1048576 ≤ (at0 user).owl.ns / 1048576 + user.fld F.TILE_CFG_TWAIT_MAX ∧
    user.reached (at0 user).owl.ns ((user.sreg 2).toNat * [1, 256, 1048576].getD 0 1) = true ∧
    9000 / 1048576 ≤ (at0 user).owl.ns / 1048576 + (user.setS 2 9000).fld F.TILE_CFG_TWAIT_MAX ∧
    (user.setS 2 9000).reached (at0 user).owl.ns 9000 = false ∧
    ({ user with barrier := .twait 0 } : Tile).reached (at0 user).owl.ns 0 = true ∧ 0 < user.fld F.CLK_EPOCH_MULT := by
  unfold Dispatches fetchable
  decide +kernel

theorem witness_sleep :
    (Dispatches ((at0 user).tile 0) [] ∧ user.stepping = false ∧ user.fld F.TILE_STATUS_MODE = 0 ∧ user.events = Events.none) ∧
    (let T := (handler.setFld F.SLEEPCFG_STATE 1).setFld F.SLEEPCFG_ALARM_EN 1
     Dispatches ((at0 T).tile 0) [] ∧ T.fld F.TILE_STATUS_MODE = 1 ∧ T.fld F.SLEEPCFG_STATE = 1 ∧ T.fld F.SLEEPCFG_ALARM_EN = 1 ∧
      T.fld F.DEN_WAKE_AT_BEAT * 256 < (at0 T).owl.ns + 4096 ∧ fetchable (T.pc + 4)) ∧
    (let T := { handler.setFld F.SLEEPCFG_STATE 1 with xq := [queued] }
     Dispatches ((at0 T).tile 0) [] ∧ T.fld F.SLEEPCFG_STATE = 1 ∧ T.fld F.SLEEPCFG_ALARM_EN = 0 ∧ T.xq ≠ []) ∧
    (let T := { handler with den := some ⟨0, 0⟩, xq := [queued], barrier := .wait }
     T.xq ≠ [] ∧ 0 + 4096 ≤ ({ at0 T with owl := { Owl.start with ns := 4096 } } : State).owl.ns) := by
  unfold Dispatches fetchable
  decide +kernel

theorem witness_controlSpace :
    (allowed false false F.VTYPE_FMT.reg = true ∧ (findReg tileRegs F.VTYPE_FMT.reg).isSome = true) ∧
    (let a := F.EXC_SAVE0_SAVE.reg
     (∃ new, csrWrites (.csrw 0 ⟨1, 2, BitVec.ofNat 16 a⟩) = some (0, ⟨1, 2, BitVec.ofNat 16 a⟩, new)) ∧
      (BitVec.ofNat 16 a).toNat % 4096 = a ∧ allowed true true a = true ∧ (findReg tileRegs a).isSome = true ∧ handler.ctlHeld a = false) ∧
    (Dispatches ((at0 handler).tile 0) [1, 2] ∧ Dispatches ((at0 user).tile 0) [1, 2] ∧ allowed false true F.EXC_SAVE0_SAVE.reg = false ∧
      allowed false false 0x3FE = true ∧ (findReg tileRegs 0x3FE).isSome = false) :=
  ⟨by decide +kernel, ⟨⟨_, rfl⟩, by decide +kernel⟩, by unfold Dispatches; decide +kernel⟩

/-! ## Witnesses: the X queue, homes and movement -/

/-- An `amoadd` in the queue, with the address 0x100 of tile 0's own store and the operand 7. -/
def atomicEntry : QEntry :=
  { instr := .amoadd 0 abc, pc := 0x10000, sa := 0, sb := 0x1000000000000100, sc := 7, desc := 0 }

/-- A request for that word that waits at its home. -/
def request (k : XKind) (e : QEntry) (x : Piece) : XReq :=
  { kind := k, gen := 3, order := 1, entry := e, parent := 0, user := true, ctx := 0, pieces := [x], got := [], wrote := [],
    bad := [], total := 1, launched := 1, limit := 1, answer := none, code := 0, deadline := 0, done := false }

/-- The piece of an access of 8 bytes at 0x100 of tile 0's store. -/
def word0 : Piece := ⟨0, 2 ^ 60 + 0x100, 8, 0⟩

/-- Tile 0 with a request under tag 5. -/
def holding (r : XReq) : State := at0 { user with reqs := [(5, r)] }

theorem witness_xQueue :
    xForm (.amoadd 0 abc) = some (atomicForm 0 abc true (.amoadd 0 abc)) ∧ (atomicForm 0 abc true (.amoadd 0 abc)).good = true ∧
    addressCause (at0 user) 0 (user.sreg 2) 8 false = none ∧ user.ready [1, 2, 3] = true ∧ user.xq.length < 32 ∧
    user.tableRoom (xRanges user atomicEntry) false = true ∧ user.fetchFault 4 = none ∧ user.frozen 4 = false ∧ fetchable (user.pc + BitVec.ofNat 64 4) :=
  ⟨rfl, rfl, by unfold fetchable; decide +kernel⟩

theorem witness_atomicCauses :
    addressed (.amoadd 0 abc) = some (0, abc, 8, false) ∧
    addressCause (at0 (user.setS 2 0x104)) 0 ((user.setS 2 0x104).sreg 2) 8 false = some (0x0C, 0x104) ∧
    Tile.ready (user.setS 2 0x104) [1, 2, 3] = true ∧ (user.setS 2 0x104).xq.length < 32 ∧ (user.setS 2 0x104).fetchFault 4 = none ∧
    (user.setS 2 0x104).frozen 4 = false ∧ (user.setS 2 0x104).fld F.TILE_STATUS_MODE = 0 := by
  decide +kernel

theorem atHome_of (k : XKind) : AtHome (holding (request k atomicEntry word0)) 0 5 0 0x100 8 (request k atomicEntry word0) where
  held := rfl
  piece := ⟨word0, rfl, rfl, rfl, by cases k <;> decide +kernel⟩
  place := ⟨by decide, by decide⟩
  unanswered := rfl
  notWaiting := by cases k <;> decide +kernel
  served := by cases k <;> decide +kernel
  sound := by cases k <;> decide +kernel

/-- A tile whose live reservation is on that word, with a `commit` of it at the home. -/
def committing : State :=
  at0 { user with reqs := [(5, request .commit atomicEntry word0)], resv := some ⟨resvKey (2 ^ 60 + 0x100), 0, [], [], false⟩,
                  homes := [(4, ⟨some 0, 0, []⟩)] }

theorem atHome_committing : AtHome committing 0 5 0 0x100 8 (request .commit atomicEntry word0) where
  held := by decide +kernel
  piece := ⟨word0, rfl, rfl, rfl, by decide +kernel⟩
  place := ⟨by decide, by decide⟩
  unanswered := rfl
  notWaiting := by decide +kernel
  served := by decide +kernel
  sound := by decide +kernel

theorem witness_atomicsAtHome :
    (∃ new, atomicValue atomicEntry.instr = some new) ∧
    (holding (request .hold atomicEntry word0)).homeBusy (2 ^ 60 + 0 * 2 ^ 46 + 0x100) = false ∧
    ((holding (request .hold atomicEntry word0)).home (2 ^ 60 + 0 * 2 ^ 46 + 0x100)).waiting = [] ∧
    (resvKey (2 ^ 60 + 0x100) = (2 ^ 60 + 0 * 2 ^ 46 + 0x100) / 64 ∧ committing.tileCycle 0 < 0 + 256 ∧
      (committing.home (2 ^ 60 + 0 * 2 ^ 46 + 0x100)).holder = some 0 ∧ (committing.home (2 ^ 60 + 0 * 2 ^ 46 + 0x100)).status = 0 ∧
      (committing.home (2 ^ 60 + 0 * 2 ^ 46 + 0x100)).waiting = [] ∧ committing.fenced (committing.ctxOfTile 0) = false) ∧
    ((holding (request .commit atomicEntry word0)).tile 0).resv = none ∧
    (holding (request .commit atomicEntry word0)).fenced ((holding (request .commit atomicEntry word0)).ctxOfTile 0) = false ∧
    (∀ c ∈ [4, 3], c ∈ [1, 2, 3, 4, 5, 6, 7]) :=
  ⟨⟨_, rfl⟩, by decide +kernel⟩

theorem witness_reservationsEnd :
    (let s := { committing with owl := { Owl.start with ns := 300 } }
     (s.tile 0).resv = some ⟨resvKey (2 ^ 60 + 0x100), 0, [], [], false⟩ ∧ 0 + 256 ≤ s.tileCycle 0) ∧
    (let s := { committing.onTile 0 (fun T => { T with haltReq := some (0, 1) }) with owl := { Owl.start with ns := 64 } }
     (s.tile 0).haltReq = some (0, 1) ∧ (s.tile 0).power = .on ∧ s.resvLive 0 = true ∧ 0 + 64 ≤ s.tileCycle 0) ∧
    (let s := (holding (request .hold atomicEntry word0)).onTile 0 (fun T => { T with homes := [(4, ⟨none, 0, [(0, 5)]⟩)] })
     let g := 2 ^ 60 + 0 * 2 ^ 46 + (0x100 : BitVec 45).toNat % 2 ^ 22
     s.homeBusy g = false ∧ (s.home g).waiting = [(0, 5)] ∧ (s.tile 0).req 5 = some (request .hold atomicEntry word0) ∧
      word0.dst = g ∧ (s.tile 0).work = none) := by
  decide +kernel

/-- Partition 0 with one block, READY. -/
def ready : State :=
  let s := (State.reset.setPf 0 F.PART_RECT_X_N 1).setPf 0 F.PART_RECT_Y_N 1
  s.setPf 0 F.PART_STATUS_STATE 2

theorem witness_completions :
    ((at0 user).tile 0).req 5 = none ∧ (at0 user).ownerOfTile 0 = none ∧ (ready.tile 0).req 5 = none ∧ ready.ownerOfTile 0 = some 0 ∧
    (let r := { request .atomic atomicEntry word0 with answer := some 9 }
     ((holding r).tile 0).req 5 = some r ∧ r.gen = (3 : BitVec 16).toNat ∧ r.done = false ∧ r.bad = [] ∧ r.code = 0) ∧
    (let r := { request .hold atomicEntry word0 with answer := some 9 }
     ((holding r).tile 0).req 5 = some r ∧ r.gen = (3 : BitVec 16).toNat ∧ r.pieces = [word0] ∧ r.limit = 1) := by
  decide +kernel

/-- A part of a DMA with one piece of 64 bytes, number 0. -/
def line0 (src dst : Nat) : Piece := ⟨src, dst, 64, 0⟩
def part (src dst : Nat) (got : List (Nat × Nat)) : XReq := { request .part atomicEntry (line0 src dst) with got := got }

theorem witness_pieces :
    (let r := part 0x2000000000000000 0x1000000000000100 []
     let x := line0 0x2000000000000000 0x1000000000000100
     ((holding r).tile 0).req 5 = some r ∧ r.pieces.find? (fun y => y.idx == (0 : BitVec 21).toNat) = some x ∧ r.failed x = false ∧
      spaceOf x.src = 2 ∧ r.data x = none ∧ (holding r).serves (blockOf x.src) = true ∧ x.size = 64 ∧ x.src % 64 = 0 ∧
      (holding r).inOrder 0 5 r x.src x.idx = true ∧
      x.src % 2 ^ 48 ∉ (holding r).memPoison ∧ x.src % 2 ^ 48 ∉ (holding r).memUE) ∧
    (let r := part 0x1000000000000100 0x2000000000000000 [(0, 5)]
     let x := line0 0x1000000000000100 0x2000000000000000
     ((holding r).tile 0).req 5 = some r ∧ r.pieces.find? (fun y => y.idx == (0 : BitVec 21).toNat) = some x ∧ r.failed x = false ∧
      spaceOf x.dst = 2 ∧ r.data x = some 5 ∧ x.idx ∉ r.wrote ∧ (holding r).serves (blockOf x.dst) = true ∧ x.size = 64 ∧
      x.dst % 64 = 0 ∧ r.deadline = 0 ∧ r.behind x = false ∧ (holding r).inOrder 0 5 r x.dst x.idx = true) ∧
    (let r := part 0x1000000000000100 0x2000000000000000 []
     let x := line0 0x1000000000000100 0x2000000000000000
     ((holding r).tile 0).req 5 = some r ∧ r.pieces.find? (fun y => y.idx == (0 : BitVec 21).toNat) = some x ∧
      spaceOf x.src = 1 ∧ r.data x = none ∧ (holding r).refusedAt 0 (x.src / 2 ^ 46 % 2 ^ 14) = false ∧
      ((holding r).tile (x.src / 2 ^ 46 % 2 ^ 14)).hasUE (x.src % 2 ^ 22) x.size = false ∧
      (holding r).inOrder 0 5 r x.src x.idx = true) ∧
    (let r := part 0x2000000000000000 0x1000000000000100 [(0, 5)]
     let x := line0 0x2000000000000000 0x1000000000000100
     ((holding r).tile 0).req 5 = some r ∧ r.pieces.find? (fun y => y.idx == (0 : BitVec 21).toNat) = some x ∧
      spaceOf x.dst = 1 ∧ r.data x = some 5 ∧ x.idx ∉ r.wrote ∧ (holding r).refusedAt 0 (x.dst / 2 ^ 46 % 2 ^ 14) = false ∧
      r.deadline = 0 ∧ r.behind x = false ∧ (holding r).inOrder 0 5 r x.dst x.idx = true) := by
  decide +kernel

/-- A `mv.dma` of one line from 0x1000 to 0x2000 of the tile's own store; `w` holds its stamp. -/
def dmaF (w : Nat) : FX := ⟨1, 2, 3, 0, BitVec.ofNat 32 (2 ^ 15 + w)⟩
def dmaEntry (w : Nat) : QEntry :=
  { instr := .mvDma 0 (dmaF w), pc := 0x10000, sa := 0, sb := 0x1000, sc := 0, desc := BitVec.ofNat 512 (0x2000 * 2 ^ 64) }

theorem witness_chunks :
    let r := { request .dma (dmaEntry 0) word0 with pieces := [], launched := 0 }
    ((holding r).tile 0).req 5 = some r ∧ r.kind = .dma ∧ r.launched < r.total ∧ (((holding r).tile 0).parts 5).length < r.limit ∧
      ((holding r).tile 0).freeTags ≠ [] ∧ (holding r).mayLeave 0 = true ∧
      (holding r).heldBack 0 r.order ((holding r).chunkPieces ((holding r).ownerOfTile 0) 0 r) = false := by
  decide +kernel

theorem witness_xHead :
    (let s := at0 { user with xq := [dmaEntry 0] }
     let n := (dmaF 0).w1.toNat / 2 ^ 15
     (s.tile 0).frozen 4 = false ∧ s.mayLeave 0 = true ∧ (s.tile 0).fld F.DBG_STATUS_STOPPING = 0 ∧
      (s.tile 0).fld F.TILE_STATUS_DOUBLE = 0 ∧ stampOf (dmaEntry 0).instr = none ∧
      s.rangesFault (s.ownerOfTile 0) [(0, (dmaEntry 0).sb.toNat, 64 * n), (1, (dmaEntry 0).dst, 64 * n)] 64 = none ∧
      s.shared (s.ownerOfTile 0) 0 (dmaEntry 0).sb.toNat (dmaEntry 0).dst n = none ∧
      s.hostCause true (s.ctxOfTile 0) (dmaEntry 0).sb.toNat (64 * n) false = none ∧
      s.hostCause true (s.ctxOfTile 0) (dmaEntry 0).dst (64 * n) true = none ∧ 0 < n ∧ 0 < (s.tile 0).fld F.DMA_CFG_CHUNKS) ∧
    (let s := at0 { user with xq := [atomicEntry] }
     atomicFields atomicEntry.instr = some (abc, .atomic) ∧
      stackedOut (s.blockCount (s.ownerOfTile 0)) atomicEntry.sb.toNat (atomicSize atomicEntry.instr) = false ∧
      s.foreign (s.ownerOfTile 0) atomicEntry.sb.toNat = false) := by
  decide +kernel

theorem witness_stamps :
    let early := at0 { user with xq := [dmaEntry (2 ^ 12 + 9)] }
    let late := { at0 { user with xq := [dmaEntry (2 ^ 12 + 9)] } with owl := { Owl.start with ns := 256 * 10 } }
    let miss := { at0 { (user.setFld F.TILE_CFG_STAMP_LATE 1) with xq := [dmaEntry (2 ^ 12 + 9)] } with
                    owl := { Owl.start with ns := 256 * 10 } }
    stampOf (dmaEntry (2 ^ 12 + 9)).instr = some 9 ∧ early.owl.ns / 256 % 4096 < 9 ∧ 9 < late.owl.ns / 256 % 4096 ∧
      (late.tile 0).fld F.TILE_CFG_STAMP_LATE = 0 ∧ (miss.tile 0).fld F.TILE_CFG_STAMP_LATE = 1 ∧
      (miss.tile 0).fld F.TILE_STATUS_MODE = 0 ∧ (early.tile 0).stampAt = none ∧ early.mayLeave 0 = true ∧
      (early.tile 0).frozen 4 = false ∧ (early.tile 0).fld F.DBG_STATUS_STOPPING = 0 ∧ (early.tile 0).fld F.TILE_STATUS_DOUBLE = 0 ∧
      (miss.tile 0).events.fenced = none := by
  decide +kernel

theorem witness_records :
    (let r := { request .dma (dmaEntry 0) word0 with done := true, bad := [(0, 3, 0x2000000000000000)] }
     let s := holding r
     let u := s.onTile 0 (fun T => (T.setFld F.MV_ERRQ_CFG_BASE 0x4000).setFld F.MV_ERRQ_CFG_SIZE 4)
     (s.tile 0).nextRecord = some (5, r) ∧ (s.tile 0).fld F.MV_ERRQ_CFG_SIZE = 0 ∧
      (u.tile 0).nextRecord = some (5, r) ∧ (u.tile 0).fld F.MV_ERRQ_CFG_SIZE ≠ 0 ∧
      ((u.tile 0).fld F.MV_ERRQ_PTR_TAIL + 8192 - (u.tile 0).fld F.MV_ERRQ_PTR_HEAD) % 8192 ≠ 2 ^ (u.tile 0).fld F.MV_ERRQ_CFG_SIZE) ∧
    (let r := { request .stream atomicEntry word0 with pieces := [] }
     ((holding r).tile 0).req 5 = some r ∧ r.launched = r.total ∧ r.done = false ∧ r.answer = none ∧
      ((holding r).tile 0).parts 5 = [] ∧ r.code = 0) := by
  decide +kernel

theorem witness_hostTimeout :
    let q := { request .dma (dmaEntry 0) word0 with pieces := [], launched := 0 }
    let x := line0 0x3000000000000000 0x1000000000000100
    let r := { request .part (dmaEntry 0) x with parent := 6 }
    let T : Tile := { user with reqs := [(5, r), (6, q)] }
    ((at0 T).tile 0).req 5 = some r ∧ ((at0 T).tile 0).req r.parent = some q ∧ r.parent ≠ 5 ∧ spaceOf x.src = 3 ∧ r.got = [] ∧
      r.bad = [] ∧ r.pieces = [x] ∧ moveFields r.entry.instr = some (dmaF 0, .dma) ∧ q.launched < q.total := by
  decide +kernel

/-! ## Witnesses: matrix instructions -/

/-- What taking a new M or C instruction asks, as one condition. -/
theorem takes_of {T : Tile} {q len : Nat} {regs : List Nat}
    (h : T.ready (0 :: regs) = true ∧ T.run = none ∧ T.openRanges = [] ∧ T.queue q = [] ∧ T.frozen q = false ∧
      T.fetchFault len = none ∧ (T.pc + BitVec.ofNat 64 len).toNat % 4 = 0 ∧ (T.pc + BitVec.ofNat 64 len).toNat + 4 ≤ storeEnd) :
    Takes T q len regs :=
  ⟨h.1, h.2.1, h.2.2.1, h.2.2.2.1, h.2.2.2.2.1, h.2.2.2.2.2.1, h.2.2.2.2.2.2⟩

/-- Is an operand that was read finite and without error? -/
def finiteB : Exact × Bool → Bool
  | (.fin .., false) => true
  | _ => false

theorem finite_of (x : Exact × Bool) (h : finiteB x = true) : Finite x := by
  obtain ⟨x, b⟩ := x
  cases x <;> cases b <;> simp_all [finiteB, Claims.Finite]

/-- One output, K = 1, FP32 throughout: A at 0x1000, B (or the adapters) at 0x2000, row index 0x2800, C at 0x3000. -/
def mdesc (aT : Nat) : Line :=
  desc [0x1000 + 0x2000 * 2 ^ 24 + 2 ^ 48 + 2 ^ 52 + aT * 2 ^ 58, 0x2800 * 2 ^ 24, 64 + 64 * 2 ^ 24, 1 + 2 ^ 36 + 2 ^ 43, 0x3000 + 256 * 2 ^ 24 + 2 ^ 48]

/-- A tile with these descriptors and the operands 1.0 and 1.0; and one with a table of one adapter at 0x3000. -/
def mtile : Tile :=
  { user with d := [(1, mdesc 0), (2, mdesc 1)], store := [(0x1002, 0x80), (0x1003, 0x3F), (0x2002, 0x80), (0x2003, 0x3F)] }
def gtile : Tile := { user with d := [(1, mdesc 0)], store := [(0x2000, 1), (0x2009, 0x30), (0x200A, 0x40)] }

def fx (a : BitVec 5) (w1 : BitVec 32) : FX := ⟨a, 0, 0, 0, w1⟩

theorem witness_mmac :
    Takes ((at0 mtile).tile 0) 2 8 [] ∧
    (mmacOk (mtile.dreg 1) false = true ∧ mf (mtile.dreg 1) 5 32 24 = 0 ∧ mmacExtents (mtile.dreg 1) false = none) ∧
    (∀ r < mRows (mtile.dreg 1), ∀ k < mK (mtile.dreg 1), Finite ((opndA (mtile.dreg 1)).read mtile r k)) ∧
    (∀ c < mCols (mtile.dreg 1), ∀ k < mK (mtile.dreg 1), Finite ((opndB (mtile.dreg 1)).read mtile c k)) ∧
    (∀ cell, (mtile.laccAt cell).sp = .none ∧ -(2 ^ 4286 : Int) ≤ (mtile.laccAt cell).z ∧ (mtile.laccAt cell).z ≤ 2 ^ 4286) := by
  refine ⟨takes_of (by decide +kernel), by decide +kernel, ?_, ?_, fun cell => ⟨rfl, (by decide +kernel : -(2 ^ 4286 : Int) ≤ 0),
    (by decide +kernel : (0 : Int) ≤ 2 ^ 4286)⟩⟩
  · exact fun r hr k hk => finite_of _ ((by decide +kernel : ∀ r < mRows (mtile.dreg 1), ∀ k < mK (mtile.dreg 1),
      finiteB ((opndA (mtile.dreg 1)).read mtile r k) = true) r hr k hk)
  · exact fun r hr k hk => finite_of _ ((by decide +kernel : ∀ c < mCols (mtile.dreg 1), ∀ k < mK (mtile.dreg 1),
      finiteB ((opndB (mtile.dreg 1)).read mtile c k) = true) r hr k hk)

theorem witness_waits :
    (let T := { user with mq := [queued] }
     T.ready [0] = true ∧ T.fetchFault 8 = none ∧ T.frozen 2 = false ∧ T.mq ≠ [] ∧ T.mq.length < 8 ∧
      8 ≤ ({ user with mq := List.replicate 8 queued } : Tile).mq.length) ∧
    (let T := { user with cq := [queued] }
     T.ready [0, 2] = true ∧ T.fetchFault 4 = none ∧ T.frozen 3 = false ∧ T.cq ≠ [] ∧ T.cq.length < 16 ∧
      16 ≤ ({ user with cq := List.replicate 16 queued } : Tile).cq.length) := by
  decide +kernel

theorem witness_drains :
    Takes ((at0 mtile).tile 0) 2 8 [] ∧
    (mdrainOk (mtile.dreg 1) = true ∧ mf (mtile.dreg 1) 5 24 2 = 0 ∧ mf (mtile.dreg 1) 5 22 1 = 0 ∧ mf (mtile.dreg 1) 4 52 3 < 4 ∧
      fmtBits (mf (mtile.dreg 1) 4 48 4) % 8 = 0 ∧ drainFits (mtile.dreg 1) = (true, true) ∧
      mCols (mtile.dreg 1) * (fmtBits (drainRnd (mtile.dreg 1)).fmt / 8) ≤ mf (mtile.dreg 1) 4 24 24) ∧
    Takes ((at0 mtile).tile 0) 2 8 [3] ∧
    (mexportOk (mtile.dreg 1) = true ∧ mf (mtile.dreg 1) 4 0 22 + 544 * (activeCells (mtile.dreg 1)).length ≤ 0x300000 ∧
      mtile.scanRecords (mf (mtile.dreg 1) 4 0 22) (activeCells (mtile.dreg 1)).length (mf (mtile.dreg 1) 4 0 22) 0 =
        .inl ([Exact.ofInt 0 (-2148)], 8)) ∧
    (∀ cell, laccInRange (mtile.laccAt cell).z = true ∧ ((mtile.laccAt cell).sp ≠ .none → (mtile.laccAt cell).z = 0)) :=
  ⟨takes_of (by decide +kernel), by decide +kernel, takes_of (by decide +kernel), by decide +kernel, fun _ => ⟨(by decide +kernel : laccInRange 0 = true), fun _ => rfl⟩⟩

theorem witness_moments :
    Takes ((at0 mtile).tile 0) 2 8 [] ∧ mmomOk (mtile.dreg 2) = true ∧
    (opndA (mtile.dreg 2)).fits (16 * mRows (mtile.dreg 2)) = true ∧
    (∀ i < 16 * mRows (mtile.dreg 2), ∀ k < mK (mtile.dreg 2), Finite ((opndA (mtile.dreg 2)).read mtile i k)) ∧
    (let T := (mtile.setFld F.MSTATUS_MOMENTS 1).setFld F.MMOM_N_N 5
     Takes ((at0 T).tile 0) 2 8 [] ∧ mdrmomOk (T.dreg 2) = true ∧ T.fld F.MSTATUS_MOMENTS = 1 ∧
      1 < T.fld F.MMOM_N_N ∧ T.fld F.MMOM_N_N < 2 ^ 48 - 1 ∧
      mf (T.dreg 2) 4 0 22 + mf (T.dreg 2) 4 24 24 + 16 * mRows (T.dreg 2) * (fmtBits (drainRnd (T.dreg 2)).fmt / 8) ≤ 0x300000 ∧
      16 * mRows (T.dreg 2) * (fmtBits (drainRnd (T.dreg 2)).fmt / 8) ≤ mf (T.dreg 2) 4 24 24) :=
  ⟨takes_of (by decide +kernel), by decide +kernel, by decide +kernel,
    fun r hr k hk => finite_of _ ((by decide +kernel : ∀ i < 16 * mRows (mtile.dreg 2), ∀ k < mK (mtile.dreg 2),
      finiteB ((opndA (mtile.dreg 2)).read mtile i k) = true) r hr k hk),
    takes_of (by decide +kernel), by decide +kernel⟩

theorem witness_groups :
    Takes ((at0 gtile).tile 0) 2 8 [] ∧
    (mgrpOk (gtile.dreg 1) false = true ∧ mgrpFail gtile (gtile.dreg 1) false = none ∧ rowKind gtile (gtile.dreg 1) 0 = .matched 0) ∧
    finiteB ((opndA (gtile.dreg 1)).read gtile 0 0) = true ∧
    finiteB ((opndB (withAdapter gtile (gtile.dreg 1) 0)).read gtile 0 0) = true ∧
    mRows (gtile.dreg 1) = 1 ∧ mCols (gtile.dreg 1) = 1 ∧ mK (gtile.dreg 1) = 1 :=
  ⟨takes_of (by decide +kernel), by decide +kernel⟩

/-! ## Witnesses: the vector chain -/

/-- Four FP32 elements, without or with tangents; 32-bit integers have no tangents. -/
def ctile : Tile := (user.setFld F.VTYPE_VL 4).setFld F.VTYPE_FMT 1
def ttile : Tile := ctile.setFld F.VTYPE_TAN 1
def itile : Tile := (user.setFld F.VTYPE_VL 4).setFld F.VTYPE_FMT 10

def one : F3 := ⟨1, 2, 0, 0⟩

theorem witness_chain :
    (∀ regs ∈ [[], [1], [1, 3], [2, 3], [1, 2, 3]], Takes ((at0 ctile).tile 0) 3 4 regs) ∧ Takes ((at0 ttile).tile 0) 3 4 [] := by
  refine ⟨fun regs h => takes_of (by revert regs; decide +kernel), takes_of (by decide +kernel)⟩

theorem witness_chain_forms :
    (∃ o, laneOp (.vmv 0 one) = some o ∧ o.zero = true ∧ ctile.vt.accepts o.cls = true ∧ o.regs = []) ∧
    (∃ o, arithOp (.vfma 0 abc) = some o ∧ o.zero = true ∧ ctile.vt.accepts o.cls = true ∧ ttile.vt.accepts o.cls = true ∧ o.draws = true) ∧
    (ctile.vt.tan = false ∧ ttile.vt.tan = true ∧ ttile.vt.mode < 4 ∧ ctile.vt.mode < 4 ∧ ctile.vt.accepts .func = true ∧
      ctile.vt.accepts .compare = true ∧ ctile.vt.accepts .move = true ∧ ctile.vt.fmt = 1 ∧
      funcOp (.vexp 0 one) = some (0, one, 1) ∧ widenOp (.vwmul 0 abc) = some (0, abc, false, false)) ∧
    (∃ h, compareOp (.vceq 0 abc) = some (0, abc, h)) ∧ (∃ op, maskOp (.knot 0 one) = some (0, one, true, op)) :=
  ⟨⟨_, rfl, by decide +kernel⟩, ⟨_, rfl, by decide +kernel⟩, by decide +kernel, ⟨_, rfl⟩, ⟨_, rfl⟩⟩

/-- `vsetvl` with an image of FP64 in tangent mode; `cvt` of the upper half of a BF16 register to FP32. -/
theorem witness_vsetvl :
    (let img := ((ctile.setS 3 (2 ^ 19)).sreg 3).toNat
     bitsOf img 10 4 ∈ [0, 1, 2, 3, 4, 5, 7, 8, 10, 11] ∧ bitsOf img 14 3 ≤ 4 ∧ (bitsOf img 19 1 = 1 → bitsOf img 10 4 ≤ 1) ∧ img < 2 ^ 28) ∧
    (let src := (3 : BitVec 5).toNat % 16
     let part := (1 : BitVec 3).toNat + 8 * ((3 : BitVec 5).toNat / 16)
     src ∈ [0, 1, 2, 3, 4, 5, 7, 8, 10, 11] ∧ ctile.vt.accepts .cvt = true ∧
      part < max (laneW src) (laneW ctile.vt.fmt) / min (laneW src) (laneW ctile.vt.fmt)) := by
  decide +kernel

theorem summable_zero (x : Exact) (e : Int) (h : x = .fin false 0 1 e) : Summable x := by
  subst h
  refine ⟨⟨_, _, _, _, rfl⟩, ?_⟩
  simp [real, sgn]

theorem witness_roots :
    (∀ regs ∈ [[], [1], [2], [1, 3]], Takes ((at0 ctile).tile 0) 3 4 regs) ∧
    (∀ n ∈ actives ctile 0 ctile.vt.ew ctile.vt.n, Summable (laneVal ctile.vt.fmt ctile.vt.fxp (ctile.vreg 2) n)) ∧
    (actives ctile 0 ctile.vt.ew ctile.vt.n ≠ [] ∧ (ctile.root 1).kind = 0 ∧ (ctile.root 1).acc = ⟨0, .none⟩ ∧
      laccInRange 0 = true ∧ (ctile.sreg 2).toNat % 8 = 0 ∧ (ctile.sreg 2).toNat + 544 ≤ 0x300000) ∧
    (let hdr := littleEndian ctile.store (ctile.sreg 2).toNat 8
     let n := 8 * (1 + hdr / 2 ^ 8 % 2 ^ 7)
     (ctile.sreg 2).toNat + n ≤ 0x300000 ∧ ctile.hasUE (ctile.sreg 2).toNat n = false ∧
      recCanonical hdr (littleEndian ctile.store ((ctile.sreg 2).toNat + 8) (n - 8)) = true ∧
      recValue hdr (littleEndian ctile.store ((ctile.sreg 2).toNat + 8) (n - 8)) = Exact.ofInt 0 (-2148)) := by
  refine ⟨fun regs h => takes_of (by revert regs; decide +kernel), fun n hn => summable_zero _ (-149) (by revert n; decide +kernel),
    by decide +kernel, by decide +kernel⟩

theorem witness_winner : ∃ of, winOp (.vredmax 0 ⟨1, 2, 0, 0⟩) = some (0, ⟨1, 2, 0, 0⟩, 1, of, true) := ⟨_, rfl⟩

/-- A load and a scatter of four elements at 0. -/
theorem witness_chainMemory :
    (∀ regs ∈ [[2], [2, 3]], Takes ((at0 ctile).tile 0) 3 4 regs) ∧
    (∀ o, vmem ctile (.vld 0 one) = some o → o.zero = true ∧
      ∀ n ∈ actives ctile o.f.k.toNat o.ew (min ctile.vt.vl (4096 / o.ew)),
        o.addr n % (laneW ctile.vt.fmt / 8) = 0 ∧ o.addr n + ctile.vt.ew / 8 ≤ 0x300000 ∧
        (o.load = true → ctile.hasUE (o.addr n) (ctile.vt.ew / 8) = false)) := by
  refine ⟨fun regs h => takes_of (by revert regs; decide +kernel), ?_⟩
  rintro o ⟨⟩
  decide +kernel

theorem witness_random :
    ctile.vt.fmt ∈ [0, 1, 2, 3, 10] ∧ ctile.vt.tan = false ∧ Takes ((at0 ctile).tile 0) 3 4 [] ∧
    Takes ((at0 ctile).tile 0) 3 4 [3] :=
  ⟨by decide +kernel, by decide +kernel, takes_of (by decide +kernel), takes_of (by decide +kernel)⟩

/-! ## Witnesses: configured chains, tile programs and accumulators -/

theorem witness_configuredChain :
    (let c := ccOf ctile ⟨1, 2, 0, 0, 0, 0⟩
     c.refused 0 = false ∧ c.tan = false ∧ c.fma < 2 ∧ c.scl = 0 ∧ c.func = 0 ∧ c.cmp = 0 ∧ c.red = 0 ∧ c.armode < 4 ∧
      c.qrmode < 4 ∧ c.qmx = false) ∧
    Takes ((at0 ctile).tile 0) 3 8 [] :=
  ⟨by decide +kernel, takes_of (by decide +kernel)⟩

/-- A store with 64-bit words at some addresses. -/
def words (T : Tile) (l : List (Nat × Nat)) : Tile := l.foldl (fun T p => T.poke p.1 8 p.2) T

/-- At 0x20000 a program whose body is `vbcast v1, s2`, and at 0x22000 an epilogue program. -/
def ptile : Tile :=
  ((words ctile [(0x20000, 1 + 2 ^ 24 + 2 ^ 32), (0x20008, packWord 0x31 1 2 0 0 2),
    (0x22000, 1 + 2 ^ 24 + 2 ^ 31), (0x22008, packWord 0x31 1 2 0 0 2)]).setS 1 (0x30000 + 0x1000 * 2 ^ 24)).setS 2 0x20000 |>.setS 3 0x21000

/-- A pending run of a program. -/
def pending (epilogue : Bool) : ProgRun :=
  { entry := queued, epilogue := epilogue, prog := if epilogue then 0x22000 else 0x20000, frame := 0x21000, win := 0x30000,
    winSize := 0x1000, desc := mdesc 0, keep := false, released := false, fl := 0, cycles := 0, stalls := 0, steps := 0 }

theorem witness_tilePrograms :
    Takes ((at0 ptile).tile 0) 3 8 [1, 2, 3] ∧
    (ptile.tprogCheck (ptile.sreg 1) (ptile.sreg 2) (ptile.sreg 3) (FXw ⟨1, 2, 3, 0, 0⟩ 0x32 0x40) 0).2 = none ∧
    (ptile.header (pending false).prog = ⟨1, 0, 1, false, 1, 0⟩ ∧
      ptile.peek ((pending false).prog + 8) 4 = packWord 0x31 1 2 0 0 0x02 ∧ ptile.vt.accepts .move = true ∧
      ptile.vt.tan = false ∧ (pending false).frame + 256 ≤ 0x300000) :=
  ⟨takes_of (by decide +kernel), by decide +kernel, by decide +kernel⟩

theorem witness_accumulators :
    (ptile.run = none ∧ ptile.fld F.TILE_STATUS_MODE = 0 ∧ ptile.events.fenced = none ∧ ptile.ready [0] = true ∧ ptile.ue = [] ∧
      ptile.mq = [] ∧ ptile.cq = [] ∧ ptile.xq = [] ∧ ptile.reqs = []) ∧ Dispatches ((at0 ptile).tile 0) [] ∧
    (let T : Tile := { ptile with run := some (pending true) }
     let h := T.header (pending true).prog
     h.epilogue = true ∧ (0 : BitVec 7).toNat < ceilDiv (mRows (mdesc 0)) h.g ∧ (0 : BitVec 32).toNat < h.g ∧ h.g ≤ 64 ∧
      (drainRnd (mdesc 0)).mode < 4 ∧ (0 : BitVec 7).toNat + 1 = ceilDiv (mRows (mdesc 0)) h.g) ∧
    (let T : Tile := { ptile.setFld F.VTYPE_VL 1 with run := some (pending true) }
     (0 * 1 + 0) * mCols (mdesc 0) + min T.vt.vl (4096 / laneW (drainRnd (mdesc 0)).fmt) ≤ mRows (mdesc 0) * mCols (mdesc 0)) ∧
    (∀ cell, (ptile.laccAt cell).sp = .none ∧ -(2 ^ 4270 : Int) ≤ (ptile.laccAt cell).z ∧ (ptile.laccAt cell).z ≤ 2 ^ 4270) := by
  refine ⟨by decide +kernel, by unfold Dispatches; decide +kernel, by decide +kernel, by decide +kernel, fun cell => ⟨rfl, ?_, ?_⟩⟩
  · exact (by decide +kernel : -(2 ^ 4270 : Int) ≤ 0)
  · exact (by decide +kernel : (0 : Int) ≤ 2 ^ 4270)

/-- A root that holds 1.0, whose binary exponent is 0. -/
def rtile : Tile := { ptile with root0 := { Root.reset with acc := ⟨2 ^ 2148, .none⟩ }, run := some (pending false) }

theorem witness_vrscale :
    (0 < ceilDiv (mf (pending false).desc 3 36 7) (rtile.header (pending false).prog).g ∧ 0 < (rtile.header (pending false).prog).iter ∧
      (4 + 32 * 16 : BitVec 32).toNat = 4 + 32 * 16 ∧ rtile.vt.fmt = 1 ∧ rtile.vt.tan = false) ∧
    (2 : ℚ) ^ ((0 : ℤ) + 2148) ≤ |((rtile.root 0).acc.z : ℚ)| ∧ |((rtile.root 0).acc.z : ℚ)| < (2 : ℚ) ^ ((0 : ℤ) + 2149) := by
  have h : (rtile.root 0).acc.z = 2 ^ 2148 := by decide +kernel
  refine ⟨by decide +kernel, ?_, ?_⟩ <;> rw [h] <;> push_cast <;> rw [abs_of_pos (by positivity)]
  · exact le_rfl
  · exact pow_lt_pow_right₀ (by norm_num) (by norm_num)

/-! ## Witnesses: solvers -/

/-- Slot 0 ready: a dense Jacobi system 1.0 x = b of one unknown with WARM set, x = 0, and this STATUS, b and ATOL. -/
def stile (status b atol : Nat) : Tile :=
  (words (((user.setFld F.SOLV_BASE_BASE 0x100000).setFld F.SOLV_REGION_BASE 0x100000).setFld F.SOLV_REGION_SIZE 0x8000)
    [(0x100000, 2 ^ 4 + 2 ^ 16 + 2 ^ 40 + 2 ^ 48 + 2 ^ 56), (0x100008, 0x103000), (0x100018, 0x103040 + 0x103080 * 2 ^ 24),
     (0x100028, 0x104000), (0x100030, atol), (0x100048, status), (0x103000, 0x3FF0000000000000), (0x103040, b),
     (0x20000, 1), (0x20010, 2 * 2 ^ 17), (0x20018, 0x3FF0000000000000)]).setFld F.SOLV_READY_READY 1 |>.setS 2 1

theorem sound_stile (status b atol : Nat) (h : let T := stile status b atol
    (T.sdesc 0).ok = true ∧ T.badValue (T.sdesc 0) = none ∧ T.badExtent (T.sdesc 0) = none ∧ overlapBad (T.sdesc 0) [] = none) :
    Sound (stile status b atol) 0 false :=
  ⟨h.1, h.2.1, fun e => Bool.noConfusion e, h.2.2⟩

/-- A solve that ends with OUTCOME 2 (b = 0), and one that ends with OUTCOME 1 (b = 1 with ATOL 4). -/
theorem witness_convergence :
    (Sound (stile 32 0 0) 0 false ∧ (((stile 32 0 0).solveSlot 0 false false none).1.sdesc 0).status % 16 = 2 ∧
      0 < ((stile 32 0 0).sdesc 0).n) ∧
    (Sound (stile 32 0x3FF0000000000000 0x4010000000000000) 0 false ∧
      (((stile 32 0x3FF0000000000000 0x4010000000000000).solveSlot 0 false false none).1.sdesc 0).status % 16 = 1) :=
  ⟨⟨sound_stile _ _ _ (by decide +kernel), by decide +kernel⟩, sound_stile _ _ _ (by decide +kernel), by decide +kernel⟩

theorem witness_warmSolves :
    let T := stile 0 0 0
    Takes ((at0 T).tile 0) 2 4 [1, 2] ∧ T.sreg 2 = BitVec.ofNat 64 (2 ^ 0) ∧ T.slotReady 0 = true ∧
    Sound T 0 false ∧ (T.sdesc 0).warm = true ∧ (T.sdesc 0).status / 32 % 2 = 0 ∧ T.solvePoison (T.sdesc 0) false true = false ∧
    ∀ i < (T.sdesc 0).n, |residualOf T T 0 false i| ≤ real (decodeNum 0 0 (T.sdesc 0).atol) := by
  refine ⟨takes_of (by decide +kernel), by decide +kernel, by decide +kernel, sound_stile _ _ _ (by decide +kernel), by decide +kernel,
    by decide +kernel, by decide +kernel, fun i hi => ?_⟩
  obtain rfl : i = 0 := by
    have : ((stile 0 0 0).sdesc 0).n = 1 := by decide +kernel
    omega
  have h1 : systemRows (stile 0 0 0) 0 false = [[(0, .fin false 4503599627370496 1 (-52))]] := by decide +kernel
  have h2 : (stile 0 0 0).f64 (rightAt ((stile 0 0 0).sdesc 0) false + 8 * 0) = .fin false 0 1 (-1074) := by decide +kernel
  have h3 : (stile 0 0 0).f64 (unknownsAt ((stile 0 0 0).sdesc 0) false + 8 * 0) = .fin false 0 1 (-1074) := by decide +kernel
  have h4 : decodeNum 0 0 ((stile 0 0 0).sdesc 0).atol = .fin false 0 1 (-1074) := by decide +kernel
  have h0 : residualOf (stile 0 0 0) (stile 0 0 0) 0 false 0 = 0 := by
    simp only [residualOf, h1, h2, List.getD_cons_zero, List.map_cons, List.map_nil, h3]
    simp [real, sgn]
  rw [h0, h4]
  simp [real, sgn]

/-- Clause by clause: `sresid`; `sfree` and `sinit` of slot 0; `sdelta` of a list of one entry; a slot that is not ready; an `sdelta` that
a fence stops; and the values of the register writes. -/
theorem witness_solver :
    (let T := stile 32 0 0
     Takes ((at0 T).tile 0) 2 4 [1, 2] ∧
     T.solvePoison { T.sdesc 0 with status := 32 } false true = false ∧ T.sreg 2 ≠ 0 ∧ T.sinitFail [0] 0 = none) ∧
    (let T := (stile 32 0 0).setS 2 0x20000
     Takes ((at0 T).tile 0) 2 4 [1, 2] ∧ T.deltaFail (T.sreg 2).toNat = none ∧
     T.peek (T.sreg 2).toNat 8 = 1 ∧ (T.delta (T.sreg 2).toNat 0).target ≠ 0) ∧
    (let T := (stile 32 0 0).setFld F.SOLV_READY_READY 0
     Takes ((at0 T).tile 0) 2 4 [1, 2] ∧ T.slotReady 0 = false ∧ T.fld F.TILE_STATUS_MODE = 0 ∧ T.events.fenced = none) ∧
    (let T := { (stile 32 0 0).setS 2 0x20000 with work := some (0, 0), events := ⟨some 1, none, false⟩ }
     let s := (at0 T).setCf 0 F.CTX_FENCE_FENCED 1
     Takes (s.tile 0) 2 4 [1, 2] ∧ T.deltaFail (T.sreg 2).toNat = none ∧ (s.tile 0).work.isSome = true ∧
     s.fenced (s.ctxOfTile 0) = true ∧ (s.tile 0).events.fenced.isSome = true) ∧
    ((0x2000 : BitVec 64).toNat < 2 ^ 22 ∧ (0x2000 : BitVec 64).toNat % 128 = 0) := by
  refine ⟨⟨takes_of (by decide +kernel), by decide +kernel⟩,
    ⟨takes_of (by decide +kernel), by decide +kernel⟩, ⟨takes_of (by decide +kernel), by decide +kernel⟩,
    ⟨takes_of (by decide +kernel), by decide +kernel⟩, by decide⟩

/-! ## Witnesses: command queues -/

/-- Context 1 of partition 0, with queue 0 enabled, 16 entries deep, at host page 16. -/
def queues : State :=
  let b := queuePage 1 0
  ((((((ready.setCf 1 F.CTX_CFG_VALID 1).setCf 1 F.CTX_CFG_PART 0).setHf b F.Q_CFG_EN 1).setHf b F.Q_CFG_SIZE 4).setHf b F.CQ_BASE_ADDR 16).setHf
    b F.Q_PTR_TAIL 1)

/-- A command of those words at the head of that queue, in a phase. -/
def headed (phase : Nat) (ws : List Nat) : State :=
  queues.onQueue 1 0 (fun q => { q with phase := phase, cmd := desc ws })

theorem witness_queues :
    (let b := queuePage 1 0
     queues.hf b F.Q_CFG_EN = 1 ∧ queues.fenced 1 = false ∧
      ((5 : BitVec 64).toNat % 65536 + 65536 - queues.hf b F.Q_PTR_HEAD) % 65536 ≤ 2 ^ queues.hf b F.Q_CFG_SIZE ∧
      2 ^ queues.hf b F.Q_CFG_SIZE < ((17 : BitVec 64).toNat % 65536 + 65536 - queues.hf b F.Q_PTR_HEAD) % 65536 ∧
      queues.cf 1 F.CTX_CFG_VALID = 1 ∧ queues.linkUp = true ∧ queues.pstate (queues.cf 1 F.CTX_CFG_PART) = 2 ∧
      0 ≤ queues.cf 1 F.CTX_CFG_QUEUES ∧ (queues.queue 1 0).phase = 0 ∧ queues.hf b F.Q_PTR_HEAD ≠ queues.hf b F.Q_PTR_TAIL) ∧
    (let s := headed 3 [0]
     let b := queuePage 1 0
     (s.queue 1 0).phase = 3 ∧ s.linkUp = true ∧
      (s.hf b F.CQ_PTR_CTAIL + 65536 - s.hf b F.CQ_PTR_CHEAD) % 65536 < 2 ^ s.hf b F.Q_CFG_SIZE) ∧
    (let s := (headed 3 [0]).setHf (queuePage 1 0) F.CQ_PTR_CTAIL 16
     let b := queuePage 1 0
     2 ^ s.hf b F.Q_CFG_SIZE ≤ (s.hf b F.CQ_PTR_CTAIL + 65536 - s.hf b F.CQ_PTR_CHEAD) % 65536) := by
  decide +kernel

/-- Queue 0 waits under WAIT_MODE 1 for RECV of flow 5; queue 1 can start, queue 0 itself cannot; and one whose event has occurred. -/
theorem witness_waiting :
    (let s := ((((headed 1 [0, 1 + 5 * 2 ^ 8 + 2 ^ 32]).onQueue 1 0 (fun q => { q with waitFrom := some 0 })).onQueue 1 1
        (fun q => { q with phase := 1 })).setCf 1 F.CTX_TRAIN_CFG_WAIT_MODE 1).setCf 1 F.CTX_TRAIN_CFG_ALT_QMASK 3
     (s.queue 1 0).phase = 1 ∧ (s.queue 1 0).waitFrom.isSome = true ∧ (s.queue 1 0).eventAt = none ∧ (s.queue 1 0).covered = none ∧
      s.cf 1 F.CTX_TRAIN_CFG_WAIT_MODE = 1 ∧ s.peerDue (s.queue 1 0) = none ∧
      (s.cf 1 F.CTX_TRAIN_CFG_ALT_QMASK).testBit 1 = true ∧ s.headReady 1 1 = true) ∧
    (let s := (headed 1 [0]).onQueue 1 0 (fun q => { q with waitFrom := some 0 })
     (s.queue 1 0).phase = 1 ∧ (s.queue 1 0).waitFrom.isSome = true ∧ (s.queue 1 0).covered = none ∧ s.peerOccurred (s.queue 1 0) = true) := by
  decide +kernel

theorem startable_of {s : State} {c q : Nat}
    (h : (s.queue c q).phase = 1 ∧ (s.queue c q).waitFrom = none ∧ s.cf c F.CTX_CFG_VALID = 1 ∧ s.pstate (s.cf c F.CTX_CFG_PART) = 2 ∧
      s.cf c F.CTX_FENCE_FENCED = 0 ∧
      (s.pf (s.cf c F.CTX_CFG_PART) F.RECOV_CTL_SOLO_EN = 0 ∨ s.pf (s.cf c F.CTX_CFG_PART) F.RECOV_CTL_SOLO_CTX = c) ∧
      ((s.queue c q).eventAt ≠ none ∨
        ∀ w < 8, w ≠ q → (s.queue c w).phase = 1 → (s.queue c w).waitFrom ≠ none → (s.queue c w).eventAt ≠ none)) :
    Startable s c q := h

/-- A command with a reserved bit set; a NOP and an undefined opcode; MEM_ALLOC within and over the quota, with and without a free run;
MEM_FREE of an owned granule and of one that is not owned. -/
theorem witness_commands :
    (Startable (headed 1 [2 ^ 9]) 1 0 ∧ (headed 1 [2 ^ 9]).headBad 0 ((headed 1 [2 ^ 9]).queue 1 0) = true ∧
      ∃ opc, Claims.queued (.cmdNop 1 0) = some (1, 0, opc) ∧ opc ((headed 1 [2 ^ 9]).queue 1 0).opc = true) ∧
    (Startable (headed 1 [7]) 1 0 ∧ (headed 1 [7]).headBad 0 ((headed 1 [7]).queue 1 0) = false ∧ 7 ≤ ((headed 1 [7]).queue 1 0).opc) ∧
    (let s := headed 1 [5, 0, 3]
     Startable s 1 0 ∧ s.headBad (s.cf 1 F.CTX_CFG_PART) (s.queue 1 0) = false ∧ (s.queue 1 0).opc = 5 ∧
      (s.queue 1 0).cmd.toNat / 2 ^ 128 = 3 ∧ s.cf 1 F.CTX_QUOTA_MEM = 16777215 ∧ s.cf 1 F.CTX_USE_OVER_MEM = 0 ∧
      s.freeRun (s.cf 1 F.CTX_CFG_PART) 3 = some 0) ∧
    (let s := headed 1 [5, 0, 20000]
     s.freeRun (s.cf 1 F.CTX_CFG_PART) ((s.queue 1 0).cmd.toNat / 2 ^ 128) = none) ∧
    (let s := (headed 1 [5, 0, 3]).setCf 1 F.CTX_QUOTA_MEM 2
     Startable s 1 0 ∧ s.cf 1 F.CTX_QUOTA_MEM ≠ 16777215 ∧ s.cf 1 F.CTX_QUOTA_MEM < s.cf 1 F.CTX_USE_MEM_USED + 3) ∧
    (let s := headed 1 [6, 0, 0, 1]
     Startable s 1 0 ∧ s.headBad (s.cf 1 F.CTX_CFG_PART) (s.queue 1 0) = false ∧ (s.queue 1 0).opc = 6 ∧
      (s.queue 1 0).cmd.toNat < 2 ^ 256 ∧ (s.queue 1 0).cmd.toNat / 2 ^ 192 % 2 ^ 64 = 1 ∧
      (s.queue 1 0).cmd.toNat / 2 ^ 128 % 2 ^ 64 = 0 ∧ 0 + 1 ≤ 12288 * s.blockCount (some (s.cf 1 F.CTX_CFG_PART)) ∧
      s.granOwner 0 0 ≠ 1 + 1 ∧ (s.setGranules 0 0 1 2).granOwner 0 0 = 1 + 1) := by
  refine ⟨⟨startable_of (by decide +kernel), by decide +kernel, _, rfl, by decide +kernel⟩, ⟨startable_of (by decide +kernel), by decide +kernel⟩,
    ⟨startable_of (by decide +kernel), by decide +kernel⟩, by decide +kernel, ⟨startable_of (by decide +kernel), by decide +kernel⟩,
    startable_of (by decide +kernel), by decide +kernel⟩

/-- An address of the stacked memory of the partition (VIEW 1), and of the host. -/
def stacked (o : Nat) : Nat := 2 * 2 ^ 60 + 2 ^ 45 + o
def hosted (o : Nat) : Nat := 3 * 2 ^ 60 + o

/-- A DMA of 64 bytes, with a window of 1 MiB at host address 0 open for reads and writes. -/
def copying (src dst : Nat) : State :=
  let s := headed 1 [2, 0, src, dst, 64, 0]
  let c := ctxPage 1
  { ((s.setHf c F.CTX_HWIN_SIZE_MB 1).setHf c F.CTX_HWIN_RD 1).setHf c F.CTX_HWIN_WR 1 with master := [0] }

theorem witness_dma :
    ∀ x ∈ [(hosted 0, hosted 0x1000), (hosted 0, stacked 0), (stacked 0, hosted 0x1000)],
      let s := copying x.1 x.2
      let Q := s.queue 1 0
      Startable s 1 0 ∧ s.headBad (s.cf 1 F.CTX_CFG_PART) Q = false ∧ Q.opc = 2 ∧ Q.cmd.toNat < 2 ^ 384 ∧ Q.word 5 < 2 ∧ Q.word 4 = 64 ∧
      s.dmaBad (s.cf 1 F.CTX_CFG_PART) 1 (Q.word 2) 64 false = false ∧ s.dmaBad (s.cf 1 F.CTX_CFG_PART) 1 (Q.word 3) 64 true = false ∧
      s.linkUp = true ∧ Q.word 2 = x.1 ∧ Q.word 3 = x.2 ∧ overlaps (Q.word 2) 64 (Q.word 3) 64 = false ∧
      s.memUE = [] ∧ s.memPoison = [] := by
  intro x hx
  exact ⟨startable_of (by revert x; decide +kernel), by revert x; decide +kernel⟩

/-- A RUN of one line at 0x10000 on tile 0, where tile 0 is free and where it runs other work. -/
def running (T : Tile) : State :=
  (headed 1 [1, 0, stacked 0, 64 + 0x10000 * 2 ^ 24, 0x10000, 2 ^ 7 + 2 ^ 21]).setTile 0 T

theorem witness_run :
    (let s := running user
     let Q := s.queue 1 0
     Startable s 1 0 ∧ s.headBad 0 Q = false ∧ Q.opc = 1 ∧ s.runBad 0 Q = false ∧ Q.rectangle.any (fun t => (s.tile t).work.isSome) = false ∧
      s.rangeError 0 (Q.word 2) (Q.word 3 % 2 ^ 22) = 0) ∧
    (let s := running { user with work := some (1, 1) }
     let Q := s.queue 1 0
     s.runBad 0 Q = false ∧ Q.rectangle.any (fun t => (s.tile t).work.isSome) = true) := by
  exact ⟨⟨startable_of (by decide +kernel), by decide +kernel⟩, by decide +kernel⟩

/-- A PROV of the descriptor at 0: with one extent of 64 bytes at 0x1000 and the record for the host; empty, which is malformed; and in
a line that is poisoned. -/
def proving (ws : List (Nat × Nat)) : State :=
  let s := headed 1 [4, 0, stacked 0]
  { s with mem := ws.foldl (fun m p => memWrite m p.1 8 p.2) s.mem }

theorem witness_provenance :
    (let s := { proving [] with memPoison := [0] }
     Startable s 1 0 ∧ s.headBad 0 (s.queue 1 0) = false ∧ (s.queue 1 0).opc = 4 ∧ (s.queue 1 0).cmd.toNat < 2 ^ 192 ∧
      s.viewBad 0 ((s.queue 1 0).word 2) 64 = false ∧ s.rangeError 0 ((s.queue 1 0).word 2) 64 ≠ 0) ∧
    (let s := proving []
     let g := (s.queue 1 0).word 2
     s.rangeError 0 g 64 = 0 ∧ s.rangeError 0 g (64 + 16 * (s.partWord 0 g / 2 ^ 48 % 2 ^ 7)) = 0 ∧ s.provBad 0 g = true) ∧
    (let s := proving [(0, 0x56525044 + 2 ^ 32 + 2 ^ 48), (8, hosted 0x1000), (64, stacked 0x1000), (72, 64)]
     let g := (s.queue 1 0).word 2
     Startable s 1 0 ∧ s.viewBad 0 g 64 = false ∧ s.rangeError 0 g 64 = 0 ∧ s.partWord 0 g / 2 ^ 48 % 2 ^ 7 = 1 ∧
      s.rangeError 0 g (64 + 16 * 1) = 0 ∧ s.provBad 0 g = false ∧ s.provOverlap 0 g = false ∧
      s.rangeError 0 (s.partWord 0 (g + 64)) (s.partWord 0 (g + 72) % 2 ^ 40) = 0) ∧
    (let r : ProvRun := { key := 8, dst := hosted 0x1000, user := 7, head := 0, comps := [], read := 0, hit := 0 }
     let s := (headed 2 [4, 0, stacked 0]).onPart 0 (fun P => { P with provs := [r] })
     (s.queue 1 0).phase = 2 ∧ (s.part 0).provs.find? (fun x => x.key == 8) = some r ∧ spaceOf r.dst = 3 ∧ s.linkUp = true) := by
  exact ⟨⟨startable_of (by decide +kernel), by decide +kernel⟩, by decide +kernel,
    ⟨startable_of (by decide +kernel), by decide +kernel⟩, by decide +kernel⟩

/-- An instance of group 3 whose one report at 0x2000 reads DONE; a COLL of a descriptor at 0; registers of groups, and a change that is
due. -/
theorem witness_collectives :
    (let i : Coll := ⟨3, 0, 1, 0, 0, 0, 0, stacked 0x2000, 1, 0, false⟩
     let s := { headed 2 [3, 0, stacked 0] with colls := [i], mem := [(0x2000, 1)] }
     s.colls.find? (fun x => x.ctx == 1 && x.queue == 0) = some i ∧ s.collFirst i = true ∧
      s.partWord i.part (i.report + 8 * 0) % 2 = 1 ∧
      (s.hf (queuePage 1 0) F.CQ_PTR_CTAIL + 65536 - s.hf (queuePage 1 0) F.CQ_PTR_CHEAD) % 65536 < 2 ^ s.hf (queuePage 1 0) F.Q_CFG_SIZE ∧
      s.linkUp = true) ∧
    (let s := headed 1 [3, 0, stacked 0]
     Startable s 1 0 ∧ s.headBad 0 (s.queue 1 0) = false ∧ (s.queue 1 0).opc = 3 ∧ (s.queue 1 0).cmd.toNat < 2 ^ 192 ∧
      s.extentBad 0 ((s.queue 1 0).word 2) 128 64 = false) ∧
    (ready.hf (groupPage 3) F.GRP_CTRL_VALID = 0 ∧ ready.groupBad 3 0 1 = true ∧ (2 ^ 5 + 1 : BitVec 64).toNat = 1 + 32 * 1 ∧
      (32 : BitVec 64).toNat % 2 = 0) ∧
    (let s := (ready.setHf (groupPage 3) F.GRP_CTRL_VALID 1).setEf F.GRP_CHG_AT_ROUND 5
     s.hf (groupPage 3) F.GRP_CTRL_VALID = 1 ∧ s.hf (groupPage 3) F.GRP_STATUS_PEND = 0 ∧ s.round + 2 ≤ s.ef F.GRP_CHG_AT_ROUND ∧
      hallBad (s.hf (groupPage 3) F.GRP_CTRL_AXES) (s.hostWord F.GRP_STAGE_HALL_X_LO.reg).toNat = false) ∧
    (let s := ready.setHf (groupPage 3) F.GRP_CTRL_VALID 1
     s.hf (groupPage 3) F.GRP_CTRL_VALID = 1 ∧ ¬ s.round + 2 ≤ s.ef F.GRP_CHG_AT_ROUND) ∧
    (let s := { ready with changes := [(3, 0, [0, 0, 0, 0])] }
     s.changes.find? (fun x => x.1 == 3) = some (3, 0, [0, 0, 0, 0]) ∧ 0 ≤ s.round) := by
  exact ⟨by decide +kernel, ⟨startable_of (by decide +kernel), by decide +kernel⟩, by decide +kernel⟩

/-! ## Witnesses: memory blocks, links and flows -/

/-- The state after reset at another hall tick. -/
def atTick (n : Nat) (s : State) : State := { s with owl := { s.owl with ns := n } }

theorem witness_blocks :
    ((atTick (31 * 256) State.reset).owl.ns / 256 % 32 = 31 ∧ State.reset.owl.ns / 256 % 32 ≠ 31 ∧
      State.reset.hf (blockPage 3) F.MEM_STATUS_HOT ≠ 1) ∧
    (State.reset.setHf (blockPage 3) F.MEM_STATUS_FILLING 1).hf (blockPage 3) F.MEM_STATUS_FILLING = 1 ∧
    (let s := State.reset.setHf (blockPage 3) F.MEM_SCRUB_CFG_EN 1
     s.hf (blockPage 3) F.MEM_SCRUB_CFG_EN = 1 ∧ s.serves 3 = true ∧ (s.block 3).scrubAt < blockBytes ∧
      s.memPoison.contains (3 * 2 ^ 35 + (s.block 3).scrubAt) = false) ∧
    (let s := (atTick (31 * 256) State.reset).onBlock 3 (fun B => { B with rowDue := [3 * 2 ^ 35] })
     s.refreshBeat 3 s.beat = true ∧ (s.block 3).rowDue.contains (3 * 2 ^ 35 + (0 : BitVec 35).toNat) = true ∧
      (s.block 3).sparesUsed.contains (groupKey (3 * 2 ^ 35 + (0 : BitVec 35).toNat)) = false) := by
  decide +kernel

/-- An error ring of 16 records at 0x4000; and a `mv.recv` of two ends of flow 5 of link 0, which have come. -/
theorem witness_receives :
    (let w : BitVec 64 := BitVec.ofNat 64 (0x4000 + 4 * 2 ^ 24)
     w.toNat / 2 ^ 22 % 4 = 0 ∧ w.toNat % 2 ^ 22 % 16 = 0 ∧ (4 ≤ w.toNat / 2 ^ 24 ∧ w.toNat / 2 ^ 24 ≤ 12) ∧
      w.toNat % 2 ^ 22 + 16 * 2 ^ (w.toNat / 2 ^ 24) ≤ 0x300000) ∧
    (let e : QEntry := { instr := .mvRecv 0 ⟨1, 2, 3, 0, 0⟩, pc := 0x10000, sa := 0, sb := 5 * 64, sc := 0, desc := 0 }
     let r := { request .recv e word0 with pieces := [], total := 2, launched := 2 }
     let s := (holding r).onFlow (flowKey 0 5) (fun f => { f with ends := 2, since := [(0, 0), (0, 0)] })
     (s.tile 0).req 5 = some r ∧ r.done = false ∧ r.bad = [] ∧
      ((s.flow (flowKey (r.entry.sb.toNat % 64) (r.entry.sb.toNat / 64 % 2 ^ 12))).since.take r.total).length = r.total ∧
      ∀ x ∈ (s.flow (flowKey (r.entry.sb.toNat % 64) (r.entry.sb.toNat / 64 % 2 ^ 12))).since.take r.total,
        x.1 ≠ 19 ∧ x.1 ≠ 3 ∧ x.1 ≠ 16 ∧ x.1 ≠ 17) := by
  decide +kernel

/-- Link 0 in a state, with the engine at a tick. -/
def linked (state tick : Nat) : State := atTick tick (ready.setLf 0 F.LINK_STATUS_STATE state)

/-- An open message of one line for 0x1000 of tile 0, as it is held and as it stands in a frame. -/
def message (flow deadline : Nat) : Msg :=
  { beat := 0, dest := 2 ^ 60 + 0x1000, flow := flow, seq := 0, last := true, deadline := deadline, tile := 0, tag := 0, part := 0, ctx := 0,
    rxBeats := 0, lines := [5] }
def wire : WireMsg := (desc [2 ^ 60 + 0x1000, 2 ^ 28 + 2 ^ 37, 0, 0], [5])

theorem witness_frames :
    (let s := linked 3 (256 * 9)
     s.lstate 0 ≠ 0 ∧ (s.link 0).lastTx ≠ s.beat ∧ (s.link 0).hopeless s.beat (s.lf 0 F.LINK_STATUS_LINK_BEATS) = []) ∧
    ((linked 3 0).link 0).lastTx = (linked 3 0).beat ∧
    (let s := (linked 3 (256 * 4000)).onLink 0 (fun L => { L with flight := [(7, [message 5 100000])] })
     s.lstate 0 ≠ 0 ∧ (s.link 0).flight.find? (fun f => f.1 == (7 : BitVec 56).toNat) = some ((7 : BitVec 56).toNat, [message 5 100000]) ∧
      ((7 : BitVec 56).toNat + s.lf 0 F.LINK_STATUS_RD) * 256 ≤ s.owl.ns ∧
      canSend (s.lf 0 F.LINK_STATUS_LINK_BEATS) (retryBeat s.beat) (message 5 100000) = true) ∧
    (let s := linked 3 0
     let m := msgOf wire.1 wire.2
     2 ≤ s.lstate 0 ∧ (s.link 0).flight = [] ∧ (s.link 0).failed = [] ∧ m.lines ≠ [] ∧ m.flow = 0 ∧ s.destBad 0 m = false ∧
      (s.link 0).held = [] ∧ seqOld ((s.link 0).rxSeq.get (fun _ => 0) m.flow) m.seq = false) ∧
    (let s := linked 3 0
     let m := msgOf (desc [2 ^ 60 + 0x1000, 5 + 2 ^ 28, 9, 0]) [5]
     m.flow ≠ 0 ∧ (s.flow (flowKey 0 m.flow)).closed = false ∧ (s.flow (flowKey 0 m.flow)).lost = false ∧
      (s.flow (flowKey 0 m.flow)).lastD < m.deadline) := by
  decide +kernel

/-- A timetable with a flow entry: flow 5 of link 0 of this engine, due in beat 10. -/
def flows : TTable :=
  { part := 0, id := 2, ctx := 1, count := 1, start := 0, plevel := 0,
    entries := [{ w0 := 3 + 10 * 2 ^ 4 + 2 ^ 32 + 100 * 2 ^ 44, w1 := 5 * 2 ^ 6 + 2 ^ 32, w2 := 0, w3 := 0, epoch := 0, freed := false }],
    installed := true, suspended := false, withdrawn := none, gone := false }

theorem witness_messages :
    (let s := (linked 3 0).onLink 0 (fun L => { L with held := [message 0 0] })
     s.nextHeld 0 (0 : BitVec 12).toNat = some (message 0 0) ∧ (message 0 0).dest = 2 ^ 60 + 0 * 2 ^ 46 + 0x1000 ∧
      0x1000 + 64 * (message 0 0).lines.length ≤ 0x300000 ∧ s.destRefuses (message 0 0) = false) ∧
    (let s := { linked 3 (256 * 40000) with tables := [flows] }
     (s.flowDue 0 (5 : BitVec 12).toNat).any (fun d => (d + s.lf 0 F.LINK_CFG_HORIZON) * 256 ≤ s.owl.ns) = true) ∧
    (let r := { request .dma (dmaEntry 0) word0 with pieces := [], launched := 0, deadline := 9 }
     let s := atTick (256 * 40000) (holding r)
     (s.tile 0).req 5 = some r ∧ r.deadline ≠ 0 ∧ r.done = false ∧ r.launched < r.total ∧
      (r.deadline + s.ef F.NET_CFG_HORIZON) * 256 ≤ s.owl.ns) := by
  decide +kernel

theorem witness_linkStates :
    (let s := (linked 1 0).onLink 0 (fun L => { L with goodRound := 1 })
     s.lstate 0 = 1 ∧ 0 < (s.link 0).goodRound) ∧
    (let s := (linked 2 1048576).onLink 0 (fun L => { L with goodRound := 8192 })
     s.lstate 0 = 2 ∧ s.owl.ns % 1048576 = 0 ∧ 4096 + ((s.link 0).ackBase + 1) % 4096 ≤ (s.link 0).goodRound) ∧
    (linked 3 0).lstate 0 ≠ 0 ∧ (linked 0 0).lstate 0 = 0 ∧
    (let s := (linked 3 0).onLink 0 (fun L => { L with discards := 16 })
     s.lstate 0 = 3 ∧ 16 ≤ (s.link 0).discards) ∧
    (let s := (linked 3 0).onLink 0 (fun L => { L with swapAt := some (4, 0) })
     (s.link 0).swapAt = some (4, 0) ∧ 4 < 9 ∧ 0 * 256 ≤ s.owl.ns) := by
  decide +kernel

/-! ## Witnesses: partitions, contexts and timetables -/

/-- Bring-up is complete. -/
def up (s : State) : State := s.setEf F.BOOT_STATUS_STAGE 8

/-- A partition of one block that has not been created; one that has; one whose rectangle is empty; one that holds a context. -/
theorem witness_partitions :
    (let s := up (ready.setPf 0 F.PART_STATUS_STATE 0)
     s.ef F.BOOT_STATUS_STAGE = 8 ∧ s.engReset = none ∧ s.rect 0 = (0, 1, 0, 1) ∧ s.pstate 0 = 0 ∧
      (∀ b ∈ s.blocksOf 0, (s.ownerOfBlock b).isSome = false ∧ s.vacant b = false) ∧ (s.part 0).step = none) ∧
    (up State.reset).rect 0 = (0, 0, 0, 0) ∧
    ((up ready).pstate 0 ≠ 0 ∧ (up ready).partHolds 0 = false ∧ (up queues).partHolds 0 = true ∧ (up queues).pstate 0 ≠ 0) ∧
    (let s := (up ready).onPart 0 (fun P => { P with step := some (0, 1), mode := 2 })
     (s.part 0).step = some (0, 1) ∧ s.pf 0 F.HIB_STATUS_PHASE = 0 ∧ (s.part 0).mode = 2) ∧
    (let s := (up ready).onPart 0 (fun P => { P with step := some (0, 1), mode := 1 })
     (s.part 0).mode = 1 ∧ (∀ t ∈ s.tilesOf 0, (s.tile t).homes = [] ∧ (s.tile t).marked = false) ∧
      ∀ b ∈ s.blocksOf 0, (s.block b).retire = false ∧ s.vacant b = false) ∧
    (ready.cf 1 F.CTX_CFG_VALID = 0 ∧ (1 : BitVec 64).toNat % 2 = 1 ∧ ready.pstate ((1 : BitVec 64).toNat / 2 % 16) = 2 ∧
      ready.pstate ((3 : BitVec 64).toNat / 2 % 16) ≠ 2) := by
  decide +kernel

/-- An image at 0 of one entry, a line from tile 0 to tile 1 in beat 1; and an empty image, which is malformed. -/
def submitted : State :=
  let s := (queues.setPf 0 F.ADM_ADDR_ADDR (stacked 0)).setEf F.TIME_STATE_STATE 2
  let image := [(0, 0x31545442 + 2 ^ 32), (8, 1 + 2 ^ 16), (16, 2), (24, s.plevel), (64, 2 ^ 4 + 2 ^ 32 + 1000 * 2 ^ 44), (72, 1), (80, 8)]
  { s with mem := image.foldl (fun m p => memWrite m p.1 8 p.2) s.mem }

theorem witness_timetables :
    (let s := queues.setPf 0 F.ADM_ADDR_ADDR (stacked 0)
     s.judge 0 (s.pf 0 F.ADM_ADDR_ADDR) = .inl (1, 0)) ∧
    submitted.judge 0 (submitted.pf 0 F.ADM_ADDR_ADDR) =
      .inr [{ w0 := 2 ^ 4 + 2 ^ 32 + 1000 * 2 ^ 44, w1 := 1, w2 := 8, w3 := 0, epoch := 0, freed := false }] ∧
    (let s := { ready with tables := [flows] }
     (∃ tb ∈ s.tables, tb.part = 0 ∧ tb.id = (2 : BitVec 8).toNat) ∧ ∀ tb ∈ s.tables, ¬ (tb.part = 0 ∧ tb.id = (3 : BitVec 8).toNat)) ∧
    (let s := atTick (5 * 1048576) { ready with tables := [{ flows with withdrawn := some 3 }] }
     ∃ tb ∈ s.tables, tb.part = 0 ∧ tb.id = (2 : BitVec 8).toNat ∧ (tb.withdrawn.any (fun r => r < s.owl.ns / 1048576)) = true) ∧
    (atTick 1048576 State.reset).owl.ns % 1048576 = 0 := by
  decide +kernel

/-! ## Witnesses: fences and resets -/

/-- Context 1 fenced, with its drain bound at tick 0. -/
def fenced (tick : Nat) : State :=
  atTick tick ((queues.setCf 1 F.CTX_FENCE_FENCED 1).onCtx 1 (fun c => { c with drainAt := some 0 }))

/-- Tile 0 runs context 1 with an instruction in its queue. -/
def runs1 : Tile := { user.setFld F.TILE_STATUS_CTX_ID 1 with work := some (1, 0), xq := [queued] }

theorem witness_fences :
    (queues.cf 1 F.CTX_CFG_VALID = 1 ∧ queues.fenced 1 = false ∧ (queues.ctx 1).fenceDue = none) ∧ queues.cf 2 F.CTX_CFG_VALID = 0 ∧
    ((fenced 0).cf 1 F.CTX_CFG_VALID = 1 ∧ (fenced 0).fenced 1 = true ∧ ((fenced 0).ctx 1).drainAt = some 0 ∧
      0 ≤ (fenced 0).owl.ns ∧ (fenced 0).tilesRunning 1 = []) ∧
    (let s := (fenced 4096).setTile 0 runs1
     s.runsCtx 0 (s.ctxOfTile 0) = true ∧ s.fenced (s.ctxOfTile 0) = true ∧ s.pastQuiesce (s.ctxOfTile 0) = true ∧ (s.tile 0).quiesced = false) ∧
    (((fenced 0).part ((fenced 0).cf 1 F.CTX_CFG_PART)).step = none ∧ (fenced 0).engReset = none ∧ ((fenced 0).ctx 1).reset = none ∧
      (fenced 0).pf ((fenced 0).cf 1 F.CTX_CFG_PART) F.HIB_STATUS_PHASE ≠ 1) ∧
    (let s := (fenced 0).onCtx 1 (fun c => { c with reset := some (0, 1) })
     (s.ctx 1).reset.isSome = true ∧ (s.ctx 1).drainAt = some 0 ∧ s.tilesRunning 1 = [] ∧ s.colls = [] ∧ s.captures = [] ∧
      ∀ e ∈ s.granules, e.2 ≠ 1 + 1) := by
  decide +kernel

/-- A fence of context 1, which tile 0 runs, has been accepted and is due. -/
def fenceDue : State :=
  { (queues.onCtx 1 (fun c => { c with fenceDue := some 1 })).setTile 0 (user.setFld F.TILE_STATUS_CTX_ID 1 |> fun T => { T with work := some (1, 0) })
    with captures := [⟨2, 1, 1, 0, false, 0, []⟩] }

theorem witness_fenceDue :
    fenceDue.pending = [] ∧ fenceDue.owl.setDue = none ∧ (∀ e ∈ fenceDue.tiles, e.2.resv = none ∧ e.2.rejNow ≠ 2) ∧
    (fenceDue.ctx 1).fenceDue = some 1 ∧ (∀ k < 64, k ≠ 1 → (fenceDue.ctx k).fenceDue = none) ∧ fenceDue.fenced 1 = false ∧
    (∀ t ∈ fenceDue.tilesRunning 1, (fenceDue.tile t).power = .on ∧ (fenceDue.tile t).dozing = false ∧ (fenceDue.tile t).den = none ∧
      (fenceDue.tile t).reqs = []) ∧ fenceDue.tilesRunning 1 = [0] ∧
    (match step fenceDue with
     | .next u => u.cf 1 F.CTX_FENCE_FENCED == 1 && (u.tile 0).events.fenced == some 1 && (u.ctx 1).drainAt.isSome
     | _ => false) = true := by
  decide +kernel

theorem witness_resets :
    (ready.ownerOfTile (0 : BitVec 14).toNat = some 0 ∧ ready.covered 0 = false ∧ (ready.tile 0).inReset = false ∧
      (ready.tile 0).work = none ∧ ready.pf 0 F.HIB_STATUS_PHASE = 0 ∧ ready.ownerOfTile (5 : BitVec 14).toNat ≠ some 0) ∧
    ((ready.tile 0).fld F.TILE_STATUS_DOUBLE = 0 ∧ ((at0 (user.setFld F.TILE_STATUS_DOUBLE 1)).tile 0).fld F.TILE_STATUS_DOUBLE = 1 ∧
      (at0 (user.setFld F.TILE_STATUS_DOUBLE 1)).covered 0 = false) ∧
    (let s := at0 { user with inReset := true }
     s.covered 0 = false ∧ (s.tile 0).inReset = true ∧ (s.tile 0).power ≠ .hib ∧ (s.tile 0).work.isSome = false) ∧
    (State.reset.pstate 0 = 0 ∧ ready.pstate 0 ≠ 0 ∧ (ready.part 0).step.isSome = false ∧ ready.engReset.isSome = false) ∧
    (let s := { (ready.setEf F.CAPT_CFG_EN 1).onPart 0 (fun P => { P with step := some (0, 1) }) with captures := [⟨3, 0, 0, 0, true, 0, []⟩] }
     s.captures.find? (fun x => x.latched && decide (x.due ≤ s.owl.ns) && s.inStep x) = some ⟨3, 0, 0, 0, true, 0, []⟩ ∧ s.ef F.CAPT_CFG_EN = 1 ∧ s.linkUp = true ∧
      (s.setEf F.CAPT_CFG_EN 0).ef F.CAPT_CFG_EN = 0) ∧
    ((0 : BitVec 64).toNat % 65536 ≠ 23100 ∧ State.reset.engReset = none) ∧
    (let s := atTick (2 ^ 30) { up ready with engReset := some (0, 1) }
     s.ef F.BOOT_STATUS_STAGE = 8 ∧ 0 + s.ef F.RECOV_CFG_DRAIN_BEATS * 256 ≤ s.owl.ns ∧
      ∀ c < 64, s.cf c F.CTX_CFG_VALID = 1 → s.drained c = true) := by
  decide +kernel

/-! ## Witnesses: watches, power states and dumps -/

theorem witness_badgers :
    (queues.cf 2 F.CTX_CFG_VALID = 0 ∧ (fenced 0).cf 1 F.CTX_CFG_VALID = 1 ∧ (fenced 0).fenced 1 = true) ∧
    (let s := (at0 user).setPf 0 F.PART_RECT_X_N 1 |>.setPf 0 F.PART_RECT_Y_N 1 |>.setPf 0 F.PART_STATUS_STATE 2 |>.setPf 0 F.BADGER_LIMIT_EN 1 |>.setPf 0 F.BADGER_LIMIT_ACTION 0
     let u := s.onTile 0 (fun T => T.setFld F.TILE_STATUS_OPSTATE 0)
     u.owl.ns % 256 = 0 ∧ u.ownerOfTile 0 = some 0 ∧ u.watching 0 = true ∧ u.queueWatched 0 0 = true ∧
      u.pf 0 F.BADGER_LIMIT_ACTION = 0) ∧
    (let s := (atTick (2 ^ 50) (headed 2 [0])).setPf 0 F.BADGER_LIMIT_EN 1 |>.setPf 0 F.BADGER_LIMIT_ACTION 0 |>.onQueue 1 0 (fun q => { q with watch := some 0 })
     s.owl.ns % 256 = 0 ∧ s.cf 1 F.CTX_CFG_VALID = 1 ∧ s.watching (s.cf 1 F.CTX_CFG_PART) = true ∧ s.pf 0 F.RECOV_CTL_SOLO_EN = 0 ∧
      (s.queue 1 0).phase = 2 ∧ (s.queue 1 0).watch = some 0 ∧ 0 + s.pf 0 F.BADGER_LIMIT_CMD_ROUNDS * 1048576 ≤ s.owl.ns ∧
      s.pf 0 F.BADGER_LIMIT_ACTION = 0 ∧ s.pf 0 F.BADGER_STATUS_HUNG = 0) := by
  decide +kernel

theorem witness_escalation :
    State.reset.missedBound .engine = false ∧
    (let s := atTick (2 ^ 40) { State.reset.setEf F.RECOV_CFG_AUTO_ESC 0 with engReset := some (0, 1) }
     s.missedBound .engine = true ∧ s.ef F.RECOV_CFG_AUTO_ESC = 0 ∧ (s.setEf F.RECOV_CFG_AUTO_CYCLE 0).ef F.RECOV_CFG_AUTO_CYCLE = 0) ∧
    (let s := atTick (2 ^ 40) ((ready.setEf F.RECOV_CFG_AUTO_ESC 1).setEf F.RECOV_CFG_AUTO_CYCLE 1)
     s.ef F.RECOV_CFG_AUTO_ESC = 1 ∧ s.ef F.RECOV_CFG_AUTO_CYCLE = 1 ∧ s.ownerOfTile 0 = some 0 ∧
      ((s.onCtx 1 (fun c => { c with reset := some (0, 1) })).ctx 1).reset = some (0, 1) ∧ 0 + (400000 + s.longDrain) < s.owl.ns ∧
      ((s.onTile 0 (fun T => { T with inReset := true })).tile 0).inReset = true ∧ 0 + 200000 < s.owl.ns ∧
      ((s.onPart 0 (fun P => { P with step := some (0, 1) })).part 0).step = some (0, 1) ∧
      0 + ((if s.needsBlock 0 = true then 4910000 else 750000) + s.longDrain) < s.owl.ns ∧
      ({ s with engReset := some (0, 1) } : State).engReset = some (0, 1) ∧ 0 + (50000000 + s.longDrain) < s.owl.ns) := by
  decide +kernel

theorem witness_levels :
    ((State.reset.setEf F.ENGINE_INFO_GRADE 2).ef F.ENGINE_INFO_GRADE = 2 ∧ (0 : BitVec 64).toNat < 4) ∧
    ((1 : BitVec 64) ≠ 0 ∧ State.reset.plevel < 4 ∧ State.reset.ef F.PWR_PLVL_PEND = 0 ∧ (BitVec.ofNat 64 State.reset.plevel).toNat = State.reset.plevel ∧
      ((2 : BitVec 64).toNat ≠ State.reset.plevel ∨ (3 : BitVec 64).toNat ≠ State.reset.plevel) ∧ State.reset.plevelReason = 0 ∧
      ({ State.reset with tables := [flows] } : State).plevelReason ≠ 0) ∧
    (let s := State.reset.setEf F.PWR_PLVL_PEND 1
     s.ef F.PWR_PLVL_PEND = 1 ∧ s.ef F.PWR_PLVL_AT_ROUND ≤ s.owl.ns / 1048576) := by
  decide +kernel

/-- Tile 0 dozes or is in Den, in `wait`. -/
def asleep (p : Power) : Tile := { user with power := p, barrier := .wait }

theorem witness_doze :
    (let T : Tile := { user with dozing := true, barrier := .wait }
     T.power = .on ∧ T.idle = true ∧ (at0 T).resvLive 0 = false ∧ T.fld F.DBG_STATUS_HALTED = 0 ∧ T.den = none) ∧
    ((asleep .doze).power = .doze ∧ fetchable ((asleep .doze).pc + 4)) ∧
    (let T : Tile := { user with power := .doze, barrier := .twait 32 }
     T.treeTick = some 0 ∧ 0 ≤ (at0 T).owl.ns) := by
  unfold fetchable
  decide +kernel

theorem witness_den :
    (let T := (asleep .den).setFld F.SLEEPCFG_ALARM_EN 1
     T.power = .den ∧ T.fld F.SLEEPCFG_ALARM_EN = 1 ∧ T.fld F.DEN_WAKE_AT_BEAT * 256 ≤ (at0 T).owl.ns + 4096) ∧
    (({ asleep .den with events := ⟨some 1, none, false⟩ } : Tile).events.fenced.isSome = true ∧ fetchable ((asleep .den).pc + 4) ∧
      ({ asleep .den with haltReq := some (0, 1) } : Tile).haltReq.isSome = true ∧
      (at0 (asleep .den)).ownerOfTile 0 = none ∧ (asleep .den).waking = none ∧ ({ asleep .den with waking := some 0 } : Tile).waking = some 0) ∧
    (let s := atTick 3600 (ready.setTile 0 { asleep .den with waking := some 0 })
     (s.tile 0).power = .den ∧ (s.tile 0).waking = some 0 ∧ 0 + 3600 ≤ s.owl.ns ∧ s.ownerOfTile 0 = some 0 ∧ (s.part 0).step = none ∧ s.engReset = none) ∧
    ((at0 { user with padsHeld := true }).tile 0).padsHeld = true ∧ ((at0 { user with padsHeld := true }).tile 0).power = .on := by
  unfold fetchable
  decide +kernel

/-- Partition 0 in a Hibernate phase. -/
def sleeping (phase : Nat) : State := ready.setPf 0 F.HIB_STATUS_PHASE phase

theorem witness_hibernate :
    (State.reset.enterCode 0 ≠ 0 ∧ ready.enterCode 0 = 0 ∧ ready.pf 0 F.HIB_STATUS_PHASE = 0) ∧
    ((sleeping 1).pf 0 F.HIB_STATUS_PHASE = 1 ∧ ((sleeping 1).part 0).stopped < (sleeping 1).blockCount (some 0) ∧
      (∀ t ∈ tilesOfBlock ((sleeping 1).blockAt 0 0), ((sleeping 1).tile t).unfinished = false) ∧ ((sleeping 2).part 0).wake = none ∧
      (sleeping 1).hibCause 0 ((sleeping 1).blockAt 0 0) = 0 ∧ (sleeping 1).blockTags ((sleeping 1).blockAt 0 0) = false ∧
      ((sleeping 1).setHf (blockPage 0) F.MEM_STATUS_FILLING 1).hibCause 0 ((sleeping 1).blockAt 0 0) ≠ 0) ∧
    (let s := atTick 256 ((sleeping 1).onPart 0 (fun P => { P with stopped := 1 }))
     (s.part 0).stopped = s.blockCount (some 0) ∧ s.owl.ns % 256 = 0 ∧ (s.part 0).prepAt < s.owl.ns) ∧
    ((sleeping 2).pf 0 F.HIB_STATUS_PHASE = 2 ∧ (sleeping 2).ef F.PWR_PLVL_PEND = 0 ∧ 3 ≤ (sleeping 3).pf 0 F.HIB_STATUS_PHASE) ∧
    (let s := (sleeping 2).setPf 0 F.HIB_CFG_ALARM_EN 1
     s.pf 0 F.HIB_CFG_ALARM_EN = 1 ∧ s.pf 0 F.HIB_WAKE_AT_BEAT = s.owl.ns / 256) ∧
    (let s := atTick 100000 (((sleeping 3).onPart 0 (fun P => { P with wake := some (0, 7, 0) })).setEf F.RECOV_CFG_AUTO_ESC 0)
     (s.part 0).wake = some (0, 7, 0) ∧ s.pf 0 F.HIB_STATUS_PHASE = 3 ∧ 0 ≤ (3 : BitVec 56).toNat * 256 ∧ (3 : BitVec 56).toNat * 256 ≤ s.owl.ns ∧
      s.tap.held = none ∧ 0 + 100000 ≤ s.owl.ns ∧ s.pf 0 F.HIB_STATUS_WAKE_FAIL = 0 ∧ s.ef F.RECOV_CFG_AUTO_ESC = 0) ∧
    ((sleeping 4).pf 0 F.HIB_STATUS_PHASE = 4 ∧ ((sleeping 4).part 0).step = none) := by
  decide +kernel

theorem witness_fox :
    (let s := (ready.onPart 0 (fun P => { P with foxBeats := 1 })).setPf 0 F.FOX_DUMP_BASE_SLOTS 4
     (s.part 0).foxBeats ≠ 0 ∧ s.owl.ns % 256 = 0 ∧ s.owl.ns / 256 % (s.part 0).foxBeats = 0 ∧ s.pf 0 F.HIB_STATUS_PHASE = 0 ∧ s.pstate 0 ≠ 0 ∧
      s.pf 0 F.FOX_DUMP_BASE_SLOTS ≠ 0 ∧ (s.pf 0 F.FOX_RING_PTR_TAIL + 2 ^ 32 - s.pf 0 F.FOX_RING_PTR_HEAD) % 2 ^ 32 ≠ s.pf 0 F.FOX_DUMP_BASE_SLOTS ∧
      (s.part 0).latch = none ∧ (s.part 0).step = none ∧ ready.pf 0 F.FOX_DUMP_BASE_SLOTS = 0) ∧
    ((ready.onPart 0 (fun P => { P with latch := some [] })).part 0).latch = some [] ∧
    (ready.owl.ns + 4096 ≤ (4096 : BitVec 64).toNat ∧ (4095 : BitVec 64).toNat < ready.owl.ns + 4096) ∧
    (let w : BitVec 64 := BitVec.ofNat 64 (4096 + 2 * 2 ^ 48)
     w.toNat / 2 ^ 45 % 8 = 0 ∧ w.toNat / 2 ^ 48 < 256 ∧ w.toNat % 2 ^ 45 % 4096 = 0 ∧
      w.toNat % 2 ^ 45 + w.toNat / 2 ^ 48 * slotBytes (ready.tilesOf 0).length (ready.blocksOf 0).length ≤ ready.blockCount (some 0) * blockBytes) := by
  decide +kernel

theorem witness_samples :
    (user.setFld F.SAMPLE_CFG_EN 0).fld F.SAMPLE_CFG_EN = 0 ∧ (user.setFld F.SAMPLE_CFG_EN 1).fld F.SAMPLE_CFG_EN = 1 ∧
    user.fld F.TILE_STATUS_MODE ≠ 1 ∧ ready.ownerOfTile 0 = some 0 ∧
    ((ready.part 0).samples.filter (fun x => x.1 == blockOfTile 0)).length < 64 ∧
    (let s := ready.onPart 0 (fun P => { P with samples := List.replicate 64 (0, 0, 0) })
     64 ≤ ((s.part 0).samples.filter (fun x => x.1 == blockOfTile 0)).length) := by
  decide +kernel

/-! ## Witnesses: debug -/

/-- Debug unlocked. -/
def opened (s : State) : State := s.setEf F.BOOT_STATUS_DEBUG_OPEN 1

/-- An access frame for 0x100 of tile 0's store. -/
def frame : BitVec 112 := BitVec.ofNat 112 (0x100 * 2 ^ 64 + 2 ^ 102)

theorem witness_frame : StoreFrame (opened (at0 user)) frame where
  opened := by decide +kernel
  free := rfl
  target := by decide +kernel
  tile := by decide +kernel
  place := by decide +kernel
  reserved := by decide +kernel
  awake := by decide +kernel
  steady := by decide +kernel

theorem witness_accessFrames :
    framed frame (.debugPeek frame) ∧ (State.reset.debugOpen = false ∧ State.reset.tap.held = none) ∧
    ((opened State.reset).debugOpen = true ∧ (opened State.reset).tap.held = none ∧ frameOp frame.toNat < 4 ∧ frameTarget frame.toNat ≠ 3 ∧
      frameTarget frame.toNat ≠ 2 ∧ frame.toNat / 2 ^ 107 = 0) :=
  ⟨.inr (.inl rfl), by decide +kernel, by decide +kernel⟩

theorem runs_user : Runs (opened (at0 user)) 0 where
  power := by decide +kernel
  awake := by decide +kernel
  going := by decide +kernel
  free := by decide +kernel

theorem runs_breakpoint : Runs (at0 ((user.setFld F.DBG_CTL_BRK_EN 1).setFld F.DBG_BRK_ADDR 0x10000)) 0 where
  power := by decide +kernel
  awake := by decide +kernel
  going := by decide +kernel
  free := by decide +kernel

theorem witness_debug :
    (State.reset.scanOpen = false ∧ State.reset.debugOpen = false) ∧
    (let s := (opened { State.reset with engReset := some (0, 1) }).setEf F.BOOT_STATUS_STAGE 4
     s.debugOpen = true ∧ s.engReset.isSome = true ∧ s.ef F.BOOT_STATUS_STAGE = 4) ∧
    (let T := (user.setFld F.DBG_CTL_BRK_EN 1).setFld F.DBG_BRK_ADDR 0x10000
     T.breakHit = true ∧ T.barrier = .none) ∧
    (let T := user.setFld F.DBG_STATUS_STOPPING 1
     T.haltReq = none ∧ T.fld F.DBG_STATUS_STOPPING = 1 ∧ T.stopped = true) ∧
    ((opened (at0 (user.setFld F.DBG_STATUS_HALTED 1))).tile 0).fld F.DBG_STATUS_HALTED = 1 ∧
    ((opened (at0 user)).tile 0).fld F.DBG_STATUS_HALTED = 0 := by
  decide +kernel

/-- A partition whose tiles run, with an armed halt and an armed resume. -/
theorem witness_partitionHalts :
    (let s := (ready.setPf 0 F.DBG_PART_CTL_ARMED 1).setPf 0 F.DBG_PART_CTL_OP 1
     s.pf 0 F.DBG_PART_CTL_ARMED = 1 ∧ s.pf 0 F.DBG_PART_CTL_OP = 1 ∧ s.pf 0 F.DBG_PART_AT_NS ≤ s.owl.ns ∧
      ∀ t ∈ s.tilesOf 0, (s.tile t).power = .on ∧ (s.tile t).dozing = false ∧ (s.tile t).den = none ∧
        (s.tile t).fld F.DBG_STATUS_HALTED = 0 ∧ (s.tile t).fld F.DBG_STATUS_STOPPING = 0 ∧ (s.tile t).haltReq = none ∧ s.resvLive t = false) ∧
    (let s := (ready.setPf 0 F.DBG_PART_CTL_ARMED 1).setPf 0 F.DBG_PART_CTL_OP 2
     s.pf 0 F.DBG_PART_CTL_OP = 2 ∧ ∀ t ∈ s.tilesOf 0, (s.tile t).xq = [] ∧ (s.tile t).reqs = []) := by
  decide +kernel

theorem witness_trace :
    State.reset.ef F.TRACE_CFG_EN = 0 ∧ (State.reset.setEf F.TRACE_CFG_EN 1).ef F.TRACE_CFG_EN = 1 ∧ State.reset.trace.length ≤ 16320 ∧
    State.reset.dropped = 0 ∧ 16384 ≤ ({ State.reset with trace := List.replicate 16384 (0, 0) } : State).trace.length :=
  ⟨by decide +kernel, by decide +kernel, by decide +kernel, rfl, List.length_replicate.ge⟩

/-! ## Witnesses: the host interface, management and the module -/

/-- Bring-up past stage 1, with a virtual function for context 1. -/
def answering (s : State) : State := { up s with vfs := [2] }

theorem witness_hostAccesses :
    (({ State.reset with linkUp := false } : State).answers 0 = false ∧ (answering State.reset).answers 0 = true ∧
      (answering State.reset).answers 2 = true) ∧
    ((4 : BitVec 13).toNat ≠ 8 ∧ (0x40 : BitVec 28).toNat % 8 = 0 ∧ (0x40 : BitVec 28) ≠ 1048 ∧ (0x40 : BitVec 28) ≠ 264) ∧
    (hostReg (0xFFF8 : BitVec 28).toNat = none ∧ (0xFFF8 : BitVec 28).toNat % 8 = 0 ∧ (0xFFF8 : BitVec 28) ≠ 1048 ∧ (0xFFF8 : BitVec 28) ≠ 264) ∧
    ((0x7FF8 : BitVec 28).toNat % 8 = 0 ∧ (0x7FF8 : BitVec 28).toNat < 0x8000 ∧ hostReg (0x200000 + 0x10000 * 1 + (0x7FF8 : BitVec 28).toNat) = none) ∧
    (0x40 : BitVec 28).toNat ∈ [0, 8, 64, 128, 136, 144, 152] ∧ (findReg tileRegs (0xFFF : BitVec 12).toNat = none) := by
  decide +kernel

/-- The host aperture open on partition 0, and that of context 1. -/
def apertures (s : State) : State := ((answering s).setEf F.APERTURE_EN 1).setCf 1 F.CTX_APERTURE_EN 1

theorem witness_apertures :
    (State.reset.ef F.APERTURE_EN = 0 ∧ (answering State.reset).answers 0 = true) ∧
    (let s := apertures queues
     let o := s.ef F.APERTURE_BASE_GIB * 2 ^ 30 + (0 : BitVec 36).toNat
     s.answers 0 = true ∧ s.ef F.APERTURE_EN = 1 ∧ o + (8 : BitVec 13).toNat ≤ s.blockCount (some (s.ef F.APERTURE_PART)) * 25769803776 ∧
      s.pstate (s.ef F.APERTURE_PART) = 2 ∧ 0 < (8 : BitVec 13).toNat ∧ o % 64 + (8 : BitVec 13).toNat ≤ 64 ∧
      s.memUE.contains (s.interleave (s.ef F.APERTURE_PART) o % 2 ^ 48 / 64 * 64) = false ∧
      s.memPoison.contains (s.interleave (s.ef F.APERTURE_PART) o % 2 ^ 48 / 64 * 64) = false) ∧
    (let s := { apertures queues with memPoison := [0] }
     s.memPoison.contains (s.interleave (s.ef F.APERTURE_PART) 0 % 2 ^ 48 / 64 * 64) = true) ∧
    (let s := (apertures queues).setPf 0 F.PART_STATUS_STATE 1
     s.pstate (s.ef F.APERTURE_PART) ≠ 2 ∧ s.pstate (s.cf 1 F.CTX_CFG_PART) ≠ 2) ∧
    (let s := apertures queues
     let p := s.cf 1 F.CTX_CFG_PART
     let o := s.cf 1 F.CTX_APERTURE_BASE_GIB * 2 ^ 30 + (0 : BitVec 32).toNat
     s.answers 2 = true ∧ s.cf 1 F.CTX_APERTURE_EN = 1 ∧ o + (8 : BitVec 13).toNat ≤ s.blockCount (some p) * 25769803776 ∧ s.pstate p = 2 ∧
      s.granOwner p (o / 2097152) ≠ 1 + 1 ∧ (s.setGranules p 0 1 2).granOwner p (o / 2097152) = 1 + 1 ∧
      (answering queues).cf 1 F.CTX_APERTURE_EN = 0) := by
  decide +kernel

/-- A register of the context page whose fields are written by their access codes; and a write of MAP_IMG with GO. -/
theorem witness_registerWrites :
    hostReg (0xFFF8 : BitVec 28).toNat = none ∧ findReg tileRegs (0xFFF : BitVec 12).toNat = none ∧
    (hostReg (ctxPage 1 + 0x80)).any (fun r => r.fields != []) = true ∧ (1 : BitVec 64).toNat % 2 = 1 ∧ State.reset.linkUp = true := by
  decide +kernel

theorem witness_management :
    Powered State.reset ∧ (State.reset.module.standby = true ∧ ({ State.reset.module with mainPg := false } : Module).mainPg = false) ∧
    ({ State.reset.module with standby := false } : Module).standby = false ∧
    (∃ v, exec (.registerWrite (.host 0x40) 0 3) State.reset = .next v) ∧
    ((sleeping 2).pf 0 F.HIB_STATUS_PHASE = 2 ∧ (sleeping 2).module = State.reset.module ∧ (sleeping 2).ef F.PWR_PLVL_PEND = 0) ∧
    State.reset.engReset = none ∧ State.reset.tap.nonce = none ∧ ({ State.reset.tap with nonce := some 7 } : Tap).nonce = some 7 := by
  refine ⟨⟨rfl, rfl⟩, ⟨rfl, rfl⟩, rfl, ⟨_, rfl⟩, by decide +kernel, rfl, rfl, rfl⟩

theorem witness_bringUp :
    (∀ n ∈ [1, 2, 3, 4, 5, 6, 7], (State.reset.setEf F.BOOT_STATUS_STAGE n).ef F.BOOT_STATUS_STAGE = n ∧
      (State.reset.setEf F.BOOT_STATUS_STAGE n).ef F.BOOT_STATUS_ERROR = 0) ∧
    (State.reset.module.perst = false ∧ State.reset.ef F.TIME_STATE_STEP_PEND = 0 ∧ State.reset.ef F.TIME_STATE_STATE = 0) ∧
    (let s := (State.reset.setEf F.TIME_STATE_STATE 2).setEf F.BOOT_CFG_WAIT_LOCK 0
     s.ef F.TIME_STATE_STATE ≠ 0 ∧ s.ef F.BOOT_CFG_WAIT_LOCK = 0) ∧
    (let s := (State.reset.setEf F.TIME_STATE_STATE 2).setEf F.BOOT_CFG_WAIT_LOCK 1
     s.ef F.TIME_STATE_STATE ≠ 3 ∧ s.ef F.BOOT_CFG_WAIT_LOCK = 1) ∧
    (State.reset.module.mainPg = true ∧ 2 ≤ State.reset.ef F.BOOT_STATUS_STAGE ∧ State.reset.linkUp = true) := by
  decide +kernel

/-- The state after reset with another module. -/
def moduled (f : Module → Module) : State := { State.reset with module := f State.reset.module }

theorem witness_supply :
    (let s := moduled (fun m => { m with mainState := 0 })
     s.module.standby = true ∧ s.module.latched = false ∧ s.module.mainState = 0 ∧ s.module.offAt = none ∧ s.module.fault = 0 ∧
      s.module.mainEn = true) ∧
    (moduled (fun m => { m with mainState := 1 })).module.mainState = 1 ∧ PanelOn State.reset ∧
    (let s := moduled (fun m => { m with mainState := 3, fault := 4 })
     s.module.standby = true ∧ s.module.mainEn = true ∧ s.module.mainState = 3 ∧ s.module.fault = 4 ∧ s.module.latched = false ∧
      (moduled (fun m => { m with mainState := 3, fault := 4, latched := true })).module.latched = true) := by
  unfold PanelOn
  decide +kernel

theorem witness_thermal :
    (State.reset.module.standby = true ∧ PanelOn State.reset ∧ State.reset.module.lowCool < 99) ∧
    (let s := moduled (fun m => { m with hotLogic := [0], hotDram := [0], lowCool := 99 })
     PanelOn s ∧ 0 ∈ s.module.hotLogic ∧ s.module.lowCool = 99 ∧ ∃ n ∈ s.module.hotDram, n < 8640 ∧ s.vacant (n / 12) = false) := by
  unfold PanelOn
  decide +kernel

/-! ## Witnesses: time -/

/-- The state after reset with another Owl. -/
def owled (f : Owl → Owl) : State := { State.reset with owl := f State.reset.owl }

theorem witness_references :
    ((moduled (fun m => { m with standby := false })).module.standby = false ∧ State.reset.module.standby = true) ∧
    ((5 : BitVec 8).toNat ≠ State.reset.ef F.TIME_REF_CFG_PTP_DOMAIN ∧
      (BitVec.ofNat 8 (State.reset.ef F.TIME_REF_CFG_PTP_DOMAIN)).toNat = State.reset.ef F.TIME_REF_CFG_PTP_DOMAIN ∧
      (1 : Fin 3).val ≠ State.reset.ef F.TIME_REF_CFG_PTP_TRANSPORT ∧ (0 : Fin 3).val = State.reset.ef F.TIME_REF_CFG_PTP_TRANSPORT ∧
      State.reset.owl.setPend = none ∧ State.reset.ef F.TIME_REF_CFG_PPS_EDGE = 0 ∧
      (State.reset.setEf F.TIME_REF_CFG_PPS_EDGE 1).ef F.TIME_REF_CFG_PPS_EDGE = 1) ∧
    ((owled (fun o => { o with up := 300000000000 })).owl.up = 300000000000 ∧ State.reset.owl.up < 300000000000) ∧
    (let s := (owled (fun o => { o with pps := ⟨3, [0], 0, 0⟩, setPend := some (7, 0) })).setEf F.TIME_REF_CFG_PPS_EN 1
     s.ef F.TIME_REF_CFG_PPS_EDGE = 0 ∧ s.owl.setPend = some (7, 0) ∧ s.owl.pps.cond = 3 ∧ s.owl.own < 2 ∧ s.ef F.TIME_REF_CFG_PPS_EN = 1) ∧
    (let s := owled (fun o => { o with pps := ⟨3, [0], 0, 0⟩, ns := 2000000001 })
     s.owl.pps.cond ≠ 0 ∧ s.owl.pps.seen + s.owl.lossInterval .pps < s.owl.ns ∧ s.owl.ptp.cond = 0) := by
  decide +kernel

/-- PTP qualified and enabled with an offset in 2^−16 ns, the Owl's own state, at a round boundary. -/
def tracking (own : Nat) (offset : Int) : State :=
  (owled (fun o => { o with ptp := ⟨3, [offset], 0, 0⟩, own := own, source := 1, ns := 1048576 })).setEf F.TIME_REF_CFG_PTP_EN 1

theorem witness_rounds :
    ((owled (fun o => { o with ns := 1 })).owl.ns % 1048576 ≠ 0 ∧ (tracking 0 0).owl.ns % 1048576 = 0) ∧
    (∀ own ∈ [0, 1, 2, 3], (tracking own 0).candidate = some 1 ∧ (tracking own 0).owl.own = own) ∧
    (((tracking 2 131072).refOffset 1).natAbs ≤ 131072 ∧ 131072 < ((tracking 2 131073).refOffset 1).natAbs) ∧
    (∀ off ∈ [0, 32769, 134217729], ((tracking 1 off).refOffset 1).natAbs = off) ∧
    (let s := owled (fun o => { o with own := 2, ns := 1048576, held := State.reset.ef F.TIME_REF_CFG_HOLD_LIMIT })
     s.owl.ns % 1048576 = 0 ∧ s.owl.own = 2 ∧ s.candidate = none ∧ s.ef F.TIME_REF_CFG_HOLD_LIMIT ≤ s.owl.held) ∧
    (let s := owled (fun o => { o with own := 2, ns := 1048576 })
     s.candidate = none ∧ s.owl.held < s.ef F.TIME_REF_CFG_HOLD_LIMIT) := by
  decide +kernel

theorem witness_timeIsSet :
    (2 ≤ (tracking 2 0).owl.own ∧ (tracking 1 0).owl.own = 1 ∧ State.reset.owl.own < 2 ∧ State.reset.timeQualified = false ∧
      State.reset.owl.pps.cond ≠ 3 ∧ (owled (fun o => { o with pps := ⟨3, [0], 0, 0⟩ })).owl.pps.cond = 3 ∧
      (owled (fun o => { o with setDue := some 7 })).owl.setDue = some 7) ∧
    (∀ k ∈ [0, 1048576], let s := (owled (fun o => { o with stepOk := some k, ns := 1048576 })).setEf F.TIME_STATE_STEP_PEND 1
     s.owl.stepOk = some k ∧ s.owl.ns % 1048576 = 0 ∧ s.ef F.TIME_STATE_STEP_PEND = 1 ∧ s.tables = []) ∧
    (State.reset.ef F.TIME_STATE_STEP_PEND = 0 ∧ State.reset.owl.ns % 4 = 0 ∧ (owled (fun o => { o with ns := 1 })).owl.ns % 4 ≠ 0) := by
  decide +kernel

/-- A stretch that no bound forbids, one after which the next may not follow yet, and one that ends 2,004 ticks after its start. -/
theorem witness_stretches :
    (State.reset.stretch = none ∧ State.reset.stretchAt = none ∧ (25 : BitVec 8).toNat ≤ 25 * plMult State.reset.plevel ∧
      25 * plMult State.reset.plevel < (126 : BitVec 8).toNat ∧ user.sleepFrom = none ∧ user.clockHold = false) ∧
    (let s := { State.reset with stretchAt := some 0 }
     s.stretch = none ∧ s.stretchAt = some 0 ∧ s.owl.ns < 0 + 4096) ∧
    (let s := { atTick 2004 State.reset with stretch := some (0, 1) }
     s.owl.ns % 4 = 0 ∧ s.stretch = some (0, 1) ∧ 0 + 2004 ≤ s.owl.ns) := by
  decide +kernel

theorem witness_resetValues :
    (hostReg 0x40).isSome = true ∧ 0x40 ≠ F.BOOT_STATUS_STAGE.reg ∧ (findReg tileRegs F.VTYPE_VL.reg).isSome = true := by
  decide +kernel

/-- A state with a command in the queue that is in canonical form. -/
theorem witness_canonical : State.Canonical { State.reset with pending := [.warmUpDone] } := by
  constructor <;> decide +kernel

theorem witness_wholeMachine :
    (∃ t, step { State.reset with pending := [.warmUpDone] } = .next t) ∧ ownTile (.add 0 abc) = some 0 ∧
    ∃ u, exec (.add 0 abc) (at0 user) = .next u :=
  ⟨⟨_, rfl⟩, rfl, ⟨_, rfl⟩⟩

/-! ## Ill-formed commands are refused -/

theorem test_illFormed :
    ∀ c ∈ ([.shli 0 ⟨1, 2, 64⟩, .shri 0 ⟨1, 2, 5⟩, .sari 0 ⟨1, 2, 5⟩, .rotri 0 ⟨1, 2, 5⟩, .csrr 0 ⟨1, 0, 0x1000⟩, .csrw 0 ⟨1, 2, 0⟩,
        .csrs 0 ⟨1, 2, 0⟩, .csrc 0 ⟨1, 2, 0⟩, .debugNop (BitVec.ofNat 112 (2 ^ 104)), .debugPeek 0, .debugTake 0, .debugWrite 0, .bypass 0x10,
        .pfApertureAccess 0 0 false 0 [], .pfApertureAccess 0 1 true 256 [], .vfApertureAccess 0 0 4097 false 0 [],
        .vfApertureAccess 0 0 1 true 256 []] : List Instr), c.wf = false := by
  decide +kernel

theorem test_wellFormed :
    ∀ c ∈ ([.shli 0 ⟨1, 2, 5⟩, .rotri 0 ⟨1, 2, 0xC5⟩, .csrw 0 ⟨1, 2, 0x1020⟩, .debugPeek (BitVec.ofNat 112 (2 ^ 104)), .bypass 0x33,
        .pfApertureAccess 0 1 true 255 [], .add 0 abc] : List Instr), c.wf = true := by
  decide +kernel

/-! ## Worked examples of the spec -/

/-- What a scalar instruction writes to s1, from s2 and s3. -/
def scalarResult (i : Instr) (b c : Nat) : Option Word :=
  match exec i (at0 ((user.setS 2 (BitVec.ofNat 64 b)).setS 3 (BitVec.ofNat 64 c))) with
  | .next u => some ((u.tile 0).sreg 1)
  | _ => none

/-- R118: wrap, a signed high product, division by 0, −2^63 by −1, and a shift amount modulo 64. -/
theorem test_scalarCorners :
    scalarResult (.add 0 abc) (2 ^ 64 - 1) 2 = some 1 ∧ scalarResult (.mulh 0 abc) (2 ^ 64 - 1) 2 = some (BitVec.allOnes 64) ∧
    scalarResult (.mulhu 0 abc) (2 ^ 64 - 1) 2 = some 1 ∧ scalarResult (.div 0 abc) 7 0 = some (BitVec.allOnes 64) ∧
    scalarResult (.rem 0 abc) 7 0 = some 7 ∧ scalarResult (.div 0 abc) (2 ^ 63) (2 ^ 64 - 1) = some (BitVec.intMin 64) ∧
    scalarResult (.rem 0 abc) (2 ^ 63) (2 ^ 64 - 1) = some 0 ∧ scalarResult (.shl 0 abc) 1 65 = some 2 := by
  decide +kernel

/-- A conversion between formats by their codes. -/
def conv (src dst mode : Nat) (sat : Bool) (x : Nat) : Nat × Nat := roundNum dst 0 mode sat 0 (decodeNum src 0 x)

/-- Rows of the conversion table of R186, with their flags. -/
theorem test_conversionExtremes :
    conv 0 1 0 false 0x7FEFFFFFFFFFFFFF = (0x7F800000, flOverflow + flInexact) ∧
    conv 0 1 0 true 0x7FEFFFFFFFFFFFFF = (0x7F7FFFFF, flOverflow + flInexact) ∧
    conv 0 1 2 false 1 = (1, flUnderflow + flInexact) ∧ conv 1 0 0 false 1 = (0x36A0000000000000, 0) ∧
    conv 1 3 1 false 0x7F7FFFFF = (0x7F7F, flOverflow + flInexact) ∧ conv 2 4 1 false 0x7BFF = (0x7E, flOverflow + flInexact) ∧
    conv 5 4 2 false 1 = (1, flUnderflow + flInexact) ∧ conv 4 8 0 false 0xFE = (0x80, flInvalid) ∧
    conv 8 6 0 false 0x80 = (0xF, flOverflow + flInexact) ∧ conv 6 9 0 false 7 = (6, 0) := by
  decide +kernel

/-- Rows of the arithmetic table of R186: d × 1.5, fma(d, d, d), recip(M) and rsqrt(d) to FP64 under RNE. -/
theorem test_arithmeticExtremes :
    let rnd (x : Exact × Nat) := roundNum 0 0 0 false 0 x.1
    let d := decodeNum 0 0 1
    rnd (d.mul (decodeNum 0 0 0x3FF8000000000000)) = (2, flUnderflow + flInexact) ∧
    rnd (Exact.fma false d d d) = (1, flUnderflow + flInexact) ∧
    rnd (decodeNum 0 0 0x7FEFFFFFFFFFFFFF).recip = (0x0004000000000000, flUnderflow + flInexact) ∧
    rnd (d.rsqrt 53) = (0x6180000000000000, 0) := by
  decide +kernel

/-- R174: FP32 1.001953125 to BF16 under STOCH with two drawn words. -/
theorem test_stochastic :
    roundNum 3 0 4 false 0xD3A10B2C (decodeNum 1 0 0x3F804000) = (0x3F81, flInexact) ∧
    roundNum 3 0 4 false 0x12345678 (decodeNum 1 0 0x3F804000) = (0x3F80, flInexact) := by
  decide +kernel

/-- The vector of R254: 2^70, 3.0, −2^70, 0.5 and sixty times 1.0. -/
def r254 : Vec :=
  BitVec.ofNat 4096 (((List.replicate 60 0x3FF0000000000000).foldl (fun n w => n * 2 ^ 64 + w) 0 * 2 ^ 256) +
    0x4450000000000000 + 0x4008000000000000 * 2 ^ 64 + 0xC450000000000000 * 2 ^ 128 + 0x3FE0000000000000 * 2 ^ 192)

def r254Tile : Tile := ((user.setFld F.VTYPE_VL 64).setFld F.VTYPE_FMT 0).setV 2 r254

/-- Tile 0 after one command. -/
def afterOne (i : Instr) (T : Tile) : Tile :=
  match exec i (at0 T) with
  | .next u => u.tile 0
  | _ => T

/-- R254: `vredsum` leaves exactly 63.5 in the root, after seven cycles of spread. -/
theorem test_exactSum :
    (let T := afterOne (.vredsum 0 ⟨0, 2, 0, 0⟩) r254Tile
     T.root0.acc = ⟨127 * 2 ^ 2147, .none⟩ ∧ T.fld F.VOP_STALLS_SPREAD = 7) := by
  decide +kernel

/-- R254: the record of 63.5: its header, its word, and 16 bytes written. -/
theorem test_record :
    (let T := afterOne (.vrexport 0 ⟨1, 0, 3, 0⟩) { r254Tile.setS 3 0x2000 with root0 := ⟨⟨127 * 2 ^ 2147, .none⟩, 0, none, false⟩ }
     littleEndian T.store 0x2000 8 = 0x121 ∧ littleEndian T.store 0x2008 8 = 0x3F800000000 ∧ T.sreg 1 = 16) ∧
    (let T := afterOne (.vrdrain 0 ⟨1, 0, 0, 0⟩) { r254Tile with root0 := ⟨⟨127 * 2 ^ 2147, .none⟩, 0, none, false⟩ }
     T.sreg 1 = 0x404FC00000000000) := by
  decide +kernel

/-- R62: the PTP time of the example is hall time 753,315,200,123,456,789: the offset measured there is 0. -/
theorem test_ptpTime :
    (match exec (.ptpSyncMeasurement ⟨0, 0⟩ 1700000000 123456789 0) (owled (fun o => { o with ns := 753315200123456789 })) with
     | .next u => u.owl.ptp.recent
     | _ => []) = [0] := by
  decide +kernel

end Sys2Proof.Tests
end

section
/-!
SUPPORT. The values of R118: what the operations of the scalar ALU compute, as exact integers modulo 2^64 and by the list of a
word's set bits.
-/
namespace Sys2Proof.Machine
open Claims

/-! ## Sums, products, shifts and comparisons -/

theorem add_eq_ofInt (b c : Word) : b + c = BitVec.ofInt 64 (b.toInt + c.toInt) := by
  rw [BitVec.ofInt_add, BitVec.ofInt_toInt, BitVec.ofInt_toInt]

theorem sub_eq_ofInt (b c : Word) : b - c = BitVec.ofInt 64 (b.toInt - c.toInt) := by
  rw [BitVec.sub_eq_add_neg, Int.sub_eq_add_neg, BitVec.ofInt_add, BitVec.ofInt_neg, BitVec.ofInt_toInt, BitVec.ofInt_toInt]

theorem mul_eq_ofInt (b c : Word) : b * c = BitVec.ofInt 64 (b.toInt * c.toInt) := by
  rw [BitVec.ofInt_mul, BitVec.ofInt_toInt, BitVec.ofInt_toInt]

theorem shiftLeft_eq_ofNat (b : Word) (n : Nat) : b <<< n = BitVec.ofNat 64 (b.toNat * 2 ^ n) := by
  apply BitVec.eq_of_toNat_eq
  rw [BitVec.toNat_shiftLeft, Nat.shiftLeft_eq, BitVec.toNat_ofNat]

theorem ushiftRight_eq_ofNat (b : Word) (n : Nat) : b >>> n = BitVec.ofNat 64 (b.toNat / 2 ^ n) := by
  rw [← Nat.shiftRight_eq_div_pow, ← BitVec.toNat_ushiftRight, BitVec.ofNat_toNat, BitVec.setWidth_eq]

theorem sshiftRight_eq_ofInt (b : Word) (n : Nat) : b.sshiftRight n = BitVec.ofInt 64 (b.toInt / (2 ^ n : Nat)) := by
  rw [← Int.shiftRight_eq_div_pow, ← BitVec.toInt_sshiftRight, BitVec.ofInt_toInt]

theorem flagWord_slt (b c : Word) : flagWord (b.slt c) = if b.toInt < c.toInt then 1 else 0 := by
  simp [flagWord, BitVec.slt]

theorem flagWord_ult (b c : Word) : flagWord (b.ult c) = if b.toNat < c.toNat then 1 else 0 := by
  simp [flagWord, BitVec.ult]

theorem ite_slt_eq_min (b c : Word) : (if b.slt c then b else c) = BitVec.ofInt 64 (min b.toInt c.toInt) := by
  rw [BitVec.slt]
  by_cases h : b.toInt < c.toInt
  · simp [h, min_eq_left h.le]
  · simp [h, min_eq_right (not_lt.mp h)]

theorem ite_slt_eq_max (b c : Word) : (if b.slt c then c else b) = BitVec.ofInt 64 (max b.toInt c.toInt) := by
  rw [BitVec.slt]
  by_cases h : b.toInt < c.toInt
  · simp [h, max_eq_right h.le]
  · simp [h, max_eq_left (not_lt.mp h)]

theorem ite_ult_eq_min (b c : Word) : (if b.ult c then b else c) = BitVec.ofNat 64 (min b.toNat c.toNat) := by
  rw [BitVec.ult]
  by_cases h : b.toNat < c.toNat
  · simp [h, min_eq_left h.le]
  · simp [h, min_eq_right (not_lt.mp h)]

theorem ite_ult_eq_max (b c : Word) : (if b.ult c then c else b) = BitVec.ofNat 64 (max b.toNat c.toNat) := by
  rw [BitVec.ult]
  by_cases h : b.toNat < c.toNat
  · simp [h, max_eq_right h.le]
  · simp [h, max_eq_left (not_lt.mp h)]

/-- The quotient of −2^63 by −1, which R118 names apart, is what the exact quotient gives modulo 2^64. -/
theorem divS_eq (b c : Word) : divS b c =
    if c = 0 then BitVec.allOnes 64 else if b = minWord ∧ c.toInt = -1 then b else BitVec.ofInt 64 (b.toInt.tdiv c.toInt) := by
  unfold divS
  split
  · rfl
  · split
    · next h =>
      obtain ⟨rfl, hc⟩ := h
      rw [hc]
      decide
    · rfl

theorem remS_eq (b c : Word) : remS b c =
    if c = 0 then b else if b = minWord ∧ c.toInt = -1 then 0 else BitVec.ofInt 64 (b.toInt.tmod c.toInt) := by
  unfold remS
  split
  · rfl
  · split
    · next h =>
      obtain ⟨rfl, hc⟩ := h
      rw [hc]
      decide
    · rfl

/-! ## Set bits -/

/-- Bits of `x` below `n` that hold, from the lowest up. -/
def bitsBelow (x n : Nat) : List Nat := (List.range n).filter x.testBit

theorem setBitsOf_eq (b : Word) : setBitsOf b = bitsBelow b.toNat 64 := rfl

/-- Bit 0 first, then the bits of `x / 2`, each one place up. -/
theorem bitsBelow_succ_low (x n : Nat) :
    bitsBelow x (n + 1) = (if x % 2 = 1 then [0] else []) ++ (bitsBelow (x / 2) n).map (· + 1) := by
  have e : (fun i => x.testBit (i + 1)) = (x / 2).testBit := funext fun i => Nat.testBit_succ x i
  rw [bitsBelow, List.range_succ_eq_map, List.filter_cons, List.filter_map]
  by_cases h : x % 2 = 1 <;> simp [h, Nat.testBit_zero, bitsBelow, Function.comp_def, e]

/-- The bits below `n` first, then bit `n`. -/
theorem bitsBelow_succ_high (x n : Nat) : bitsBelow x (n + 1) = bitsBelow x n ++ (if x.testBit n then [n] else []) := by
  rw [bitsBelow, List.range_succ, List.filter_append]
  by_cases h : x.testBit n <;> simp [h, bitsBelow]

theorem length_bitsBelow (x n : Nat) : (bitsBelow x n).length = popCount x n := by
  induction n generalizing x with
  | zero => rfl
  | succ n ih =>
    rw [bitsBelow_succ_low, List.length_append, List.length_map, ih, popCount]
    split <;> simp <;> omega

theorem headD_bitsBelow (x n : Nat) : (bitsBelow x n).headD n = trailZeros x n := by
  induction n generalizing x with
  | zero => rfl
  | succ n ih =>
    rw [bitsBelow_succ_low, trailZeros, ← ih]
    split
    · rfl
    · cases bitsBelow (x / 2) n <;> simp [Nat.add_comm]

/-- The length of a number is the place above its highest set bit. -/
theorem getLast?_bitsBelow {x n : Nat} (h : x < 2 ^ n) : (bitsBelow x n).getLast?.elim 0 (· + 1) = bitLen x := by
  induction n with
  | zero =>
    obtain rfl : x = 0 := by omega
    rfl
  | succ n ih =>
    rw [bitsBelow_succ_high]
    by_cases hx : x < 2 ^ n
    · rw [Nat.testBit_lt_two_pow hx]
      simpa using ih hx
    · have hn : 2 ^ n ≤ x := not_lt.mp hx
      have h0 : x ≠ 0 := (Nat.two_pow_pos n |>.trans_le hn).ne'
      have hl : x.log2 = n := (Nat.log2_eq_iff h0).mpr ⟨hn, h⟩
      have ht : x.testBit n = true := hl ▸ Nat.testBit_log2 h0
      simp [ht, bitLen, h0, hl]

theorem popCount_eq (b : Word) : popCount b.toNat 64 = (setBitsOf b).length :=
  (length_bitsBelow _ _).symm

theorem trailZeros_eq (b : Word) : trailZeros b.toNat 64 = (setBitsOf b).headD 64 :=
  (headD_bitsBelow _ _).symm

theorem leadZeros_eq (b : Word) : leadZeros b = BitVec.ofNat 64 ((setBitsOf b).getLast?.elim 64 (63 - ·)) := by
  rw [leadZeros, setBitsOf_eq, ← getLast?_bitsBelow b.isLt]
  cases (bitsBelow b.toNat 64).getLast? with
  | none => rfl
  | some i => exact congrArg _ (by simp only [Option.elim_some]; omega)

end Sys2Proof.Machine
end

section
/-!
SUPPORT. Laws of exceptions: what a tile shows that has taken a synchronous cause, or FENCED in its place (R139 to R144).
-/
namespace Sys2Proof.Machine
open Claims

/-! ## After a step -/

/-- After a dispatched instruction only DBG_STATUS and what stepping keeps can change. -/
theorem Tile.afterStep_frame (T : Tile) : ∃ ctl stepping fresh,
    T.afterStep = { T with ctl := ctl, stepping := stepping, fresh := fresh } ∧
      ∀ a, a ≠ F.DBG_STATUS_HALTED.reg → ctl.get ctlDflt a = T.ctlWord a :=
  ⟨_, _, _, T.afterStep_rest, T.afterStep_ctl⟩

theorem Tile.fld_afterStep (T : Tile) {g : Fld} (h : g.reg ≠ F.DBG_STATUS_HALTED.reg) : T.afterStep.fld g = T.fld g := by
  rw [Tile.fld, Tile.afterStep_ctl T _ h, Tile.fld]

/-! ## Entering the handler -/

/-- The registers that an exception writes (R140). -/
def Tile.excWritten (T : Tile) (code queue sub : Nat) (async : Bool) (pc qpc info : Word) : Tile :=
  (((((((((T.breakResv 3).setFld F.TILE_STATUS_FROZEN 7).setFld F.EXC_CAUSE_CODE code).setFld F.EXC_CAUSE_QUEUE queue).setFld
    F.EXC_CAUSE_ASYNC (b2n async)).setFld F.EXC_CAUSE_SUB sub).setFld F.EXC_PC_PC (pc.toNat / 4)).setCtl
    F.EXC_QPC_QPC.reg qpc).setCtl F.EXC_INFO_INFO.reg info).setFld F.TILE_STATUS_MODE 1

theorem Tile.exception_eq (T : Tile) (code queue sub : Nat) (async : Bool) (pc qpc info : Word) :
    T.exception code queue sub async pc qpc info =
      { T.excWritten code queue sub async pc qpc info with
        pc := (T.excWritten code queue sub async pc qpc info).ctlWord F.EXC_VEC_VEC.reg, barrier := .none, skid := 7 } := rfl

theorem Tile.ctlWord_excWritten (T : Tile) (code queue sub : Nat) (async : Bool) (pc qpc info : Word) {a : Nat}
    (ha : a ∉ exceptionRegs) : (T.excWritten code queue sub async pc qpc info).ctlWord a = T.ctlWord a := by
  simp only [exceptionRegs, List.mem_cons, List.not_mem_nil, or_false, not_or] at ha
  obtain ⟨hm, hc, hp, hq, hi⟩ := ha
  have hf : a ≠ F.TILE_STATUS_FROZEN.reg := hm
  have hu : a ≠ F.EXC_CAUSE_QUEUE.reg := hc
  have hy : a ≠ F.EXC_CAUSE_ASYNC.reg := hc
  have hs : a ≠ F.EXC_CAUSE_SUB.reg := hc
  simp only [Tile.excWritten, Tile.ctlWord_setFld_other, Tile.ctlWord_setCtl_other, ne_eq, hm, hf, hc, hu, hy, hs, hp, hq, hi,
    not_false_eq_true]
  rfl

/-- Each field keeps what is written to it: no later write of the exception covers it. -/
theorem Tile.excWritten_shows (T : Tile) (code queue sub : Nat) (async : Bool) (pc qpc info : Word) :
    let E := T.excWritten code queue sub async pc qpc info
    E.fld F.TILE_STATUS_MODE = 1 % 2 ^ F.TILE_STATUS_MODE.width ∧
      E.fld F.TILE_STATUS_FROZEN = 7 % 2 ^ F.TILE_STATUS_FROZEN.width ∧
      E.fld F.EXC_CAUSE_CODE = code % 2 ^ F.EXC_CAUSE_CODE.width ∧
      E.fld F.EXC_CAUSE_QUEUE = queue % 2 ^ F.EXC_CAUSE_QUEUE.width ∧
      E.fld F.EXC_CAUSE_SUB = sub % 2 ^ F.EXC_CAUSE_SUB.width ∧
      E.fld F.EXC_CAUSE_ASYNC = b2n async % 2 ^ F.EXC_CAUSE_ASYNC.width ∧
      E.fld F.EXC_PC_PC = pc.toNat / 4 % 2 ^ F.EXC_PC_PC.width ∧
      E.ctlWord F.EXC_QPC_QPC.reg = qpc ∧ E.ctlWord F.EXC_INFO_INFO.reg = info := by
  simp (disch := decide) only [Tile.excWritten, Tile.fld_setFld_same, Tile.fld_setFld_sameReg, Tile.fld_setFld_otherReg,
    Tile.fld_setCtl_otherReg, Tile.ctlWord_setFld_other, Tile.ctlWord_setCtl_other, Tile.ctlWord_setCtl_same, and_self]

/-- Taking an exception writes the registers of R140 and nothing else. -/
theorem Tile.exception_entered (T : Tile) {code queue sub : Nat} (async : Bool) (pc qpc info : Word)
    (hc : code < 2 ^ 8) (hq : queue < 2 ^ 3) (hs : sub < 2 ^ 4) :
    Entered T (T.exception code queue sub async pc qpc info) code queue sub async pc qpc info [] := by
  obtain ⟨hmode, hfrozen, hcode, hqueue, hsub, hasync, hpc, hqpc, hinfo⟩ := T.excWritten_shows code queue sub async pc qpc info
  rw [Tile.exception_eq]
  exact
    { mode := hmode
      frozen := hfrozen
      code := hcode.trans (Nat.mod_eq_of_lt hc)
      queue := hqueue.trans (Nat.mod_eq_of_lt hq)
      sub := hsub.trans (Nat.mod_eq_of_lt hs)
      async := hasync.trans (by cases async <;> rfl)
      savedPc := hpc.trans (Nat.mod_eq_of_lt (Nat.div_lt_of_lt_mul pc.isLt))
      savedQpc := hqpc
      info := hinfo
      vector := T.ctlWord_excWritten _ _ _ _ _ _ _ (by decide)
      reservation := rfl
      scalars := fun _ => rfl
      vectors := fun _ => rfl
      masks := fun _ => rfl
      descriptors := fun _ => rfl
      store := rfl
      queues := ⟨rfl, rfl, rfl, rfl⟩
      accumulators := ⟨rfl, rfl, rfl⟩
      others := fun a ha => T.ctlWord_excWritten _ _ _ _ _ _ _ fun h => ha (List.mem_append_left _ h) }

end Sys2Proof.Machine

namespace Sys2Proof.Claims
open Machine

/-- An exception from a tile that differs only in counted slots, pending events and its mark is one from the tile itself. -/
theorem Entered.of_frame {T T' : Tile} {ctl : NMap Word} {events : Events} {marked : Bool} {skid : Nat}
    {code queue sub : Nat} {async : Bool} {pc qpc info : Word} {counted : List Nat}
    (h : Entered { T with ctl := ctl, events := events, marked := marked, skid := skid } T' code queue sub async pc qpc info [])
    (hctl : ∀ a, a ∉ counted → ctl.get ctlDflt a = T.ctlWord a) (hv : F.EXC_VEC_VEC.reg ∉ counted) :
    Entered T T' code queue sub async pc qpc info counted :=
  { h with
    vector := h.vector.trans (hctl _ hv)
    others := fun a ha => by
      simp only [List.mem_append, List.mem_cons, not_or] at ha
      obtain ⟨hx, hd, hn⟩ := ha
      exact (h.others a (by simp [hx, hd])).trans (hctl a hn) }

theorem Entered.afterStep {T T' : Tile} {code queue sub : Nat} {async : Bool} {pc qpc info : Word} {counted : List Nat}
    (h : Entered T T' code queue sub async pc qpc info counted) :
    Entered T T'.afterStep code queue sub async pc qpc info counted := by
  have fld : ∀ g : Fld, g.reg ≠ F.DBG_STATUS_HALTED.reg → T'.afterStep.fld g = T'.fld g := fun _ => T'.fld_afterStep
  have ctl : ∀ a, a ≠ F.DBG_STATUS_HALTED.reg → T'.afterStep.ctlWord a = T'.ctlWord a := T'.afterStep_ctl
  obtain ⟨c, st, fr, e, -⟩ := T'.afterStep_frame
  rw [e] at fld ctl ⊢
  exact { h with
    mode := (fld _ (by decide)).trans h.mode
    frozen := (fld _ (by decide)).trans h.frozen
    code := (fld _ (by decide)).trans h.code
    queue := (fld _ (by decide)).trans h.queue
    sub := (fld _ (by decide)).trans h.sub
    async := (fld _ (by decide)).trans h.async
    savedPc := (fld _ (by decide)).trans h.savedPc
    savedQpc := (ctl _ (by decide)).trans h.savedQpc
    info := (ctl _ (by decide)).trans h.info
    others := fun a ha => (ctl a fun h => ha (by simp [h])).trans (h.others a ha) }

end Sys2Proof.Claims
end

section
/-!
SUPPORT. A synchronous cause at dispatch: the exception, FENCED in its place, or a double fault.
-/
namespace Sys2Proof.Machine
open Claims

/-! ## Synchronous causes -/

/-- The counters that a wasted slot of queue `q` writes. -/
def wasteRegs (q : Nat) : List Nat := [(wasteFld q).reg, F.SLOT_HANDLER_COUNT.reg]

theorem status_not_mem_wasteRegs {q : Nat} (h : q ≤ 4) : F.TILE_STATUS_MODE.reg ∉ wasteRegs q := by
  interval_cases q <;> decide

theorem vector_not_mem_wasteRegs {q : Nat} (h : q ≤ 4) : F.EXC_VEC_VEC.reg ∉ wasteRegs q := by
  interval_cases q <;> decide

/-- A tile whose slot of queue `q` is wasted, marked for retirement where `marks` holds. -/
def Tile.wasted (T : Tile) (q : Nat) (marks : Bool) : Tile := { T.slot (wasteFld q) 1 with marked := T.marked || marks }

theorem Tile.wasted_eq (T : Tile) (q : Nat) (marks : Bool) :
    T.wasted q marks = { T with ctl := (T.wasted q marks).ctl, marked := T.marked || marks, skid := T.skidAfter (wasteFld q) 1 } := by
  rw [Tile.wasted, Tile.slot_rest]

theorem Tile.ctlWord_wasted (T : Tile) {q a : Nat} (marks : Bool) (h : a ∉ wasteRegs q) :
    (T.wasted q marks).ctlWord a = T.ctlWord a := by
  simp only [wasteRegs, List.mem_cons, List.not_mem_nil, or_false, not_or] at h
  exact Tile.slot_ctl T _ 1 a h.1 h.2

theorem Tile.handler_wasted (T : Tile) {q : Nat} (marks : Bool) (h : q ≤ 4) : (T.wasted q marks).handler = T.handler := by
  simp only [Tile.handler, Tile.fld, T.ctlWord_wasted marks (status_not_mem_wasteRegs h)]

theorem Tile.handler_eq_false {T : Tile} (h : T.fld F.TILE_STATUS_MODE = 0) : T.handler = false := by
  simp [Tile.handler, h]

theorem Tile.handler_eq_true {T : Tile} (h : T.fld F.TILE_STATUS_MODE = 1) : T.handler = true := by
  simp [Tile.handler, h]

theorem Tile.syncExc_user (T : Tile) {q code sub : Nat} {info : Word} (hm : T.fld F.TILE_STATUS_MODE = 0)
    (he : T.events.fenced = none) (hq : q ≤ 4) :
    T.syncExc q code sub info = (T.wasted q (code == 6)).exception code 0 sub false T.pc T.pc info := by
  have hu := Tile.handler_eq_false hm
  have hw : (T.wasted q (code == 6)).handler = false := (T.handler_wasted _ hq).trans hu
  have hp : (T.wasted q (code == 6)).pc = T.pc := by rw [Tile.wasted_eq]
  unfold Tile.syncExc
  rw [hu, he]
  change (if (T.wasted q (code == 6)).handler then _ else
    (T.wasted q (code == 6)).exception code 0 sub false (T.wasted q (code == 6)).pc (T.wasted q (code == 6)).pc info) = _
  rw [hw, hp, if_neg Bool.false_ne_true]

theorem Tile.syncExc_handler (T : Tile) {q code sub : Nat} {info : Word} (hm : T.fld F.TILE_STATUS_MODE = 1) (hq : q ≤ 4) :
    T.syncExc q code sub info = (T.wasted q (code == 6)).doubleFault := by
  have hu := Tile.handler_eq_true hm
  have hw : (T.wasted q (code == 6)).handler = true := (T.handler_wasted _ hq).trans hu
  unfold Tile.syncExc
  rw [hu]
  exact if_pos hw

/-- In user mode a synchronous cause enters the handler, and its slot is wasted (R139, R140). -/
theorem Tile.syncExc_entered (T : Tile) {q code sub : Nat} (info : Word) (hm : T.fld F.TILE_STATUS_MODE = 0)
    (he : T.events.fenced = none) (hq : q ≤ 4) (hc : code < 2 ^ 8) (hs : sub < 2 ^ 4) :
    Entered T (T.syncExc q code sub info) code 0 sub false T.pc T.pc info (wasteRegs q) := by
  have h := Tile.exception_entered (T.wasted q (code == 6)) false T.pc T.pc info hc (Nat.two_pow_pos 3) hs
  rw [T.syncExc_user hm he hq]
  rw [Tile.wasted_eq] at h ⊢
  exact h.of_frame (fun a => T.ctlWord_wasted _) (vector_not_mem_wasteRegs hq)

/-- In user mode FENCED, due at the same boundary, is taken in the place of a synchronous cause (R143). -/
theorem Tile.syncExc_fenced (T : Tile) {q code sub gen : Nat} (info : Word) (hm : T.fld F.TILE_STATUS_MODE = 0)
    (he : T.events.fenced = some gen) : T.syncExc q code sub info = T.takeFenced gen := by
  simp [Tile.syncExc, Tile.handler_eq_false hm, he]

theorem Tile.takeFenced_entered (T : Tile) (gen : Nat) :
    Entered T (T.takeFenced gen) 0x20 0 0 true T.pc T.pc (BitVec.ofNat 64 gen) [] :=
  have h := Tile.exception_entered { T with events := { T.events with fenced := .none } } (code := 0x20) (queue := 0) (sub := 0)
    true T.pc T.pc (BitVec.ofNat 64 gen) (by decide) (by decide) (by decide)
  h.of_frame (fun _ _ => rfl) List.not_mem_nil

/-- In handler mode a synchronous cause is a double fault (R144). -/
theorem Tile.syncExc_doubled (T : Tile) {q code sub : Nat} (info : Word) (hm : T.fld F.TILE_STATUS_MODE = 1) (hq : q ≤ 4) :
    Doubled T (T.syncExc q code sub info).afterStep (wasteRegs q) := by
  rw [T.syncExc_handler hm hq]
  have hd : (T.wasted q (code == 6)).doubleFault.afterStep.fld F.TILE_STATUS_DOUBLE = 1 :=
    (Tile.fld_afterStep _ (by decide)).trans (Tile.fld_setFld_same _ F.TILE_STATUS_DOUBLE 1 (by decide))
  refine ⟨hd, ?_, fun regs => by simp [Tile.ready, hd], fun a ha => ?_, ?_⟩
  · rw [Tile.afterStep_rest, Tile.wasted_eq]
    rfl
  · simp only [List.mem_cons, not_or] at ha
    obtain ⟨hs, hb, hc⟩ := ha
    rw [Tile.afterStep_ctl _ a hb]
    exact (Tile.ctlWord_setFld_other (f := F.TILE_STATUS_DOUBLE) _ 1 hs).trans (T.ctlWord_wasted _ hc)
  · rw [Tile.afterStep_rest, Tile.wasted_eq]
    rfl

/-- An instruction takes its cause where its meaning is the exception of that cause. -/
theorem takesItsCause_of_exec {s : State} {i : Instr} {t : TileIx} {g : Tile → Tile} {code sub : Nat} {info : Word}
    (hx : exec i s = .next (s.onTile t g)) (hg : g (s.tile t) = ((s.tile t).syncExc 1 code sub info).afterStep)
    (hc : code < 2 ^ 8) (hs : sub < 2 ^ 4) : TakesItsCause s i t code sub info := by
  have ht : OnlyTile s t (s.onTile t g) ((s.tile t).syncExc 1 code sub info).afterStep := hg ▸ OnlyTile.onTile s t g
  refine ⟨fun hm he => ⟨_, _, hx, ht, ?_⟩, fun gen hm he => ⟨_, _, hx, ht, ?_, ?_⟩, fun hm => ⟨_, _, hx, ht, ?_⟩⟩
  · exact (Tile.syncExc_entered _ info hm he (by decide) hc hs).afterStep
  · rw [Tile.syncExc_fenced _ info hm he, Tile.afterStep_rest]
    rfl
  · rw [Tile.syncExc_fenced _ info hm he]
    exact (Tile.takeFenced_entered _ gen).afterStep
  · exact Tile.syncExc_doubled _ info hm (by decide)

end Sys2Proof.Machine
end

section
/-!
SUPPORT. Words of layout F3 (R115, R116), and the words of MAJORs 0x01 and 0x35 whose MINOR no table lists (R156).
-/
namespace Sys2Proof.Machine
open Claims

/-! ## Words of layout F3 -/

theorem packWord_lt {major a b c k minor : Nat} (hm : major < 2 ^ 6) (ha : a < 2 ^ 5) (hb : b < 2 ^ 5) (hc : c < 2 ^ 5)
    (hk : k < 2 ^ 3) (hn : minor < 2 ^ 8) : packWord major a b c k minor < 2 ^ 32 := by
  unfold packWord
  omega

theorem F3w_lt (f : F3) {major minor : Nat} (hm : major < 2 ^ 6) (hn : minor < 2 ^ 8) : F3w f major minor < 2 ^ 32 :=
  packWord_lt hm f.a.isLt f.b.isLt f.c.isLt f.k.isLt hn

theorem majorOf_packWord {major a b c k minor : Nat} (hm : major < 2 ^ 6) (ha : a < 2 ^ 5) (hb : b < 2 ^ 5) (hc : c < 2 ^ 5)
    (hk : k < 2 ^ 3) (hn : minor < 2 ^ 8) : majorOf (packWord major a b c k minor) = major := by
  unfold majorOf packWord
  omega

theorem packWord_mod_minor {major a b c k minor : Nat} (hn : minor < 2 ^ 8) : packWord major a b c k minor % 256 = minor := by
  unfold packWord
  omega

/-- EXC_INFO of a base word: the word in the low half, 0 in the high half (R142). -/
theorem illegalInfo_base {w : Nat} (h : w < 2 ^ 32) : illegalInfo w 0 = wordInfo w := by
  rw [illegalInfo, wordInfo, Nat.mod_eq_of_lt h, Nat.mul_zero, Nat.add_zero]

theorem wordField_low {w : Nat} (h : w < 2 ^ 32) : wordField (BitVec.ofNat 64 w) 0 32 = w := by
  unfold wordField bitsOf
  rw [BitVec.toNat_ofNat]
  omega

/-! ## Undefined MINORs -/

/-- The MINORs of R118 and R120 are those that the decoder defines. -/
theorem minorDefined_of_not_listed {major minor : Nat} {listed : List Nat} (hl : (major, listed) ∈ listedMinors)
    (hn : minor ∉ listed) : (major = 0x01 ∨ major = 0x35) ∧ minorDefined major minor = false := by
  simp only [listedMinors, List.mem_cons, Prod.mk.injEq, List.not_mem_nil, or_false] at hl
  rcases hl with ⟨rfl, rfl⟩ | ⟨rfl, rfl⟩
  · simp only [List.mem_append, List.mem_range, List.mem_cons, List.not_mem_nil, or_false, not_or] at hn
    refine ⟨.inl rfl, ?_⟩
    simp only [minorDefined, Bool.or_eq_false_iff, Bool.and_eq_false_iff, decide_eq_false_iff_not]
    omega
  · simp only [List.mem_cons, List.not_mem_nil, or_false, not_or] at hn
    refine ⟨.inr rfl, ?_⟩
    simp only [minorDefined, decide_eq_false_iff_not]
    omega

/-- A word of a defined MAJOR whose MINOR is undefined has sub-code 1 (R156). -/
theorem undefinedSub_minor {w w1 : Nat} (hM : majorDefined (majorOf w) = true) (hm : minorDefined (majorOf w) (w % 256) = false) :
    undefinedSub w w1 = some 1 := by
  simp [undefinedSub, wordBad, firstBad, hM, hm]

/-- An undefined base word that can be read raises ILLEGAL. -/
theorem Tile.undefinedWord_base (T : Tile) {w sub : Nat} (hl : wordLen w = 4) (hu : T.hasUE T.pc.toNat 4 = false) :
    T.undefinedWord w 0 sub = (T.syncExc 1 1 sub (illegalInfo w 0)).afterStep := by
  simp [Tile.undefinedWord, Tile.preFault, hl, hu]

/-- ASYNC_EVENT_ENTRY before an undefined base word that the tile can dispatch. -/
theorem exec_undefinedWord (s : State) (t : TileIx) {w sub : Nat} (hw : w < 2 ^ 32) (hl : wordLen w = 4)
    (hb : ∀ w1, undefinedSub w w1 = some sub) (hr : (s.tile t).ready [] = true) :
    ∃ g, exec (.asyncEventEntry ⟨t, some (BitVec.ofNat 64 w)⟩) s = .next (s.onTile t g) ∧
      g (s.tile t) = (s.tile t).undefinedWord w 0 sub := by
  refine ⟨_, rfl, ?_⟩
  simp [wordField_low hw, hb, hl, hr]

end Sys2Proof.Machine
end

section
/-!
SUPPORT. Laws of the scalar ALU: every instruction of R118 is one operation of `Tile.alu`.
-/
namespace Sys2Proof.Machine
open Claims

/-- The instruction is an ALU instruction of tile `t` with fields `f`, which computes `op` and reserves C where `unary` holds. -/
def RunsAlu (i : Instr) (t : TileIx) (f : F3) (unary : Bool) (op : Word → Word → Word) : Prop :=
  ∃ minor op', (∀ b c, op' b c = op b c) ∧ ∀ s, exec i s = .next (s.onTile t (fun T => T.alu f minor unary op'))

/-- The cases stand in the order of the table. -/
theorem runsAlu_of_aluValue {i : Instr} {t : TileIx} {f : F3} {op : Word → Word → Word} (h : aluValue i = some (t, f, op)) :
    RunsAlu i t f false op := by
  unfold aluValue at h
  split at h <;> cases h
  · exact ⟨_, _, add_eq_ofInt, fun _ => rfl⟩
  · exact ⟨_, _, sub_eq_ofInt, fun _ => rfl⟩
  · exact ⟨_, _, fun _ _ => rfl, fun _ => rfl⟩
  · exact ⟨_, _, fun _ _ => rfl, fun _ => rfl⟩
  · exact ⟨_, _, fun _ _ => rfl, fun _ => rfl⟩
  · exact ⟨_, _, fun b c => shiftLeft_eq_ofNat b (c.toNat % 64), fun _ => rfl⟩
  · exact ⟨_, _, fun b c => ushiftRight_eq_ofNat b (c.toNat % 64), fun _ => rfl⟩
  · exact ⟨_, _, fun b c => sshiftRight_eq_ofInt b (c.toNat % 64), fun _ => rfl⟩
  · exact ⟨_, _, flagWord_slt, fun _ => rfl⟩
  · exact ⟨_, _, flagWord_ult, fun _ => rfl⟩
  · exact ⟨_, _, ite_slt_eq_min, fun _ => rfl⟩
  · exact ⟨_, _, ite_slt_eq_max, fun _ => rfl⟩
  · exact ⟨_, _, ite_ult_eq_min, fun _ => rfl⟩
  · exact ⟨_, _, ite_ult_eq_max, fun _ => rfl⟩

/-- The cases stand in the order of the table. -/
theorem runsAlu_of_mulValue {i : Instr} {t : TileIx} {f : F3} {op : Word → Word → Word} (h : mulValue i = some (t, f, op)) :
    RunsAlu i t f (takesOne i) op := by
  unfold mulValue at h
  split at h <;> cases h
  · exact ⟨_, _, mul_eq_ofInt, fun _ => rfl⟩
  · exact ⟨_, _, fun _ _ => rfl, fun _ => rfl⟩
  · exact ⟨_, _, fun _ _ => rfl, fun _ => rfl⟩
  · exact ⟨_, _, divS_eq, fun _ => rfl⟩
  · exact ⟨_, _, fun _ _ => rfl, fun _ => rfl⟩
  · exact ⟨_, _, remS_eq, fun _ => rfl⟩
  · exact ⟨_, _, fun _ _ => rfl, fun _ => rfl⟩
  · exact ⟨_, _, fun b _ => (leadZeros_eq b).trans (by dsimp only; cases (setBitsOf b).getLast? <;> rfl), fun _ => rfl⟩
  · exact ⟨_, _, fun b _ => congrArg _ (trailZeros_eq b), fun _ => rfl⟩
  · exact ⟨_, _, fun b _ => congrArg _ (popCount_eq b), fun _ => rfl⟩

/-- Every MINOR of R118 is that of one ALU operation, which reserves C from `clz` on. -/
theorem exec_of_aluMinor {i : Instr} {t : TileIx} {f : F3} {minor : Nat} (h : aluMinor i = some (t, f, minor)) :
    minor < 2 ^ 8 ∧ ∃ op, ∀ s, exec i s = .next (s.onTile t (fun T => T.alu f minor (decide (0x18 ≤ minor)) op)) := by
  unfold aluMinor at h
  split at h <;> cases h <;> exact ⟨by decide, _, fun _ => rfl⟩

/-- Where its reserved fields are 0 an ALU operation writes sA and retires. -/
theorem Tile.alu_ok (T : Tile) {f : F3} {minor : Nat} {unary : Bool} (op : Word → Word → Word) (hk : f.k = 0)
    (hu : unary = true → f.c = 0) (hd : Dispatches T [f.a.toNat, f.b.toNat, f.c.toNat]) :
    T.alu f minor unary op =
      (((T.setS f.a.toNat (op (T.sreg f.b.toNat) (T.sreg f.c.toNat))).slot (retFld 1) 1).goto (T.pc + 4)).afterStep := by
  have hb : (f.k != 0 || unary && f.c != 0) = false := by
    cases unary
    · simp [hk]
    · simp [hk, hu rfl]
  rw [Tile.alu, hb]
  exact Tile.scalar_ok T _ hd.1 hd.2 rfl

/-- Where a reserved field is not 0 it is ILLEGAL, sub-code 2, with its word (R156). -/
theorem Tile.alu_reserved (T : Tile) {f : F3} {minor : Nat} {unary : Bool} (op : Word → Word → Word) (hn : minor < 2 ^ 8)
    (hb : f.k ≠ 0 ∨ unary = true ∧ f.c ≠ 0) (hd : Dispatches T [f.a.toNat, f.b.toNat, f.c.toNat]) :
    T.alu f minor unary op = (T.syncExc 1 1 2 (wordInfo (F3w f 1 minor))).afterStep := by
  have hb' : (f.k != 0 || unary && f.c != 0) = true := by simpa using hb
  rw [Tile.alu, hb', ← illegalInfo_base (F3w_lt f (by decide) hn)]
  exact Tile.scalar_illegal T hd.1 hd.2

/-- An ALU instruction whose reserved fields are 0 completes with its value in sA. -/
theorem RunsAlu.retires {i : Instr} {t : TileIx} {f : F3} {unary : Bool} {op : Word → Word → Word} (h : RunsAlu i t f unary op)
    (s : State) (hk : f.k = 0) (hu : unary = true → f.c = 0)
    (hd : Dispatches (s.tile t) [f.a.toNat, f.b.toNat, f.c.toNat]) (hn : fetchable ((s.tile t).pc + 4)) :
    ∃ u T', exec i s = .next u ∧ OnlyTile s t u T' ∧
      Tile.Retired ((s.tile t).setS f.a.toNat (op ((s.tile t).sreg f.b.toNat) ((s.tile t).sreg f.c.toNat))) T' 1
        ((s.tile t).pc + 4) := by
  obtain ⟨minor, op', ho, hx⟩ := h
  refine ⟨_, _, hx s, OnlyTile.onTile s t _, ?_⟩
  rw [Tile.alu_ok _ op' hk hu hd, ho]
  exact Tile.retired _ (by decide) hn

end Sys2Proof.Machine
end

section
/-!
PROOFS. The statements about the scalar ALU.
-/
namespace Sys2Proof.Machine
open Claims

theorem aluResults : Claims.AluResults := fun s _ _ _ _ h hk =>
  (runsAlu_of_aluValue h).retires s hk (by simp)

theorem mulDivBitResults : Claims.MulDivBitResults := fun s _ _ _ _ h hk hc =>
  (runsAlu_of_mulValue h).retires s hk hc

theorem aluReservedFields : Claims.AluReservedFields := by
  intro s i t f minor h hres hd
  obtain ⟨hn, op, hx⟩ := exec_of_aluMinor h
  exact takesItsCause_of_exec (hx s) (Tile.alu_reserved _ op hn (by simpa using hres) hd) (by decide) (by decide)

/-- R156 for both classes whose MINORs the tables list: the word is ILLEGAL, sub-code 1. -/
theorem undefinedMinors (major : Nat) : Claims.UndefinedMinors major := by
  intro s t a b c k minor listed T w hl hn hr hm he hu
  obtain ⟨hM, hmin⟩ := minorDefined_of_not_listed hl hn
  have h64 : major < 2 ^ 6 := by omega
  have hw : w < 2 ^ 32 := packWord_lt h64 a.isLt b.isLt c.isLt k.isLt minor.isLt
  have hmaj : majorOf w = major := majorOf_packWord h64 a.isLt b.isLt c.isLt k.isLt minor.isLt
  have hdef : majorDefined (majorOf w) = true ∧ wordLen w = 4 := by
    unfold wordLen
    rw [hmaj]
    rcases hM with rfl | rfl <;> decide
  have hsub : ∀ w1, undefinedSub w w1 = some 1 := fun w1 =>
    undefinedSub_minor hdef.1 (by rw [hmaj, packWord_mod_minor minor.isLt]; exact hmin)
  obtain ⟨g, hx, hg⟩ := exec_undefinedWord s t hw hdef.2 hsub hr
  refine ⟨_, _, hx, OnlyTile.onTile s t g, ?_⟩
  rw [hg, Tile.undefinedWord_base _ hdef.2 hu, illegalInfo_base hw]
  exact (Tile.syncExc_entered T _ hm he (by decide) (by decide) (by decide)).afterStep

/-- Settles O3: each instruction of R118 is one operation of `Tile.alu`, whose reserved fields are judged at dispatch. -/
theorem scalarAluResults : Obligations.ScalarAluResults :=
  ⟨aluResults, mulDivBitResults, aluReservedFields, undefinedMinors 0x01⟩

end Sys2Proof.Machine
end

section
/-!
SUPPORT. Laws of host registers: what a read returns after a write, and what a rejected write leaves behind (R25, R155, R680).
-/
namespace Sys2Proof.Machine

/-! ## Reading after writing -/

@[simp] theorem State.hostWord_setHost_same (s : State) (a : Nat) (w : Word) : (s.setHost a w).hostWord a = w :=
  NMap.get_set_same _ _ _ _

theorem State.hostWord_setHost_other (s : State) {a b : Nat} (w : Word) (h : b ≠ a) :
    (s.setHost a w).hostWord b = s.hostWord b :=
  NMap.get_set_other _ _ _ h

theorem State.hf_setHf_same (s : State) (base : Nat) (f : Fld) (v : Nat) (h : f.lo + f.width ≤ 64) :
    (s.setHf base f v).hf base f = v % 2 ^ f.width := by
  simp only [State.hf, State.setHf, State.hostWord_setHost_same]
  exact wordField_setWordField_same _ _ _ _ h

theorem State.hf_setHf_sameReg (s : State) (base : Nat) (f g : Fld) (v : Nat) (hr : g.reg = f.reg) (h : f.lo + f.width ≤ 64)
    (hd : g.lo + g.width ≤ f.lo ∨ f.lo + f.width ≤ g.lo) : (s.setHf base f v).hf base g = s.hf base g := by
  simp only [State.hf, State.setHf, hr, State.hostWord_setHost_same]
  exact wordField_setWordField_other _ _ _ _ _ _ h hd

theorem State.hostWord_setEf_other (s : State) (f : Fld) (v : Nat) {b : Nat} (h : b ≠ f.reg) :
    (s.setEf f v).hostWord b = s.hostWord b :=
  State.hostWord_setHost_other _ _ (by rwa [Nat.zero_add])

theorem State.ef_setEf_otherReg (s : State) (f g : Fld) (v : Nat) (h : g.reg ≠ f.reg) : (s.setEf f v).ef g = s.ef g := by
  have e := s.hostWord_setEf_other f v h
  simp only [State.ef, State.hf, Nat.zero_add, e]

/-- Raising an engine interrupt sets its status bit, and at most sends a vector besides. -/
theorem State.irq_cases (s : State) (f : Fld) : s.irq f = s.setEf f 1 ∨ ∃ vec, s.irq f = (s.setEf f 1).vector 0 vec := by
  unfold State.irq
  dsimp only
  split
  · exact .inl rfl
  · exact .inr ⟨_, rfl⟩

/-! ## Noting a rejected write -/

/-- An engine field in which a rejected write may be noted: of CFG_REJECT, IRQ_STATUS or DBG_CONFLICT, and not SET itself. -/
def Fld.notesReject (f : Fld) : Prop :=
  (f.reg = F.CFG_REJECT_SET.reg ∧ 1 ≤ f.lo ∧ f.lo + f.width ≤ 64) ∨ f.reg = F.IRQ_STATUS_REJECT.reg ∨
    f.reg = F.DBG_CONFLICT_REJECT.reg

/-- From `s` to `u` nothing happens to registers, tiles and memory but that a rejected write is noted. -/
structure NotesReject (s u : State) : Prop where
  set : s.ef F.CFG_REJECT_SET = 1 → u.ef F.CFG_REJECT_SET = 1
  tiles : u.tiles = s.tiles
  mem : u.mem = s.mem
  others : ∀ a, a ≠ F.CFG_REJECT_SET.reg → a ≠ F.IRQ_STATUS_REJECT.reg → a ≠ F.DBG_CONFLICT_REJECT.reg →
    u.hostWord a = s.hostWord a

theorem NotesReject.refl (s : State) : NotesReject s s := ⟨id, rfl, rfl, fun _ _ _ _ => rfl⟩

theorem NotesReject.trans {s t u : State} (h : NotesReject s t) (k : NotesReject t u) : NotesReject s u where
  set := k.set ∘ h.set
  tiles := k.tiles.trans h.tiles
  mem := k.mem.trans h.mem
  others a h1 h2 h3 := (k.others a h1 h2 h3).trans (h.others a h1 h2 h3)

/-- SET stays as it is: the field lies in another register, or above bit 0 of CFG_REJECT. -/
theorem NotesReject.setEf (s : State) {f : Fld} (v : Nat) (hf : f.notesReject) : NotesReject s (s.setEf f v) where
  set h := by
    rw [← h]
    rcases hf with ⟨hr, hlo, hhi⟩ | hr | hr
    · exact State.hf_setHf_sameReg s 0 f F.CFG_REJECT_SET v hr.symm hhi (.inl hlo)
    · exact State.ef_setEf_otherReg s f _ v (by rw [hr]; decide)
    · exact State.ef_setEf_otherReg s f _ v (by rw [hr]; decide)
  tiles := by simp
  mem := by simp
  others a h1 h2 h3 := s.hostWord_setEf_other f v (by rcases hf with ⟨hr, _⟩ | hr | hr <;> rwa [hr])

theorem NotesReject.setRejectSet (s : State) : NotesReject s (s.setEf F.CFG_REJECT_SET 1) where
  set _ := State.hf_setHf_same s 0 _ 1 (by decide)
  tiles := by simp
  mem := by simp
  others _ h _ _ := s.hostWord_setEf_other _ 1 h

theorem NotesReject.irq (s : State) : NotesReject s (s.irq F.IRQ_STATUS_REJECT) := by
  have h : NotesReject s (s.setEf F.IRQ_STATUS_REJECT 1) := .setEf s 1 (.inr (.inl rfl))
  rcases s.irq_cases F.IRQ_STATUS_REJECT with e | ⟨vec, e⟩ <;> rw [e]
  · exact h
  · exact ⟨h.set, h.tiles, h.mem, h.others⟩

theorem NotesReject.rejNow {s u : State} {b : Bool} (h : NotesReject s u) : NotesReject s { u with rejNow := b } :=
  ⟨h.set, h.tiles, h.mem, h.others⟩

theorem NotesReject.ite {s u v : State} {c : Prop} [Decidable c] (h : NotesReject s u) (k : NotesReject s v) :
    NotesReject s (if c then u else v) := by
  split
  · exact h
  · exact k

/-- ADDR and SRC are written together. -/
theorem NotesReject.first (s : State) (addr src : Nat) :
    NotesReject s ((s.setEf F.CFG_REJECT_ADDR addr).setEf F.CFG_REJECT_SRC src) :=
  (setEf s addr (.inl (by decide))).trans (setEf _ src (.inl (by decide)))

/-- A rejected write sets CFG_REJECT.SET where it is not set yet, and notes the rest beside it. -/
theorem State.hostReject_notes (s : State) (a src : Nat) : ∃ t, t.ef F.CFG_REJECT_SET = 1 ∧ NotesReject s t ∧
    NotesReject t (s.hostReject a src) := by
  unfold State.hostReject
  dsimp only
  split
  · next hset =>
    have hm : NotesReject s (s.setEf F.CFG_REJECT_MULTI 1) := .setEf s 1 (.inl (by decide))
    have hc (t : State) : NotesReject t (t.setEf F.DBG_CONFLICT_REJECT 1) := .setEf t 1 (.inr (.inr rfl))
    exact ⟨s, hset, .refl s, (hm.trans (.ite (hc _) (.refl _))).trans (.ite (.first _ _ _) (.refl _))⟩
  · exact ⟨_, State.hf_setHf_same s 0 _ 1 (by decide), .setRejectSet s, .rejNow ((NotesReject.first _ _ _).trans (.irq _))⟩

theorem State.hostReject_noted (s : State) (a src : Nat) : NotesReject s (s.hostReject a src) :=
  have ⟨_, _, h, k⟩ := s.hostReject_notes a src
  h.trans k

theorem State.hostReject_set (s : State) (a src : Nat) : (s.hostReject a src).ef F.CFG_REJECT_SET = 1 :=
  have ⟨_, hset, _, k⟩ := s.hostReject_notes a src
  k.set hset

theorem State.onceRejected_noted (s before : State) : NotesReject s (s.onceRejected before) :=
  .ite (.setEf s _ (.inl (by decide))) (.refl s)

/-- A write to an unassigned offset does nothing but be rejected (R680). -/
theorem State.writeReg_unassigned (s : State) {a : Nat} (w src : Nat) (h : hostReg a = none) :
    NotesReject s (s.writeReg a w src) ∧ (s.writeReg a w src).ef F.CFG_REJECT_SET = 1 := by
  have hr := s.hostReject_noted a src
  have hset := s.hostReject_set a src
  have ho := (s.hostReject a src).onceRejected_noted s
  unfold State.writeReg
  simp only [h, Option.isNone_none, if_true]
  split
  · exact ⟨hr, hset⟩
  · exact ⟨hr.trans ho, ho.set hset⟩

theorem State.writeReadOnly_noted (s : State) (a w src : Nat) : NotesReject s (s.writeReadOnly a w src) := by
  unfold State.writeReadOnly
  split
  · exact .ite (.refl s) (s.hostReject_noted a src)
  · exact s.hostReject_noted a src

theorem State.writeReadOnly_unassigned (s : State) {a : Nat} (w src : Nat) (h : hostReg a = none) :
    (s.writeReadOnly a w src).ef F.CFG_REJECT_SET = 1 := by
  simp only [State.writeReadOnly, h]
  exact s.hostReject_set a src

end Sys2Proof.Machine
end

section
/-!
PROOFS. The statement about the host's accesses to register space (R676 to R680).
-/
namespace Sys2Proof.Machine

/-! ## What an access does -/

theorem exec_hostRegisterAccess (vf : Option CtxIx) (off : BitVec 28) (n : BitVec 13) (wr : Bool) (w : BitVec 64) (s : State) :
    exec (.hostRegisterAccess vf off n wr w) s = .next (s.hostAccess vf off.toNat n.toNat wr w.toNat) := rfl

theorem State.readReg_unassigned (s : State) {a : Nat} (h : hostReg a = none) : s.readReg a = 0 := by
  simp [State.readReg, h]

/-- A host read changes only the answer: TRACE_DATA1 and TIME_NOW_FRAC are the exceptions (R27, R673). -/
theorem State.hostRead_pure (s : State) {a : Nat} (ht : a ≠ 0x418) (hf : a ≠ 0x108) :
    s.hostRead a = { s with reply := ⟨0, false, (s.readReg a).toNat⟩ } := by
  have hr : (a == F.TRACE_DATA1_W1.reg) = false := beq_false_of_ne ht
  simp only [State.hostRead, State.takeReg, ht, hf, if_false, hr, Bool.or_false]

theorem State.hostRead_unassigned (s : State) {a : Nat} (ht : a ≠ 0x418) (hf : a ≠ 0x108) (h : hostReg a = none) :
    s.hostRead a = { s with reply := ⟨0, false, 0⟩ } := by
  rw [s.hostRead_pure ht hf, s.readReg_unassigned h]
  rfl

theorem State.hostAccess_silent (s : State) (vf : Option CtxIx) (off n : Nat) (wr : Bool) (w : Nat)
    (h : s.answers ((vf.map (fun c => c.val + 1)).getD 0) = false) : s.hostAccess vf off n wr w = s := by
  simp [State.hostAccess, h]

theorem State.hostAccess_unsupported (s : State) (vf : Option CtxIx) (off n : Nat) (wr : Bool) (w : Nat)
    (h : s.answers ((vf.map (fun c => c.val + 1)).getD 0) = true) (hn : n ≠ 8 ∨ off % 8 ≠ 0) :
    s.hostAccess vf off n wr w = { s with reply := ⟨1, false, 0⟩ } := by
  unfold State.hostAccess
  dsimp only
  rw [h, if_neg (by decide), if_pos (hn.imp_right .inl)]
  rfl

/-- An access to BAR0 that the PF answers. -/
theorem State.hostAccess_pf (s : State) {off : Nat} (wr : Bool) (w : Nat) (h : s.answers 0 = true) (ho : off % 8 = 0) :
    s.hostAccess none off 8 wr w = if wr then s.writeReg off w 1 else s.hostRead off := by
  simp [State.hostAccess, h, ho]

/-- An access to the registers of its context page that a VF answers. -/
theorem State.hostAccess_vf (s : State) (c : CtxIx) {off : Nat} (wr : Bool) (w : Nat) (h : s.answers (c.val + 1) = true)
    (ho : off % 8 = 0) (hlt : off < 0x8000) :
    s.hostAccess (some c) off 8 wr w =
      if wr then if vfReadOnly off then s.writeReadOnly (ctxPage c.val + off) w 1 else s.writeReg (ctxPage c.val + off) w 1
      else s.hostRead (ctxPage c.val + off) := by
  have h1 : ¬ 0x10000 ≤ off := by omega
  have h2 : ¬ 0x8000 ≤ off := by omega
  simp [State.hostAccess, h, ho, h1, h2]

/-- A write to an unassigned offset of a context page is rejected, whether or not the VF may write the offset (R679). -/
theorem State.hostAccess_vf_unassigned (s : State) (c : CtxIx) {off : Nat} (w : Nat) (h : s.answers (c.val + 1) = true)
    (ho : off % 8 = 0) (hlt : off < 0x8000) (hr : hostReg (ctxPage c.val + off) = none) :
    NotesReject s (s.hostAccess (some c) off 8 true w) ∧ (s.hostAccess (some c) off 8 true w).ef F.CFG_REJECT_SET = 1 := by
  rw [s.hostAccess_vf c true w h ho hlt, if_pos rfl]
  split
  · exact ⟨s.writeReadOnly_noted _ w 1, s.writeReadOnly_unassigned w 1 hr⟩
  · exact s.writeReg_unassigned w 1 hr

/-- Through a VF a register that is read-only there takes no write (R679). -/
theorem State.hostAccess_vf_readOnly (s : State) (c : CtxIx) {off : Nat} (w : Nat) (h : s.answers (c.val + 1) = true)
    (ho : off ∈ [0x00, 0x08, 0x40, 0x80, 0x88, 0x90, 0x98]) : NotesReject s (s.hostAccess (some c) off 8 true w) := by
  have hro : vfReadOnly off = true := List.contains_iff_mem.mpr ho
  obtain ⟨halign, hlt⟩ : off % 8 = 0 ∧ off < 0x8000 := by
    revert off
    decide
  rw [s.hostAccess_vf c true w h halign hlt, if_pos rfl, if_pos hro]
  exact s.writeReadOnly_noted _ w 1

/-! ## The obligation -/

/-- Settles O49: an access that is answered is a read or a register write, and a write that is rejected only notes that it was. -/
theorem hostRegisterAccesses : Obligations.HostRegisterAccesses := by
  unfold Obligations.HostRegisterAccesses
  simp only [exec_hostRegisterAccess]
  refine ⟨fun s vf off n wr w => ⟨fun h => ?silent, fun h hn => ?unsupported⟩, fun s off w h ho ht hf => ?read,
    fun s off w h ho => ?write, fun s off w h ho hr => ?writeUnassigned, fun s c off w h ho => ?vfReadOnly,
    fun s c off w h ho hlt hr => ⟨?vfRead, ?vfWrite⟩⟩
  case silent => rw [s.hostAccess_silent _ _ _ _ _ h]
  case unsupported => rw [s.hostAccess_unsupported _ _ _ _ _ h hn]
  case read =>
    have ht' : off.toNat ≠ 0x418 := fun e => ht (BitVec.eq_of_toNat_eq e)
    have hf' : off.toNat ≠ 0x108 := fun e => hf (BitVec.eq_of_toNat_eq e)
    have hx := s.hostAccess_pf false w.toNat h ho
    exact ⟨congrArg _ (hx.trans (s.hostRead_pure ht' hf')), fun hr =>
      congrArg _ (hx.trans (s.hostRead_unassigned ht' hf' hr))⟩
  case write => exact congrArg _ (s.hostAccess_pf true w.toNat h ho)
  case writeUnassigned =>
    obtain ⟨hn, hset⟩ := s.writeReg_unassigned w.toNat 1 hr
    exact ⟨_, congrArg _ (s.hostAccess_pf true w.toNat h ho), hset, hn.tiles, hn.mem, hn.others⟩
  case vfReadOnly =>
    have hn := s.hostAccess_vf_readOnly c w.toNat h ho
    exact ⟨_, rfl, hn.others, hn.tiles, hn.mem⟩
  case vfRead =>
    have hx := s.hostAccess_vf c false w.toNat h ho hlt
    have hpage : 0x200000 ≤ ctxPage c.val + off.toNat := by unfold ctxPage; omega
    exact congrArg _ (hx.trans (s.hostRead_unassigned (by omega) (by omega) hr))
  case vfWrite =>
    obtain ⟨hn, hset⟩ := s.hostAccess_vf_unassigned c w.toNat h ho hlt hr
    exact ⟨_, rfl, hset, hn.tiles, hn.mem, hn.others⟩

end Sys2Proof.Machine
end
